-- ==== Sys2Proof/Word.lean ====
section
/-! DEFINITION. The bit-vector words the manual speaks of, and nothing more. Bytes, 16-bit serials, 32-bit registers
and the 64-bit closure map are bits the host or a station sees; counts, indices, minutes and lengths are `Nat` or `Int`. -/

namespace Sys2Proof

/-- One byte of an exchange-area structure, a Deckline frame or a text field. -/
abbrev Byte := BitVec 8
/-- A 16-bit field: page serials, muster serials, tags, selectors. -/
abbrev Word16 := BitVec 16
/-- A 32-bit register or counter. -/
abbrev Word32 := BitVec 32
/-- A 64-bit word: the exchange area base and the closure map. -/
abbrev Word64 := BitVec 64
/-- A fixed-length text field, copied byte for byte (00_scope.md, Text). -/
abbrev Text := List Byte

end Sys2Proof
end

