-- ==== Sys2Proof/Syntax.lean ====
section
/-! DEFINITION. The commands the part takes: one constructor per row of spec/opcode_table.json, in the table's order,
each with the operands its rule gives it. A command is one whole step of the part (95_what_each_step_holds.md). -/

namespace Sys2Proof

/-- What began a function reset (R190). -/
inductive ResetSource where
  /-- A CONTROL write with RESET set (R176); discarded while the part is held in a reset (R175). -/
  | controlWrite
  /-- A PCIe function level reset. -/
  | flr
  deriving DecidableEq, Repr

/-- The two sides of the Exchange Unit that keep a bus read outstanding (R182). -/
inductive ReadSide where
  | survey
  | staging
  deriving DecidableEq, Repr

/-- The commands of the part. `line` is 0 to 7 (R124), `station` is 0 to 495 (R9), and a list of bytes is what a bus
read of the exchange area returned, lowest address first (R193). -/
inductive Instr where
  /-- RESET_N or PERST# begins a power-on reset (R190). -/
  | powerOnReset
  /-- A CONTROL write with RESET set, or an FLR (R190). -/
  | functionReset (source : ResetSource)
  /-- The function reset ends (R175). -/
  | functionResetEnd
  /-- A CONTROL write with RUN 1 (R188). -/
  | runRequest
  /-- A CONTROL write with RUN 0 (R188). -/
  | haltRequest
  /-- The enables (bits 8 to 14) of a CONTROL write (R176). -/
  | causeEnablesWrite (enables : BitVec 7)
  /-- A write of CAUSE (R187); bits 0 to 6 count. -/
  | causeClear (value : Word32)
  /-- A write of XBASE_HI (R177). -/
  | xbaseHiWrite (value : Word32)
  /-- A write of XBASE_LO (R177). -/
  | xbaseLoWrite (value : Word32)
  /-- A write of SURVEY (R178). -/
  | surveyWrite (value : Word32)
  /-- Register order CALL_REAL (R69). -/
  | callReal
  /-- Register order CALL_DRILL (R69). -/
  | callDrill
  /-- Register order STAND_DOWN (R74). -/
  | standDown
  /-- A MUSTER write with any other order code (R179). -/
  | badOrder (code : BitVec 4)
  /-- A write at an unassigned offset, or of a size in bytes other than 4 (R175). -/
  | unmappedAccess (offset size : Nat) (value : Word64)
  /-- The qualified ALARM level changes to `level` (R65). -/
  | alarmQualifiedTransition (level : Bool)
  /-- The ALARM qualifier takes its first level after a reset (R65). -/
  | alarmInitialLevel (level : Bool)
  /-- The qualified RESERVE level rises (R86). -/
  | reserveQualifiedRise
  /-- The qualified RESERVE level falls (R87). -/
  | reserveQualifiedFall
  /-- The RESERVE qualifier takes its first level after a reset (R86). -/
  | reserveInitialLevel (level : Bool)
  /-- The voyage minute has changed (R45). -/
  | minuteEvent
  /-- The called timer runs out (R72). -/
  | calledTimerExpiry
  /-- The stand-down hold timer runs out (R75). -/
  | standDownHoldExpiry
  /-- The survey countdown runs out (R181). -/
  | surveyCountdownExpiry
  /-- A station's rotation step countdown runs out (R112). -/
  | stepCountdownExpiry (station : Nat)
  /-- A station's interjection countdown runs out (R118). -/
  | interjectionCountdownExpiry (station : Nat)
  /-- A cabin's refresh countdown reaches 0 (R146). -/
  | refreshCountdownExpiry (station : Nat)
  /-- The solve in progress completes (R38). -/
  | solveComplete
  /-- A Line Controller chooses a turn (R139). -/
  | turn (line : Nat)
  /-- The 5 ms of a cycle with no included station end (R140). -/
  | silentCycleExpiry (line : Nat)
  /-- A valid STATE answer: flags, confirmed serial, service counter, assist counter (R127, R196). -/
  | stateAnswer (line : Nat) (flags : Byte) (serial : Word16) (service assist : Byte)
  /-- A valid TAKEN answer while a PAGE_HEAD waits for its answer (R130). -/
  | takenToPageHead (line : Nat)
  /-- A valid TAKEN answer while a PAGE_BLOCK waits for its answer (R131). -/
  | takenToPageBlock (line : Nat)
  /-- A valid HELD_OFF answer (R130, R131). -/
  | heldOff (line : Nat)
  /-- An answer that fails a check of R126. -/
  | answerDiscarded (line : Nat)
  /-- The reply window closes with no start byte received (R126). -/
  | replyWindowTimeout (line : Nat)
  /-- The survey's read of the publish word completes (R160). -/
  | publishWordRead (bytes : List Byte)
  /-- The survey's read of the live words completes (R17). -/
  | liveWordsRead (bytes : List Byte)
  /-- The survey's read of the acknowledge array completes (R152). -/
  | ackArrayRead (bytes : List Byte)
  /-- The status record write in progress is issued in time (R186). -/
  | statusRecordWritten
  /-- The status record write in progress is not issued in time (R186). -/
  | statusWriteFailed
  /-- The report write in progress is issued in time (R183). -/
  | reportWriteDone
  /-- The report write in progress is not issued in time (R183). -/
  | reportWriteFailed
  /-- The read outstanding on one side of the Exchange Unit fails (R182). -/
  | busReadFailed (side : ReadSide)
  /-- The read of the notice header completes (R161). -/
  | noticeHeaderRead (bytes : List Byte)
  /-- The read of the directory completes (R163): the bytes of entries 0 to 11 and then of entries 16 to 22 (R180). -/
  | directoryRead (bytes : List Byte)
  /-- The read of the notice entries completes (R162). -/
  | noticeEntriesRead (bytes : List Byte)
  /-- The read of a PUT record completes (R165). -/
  | recordRead (bytes : List Byte)
  /-- The final re-read of the publish word completes (R166). -/
  | publishWordReread (bytes : List Byte)
  /-- Validation of the post-edition set completes (R168). -/
  | validationDone
  /-- The halt in progress completes (R188). -/
  | haltComplete
  /-- RESET_N or PERST# is released (R175). -/
  | powerOnResetEnd
  /-- 25,000,000 reference periods have made one voyage second (R44). -/
  | voyageSecond
  deriving DecidableEq, Repr

end Sys2Proof
end

