-- ==== Sys2Proof/Config.lean ====
section
/-! DEFINITION. The numbers the manual fixes once: the reference clock and the capacities; and the free values, which
nothing in the model fixes: what the pins and the lines bring in a period of the reference (logs 8, 38). -/

namespace Sys2Proof.Config

/-- Periods of the 25 MHz reference in one second (R44). -/
abbrev periodsPerSecond : Nat := 25000000
/-- Periods of the 25 MHz reference in one millisecond. -/
abbrev periodsPerMs : Nat := 25000
/-- Periods of the 25 MHz reference in one microsecond. -/
abbrev periodsPerUs : Nat := 25
/-- Stations on one line (R9). -/
abbrev stationsPerLine : Nat := 62
/-- Station numbers in all (R9). -/
abbrev stationCount : Nat := 496
/-- Deckline lines (R124). -/
abbrev lineCount : Nat := 8
/-- Target slots (R26). -/
abbrev slotCount : Nat := 64
/-- A distance that says the node cannot reach the target (R21). -/
abbrev unreachable : Nat := 65535
/-- A distance of 65534 cost units or more (R21). -/
abbrev far : Nat := 65534
/-- The greatest voyage minute the clock can reach (R47). -/
abbrev lastMinute : Nat := 71582788
/-- Records one stage can hold (R164). -/
abbrev stageCapacity : Nat := 6400
/-- Entries one edition notice may have (R161). -/
abbrev entryCapacity : Nat := 96

/-! ## Free values

Each is a constant without a body, applied to the number of the period in which it is read (`State.periods`). -/

/-- Is the ALARM pin asserted throughout a period (R65, log 8)? -/
opaque alarmPin : Nat → Bool
/-- Is the RESERVE pin asserted throughout a period (R86, log 8)? -/
opaque reservePin : Nat → Bool
/-- Does a byte that belongs to no answer arrive on a line's RXD in a period (R124, log 38)? -/
opaque strayByte (line : Nat) : Nat → Bool
/-- At the close of a line's reply window in a period, has a start byte arrived in the window, so that an answer is still
coming in (R126, log 38)? -/
opaque answerBegun (line : Nat) : Nat → Bool
/-- Did an answer that a line discards in a period end at an idle gap, and not at its CRC (R126, log 38)? -/
opaque endedAtGap (line : Nat) : Nat → Bool

end Sys2Proof.Config
end

