-- ==== Sys2Proof/Machine/Bytes.lean ====
section
/-! DEFINITION. Reading and writing the little-endian fields of every structure the host or a station sees (R191), and
the Deckline CRC (R125). -/

namespace Sys2Proof.Machine

/-- The byte at an offset; a byte that was not given reads 0 (log 26). -/
def byteAt (bs : List Byte) (off : Nat) : Byte := bs.getD off 0

/-- A one-byte field as a number. -/
def u8 (bs : List Byte) (off : Nat) : Nat := (byteAt bs off).toNat

/-- A two-byte little-endian field (R191). -/
def u16 (bs : List Byte) (off : Nat) : Nat := u8 bs off + 256 * u8 bs (off + 1)

/-- A four-byte little-endian field (R191). -/
def u32 (bs : List Byte) (off : Nat) : Nat := u16 bs off + 65536 * u16 bs (off + 2)

/-- An eight-byte little-endian field (R193, closure map). -/
def u64 (bs : List Byte) (off : Nat) : Nat := u32 bs off + 4294967296 * u32 bs (off + 4)

/-- A two-byte field marked signed: two's complement (R191). -/
def i16 (bs : List Byte) (off : Nat) : Int := (BitVec.ofNat 16 (u16 bs off)).toInt

/-- A text field of `n` bytes; the bytes after the end of a short structure read 0. -/
def textAt (bs : List Byte) (off n : Nat) : Text := (List.range n).map fun i => byteAt bs (off + i)

/-- Are all bytes from `off` on, `n` of them, 0? -/
def zeroBytes (bs : List Byte) (off n : Nat) : Bool := (List.range n).all fun i => byteAt bs (off + i) == 0

/-- One byte to write. -/
def w8 (n : Nat) : List Byte := [BitVec.ofNat 8 n]

/-- A two-byte little-endian field to write. -/
def w16 (n : Nat) : List Byte := [BitVec.ofNat 8 n, BitVec.ofNat 8 (n / 256)]

/-- A four-byte little-endian field to write. -/
def w32 (n : Nat) : List Byte := w16 n ++ w16 (n / 65536)

/-- `n` reserved bytes, written as 0 (R192). -/
def wZero (n : Nat) : List Byte := List.replicate n 0

/-- A text field of exactly `n` bytes: the leading bytes, padded with zero bytes (R107). -/
def wText (t : Text) (n : Nat) : List Byte := (t ++ List.replicate n 0).take n

/-- A signed two-byte field to write, two's complement. -/
def wInt16 (i : Int) : List Byte := w16 (BitVec.ofInt 16 i).toNat

/-- A flag as a number. -/
def flagNat (b : Bool) : Nat := if b then 1 else 0

/-- One bit of the CRC register: the generator polynomial is 0x1021, most significant bit first (R125). -/
def crcBit (crc : Word16) : Word16 := if crc.msb then (crc <<< 1) ^^^ 0x1021#16 else crc <<< 1

/-- One byte into the CRC register, most significant bit first (R125). -/
def crcByte (crc : Word16) (b : Byte) : Word16 :=
  crcBit (crcBit (crcBit (crcBit (crcBit (crcBit (crcBit (crcBit (crc ^^^ (b.zeroExtend 16 <<< 8)))))))))

/-- The Deckline CRC of some bytes: the register starts at 0xFFFF, no reflection, no inversion (R125). -/
def crc16 (bs : List Byte) : Word16 := bs.foldl crcByte 0xFFFF#16

/-- The nearer end of a range, for a clamped field (00_scope.md, R2). -/
def clampNat (lo hi n : Nat) : Nat := if n < lo then lo else if hi < n then hi else n

/-- The nearer end of a signed range. -/
def clampInt (lo hi n : Int) : Int := if n < lo then lo else if hi < n then hi else n

/-- A count that saturates (R185, R131, R137). -/
def satAdd (limit n k : Nat) : Nat := if limit < n + k then limit else n + k

/-- A 16-bit serial that rises by one and goes from 65535 to 1 (R71, R91). -/
def nextSerial (s : Word16) : Word16 := if s = 0xFFFF#16 then 1 else s + 1

end Sys2Proof.Machine
end

