-- ==== Sys2Proof/Machine/Table.lean ====
section
/-! DEFINITION. Sparse tables in one canonical form: pairs of an index and a record, indices strictly rising. An index
that is not listed is an empty record (R2, log 37), so equal tables are equal data. -/

namespace Sys2Proof.Machine

/-- A table held sparsely: index and record, indices strictly rising. -/
abbrev Tbl (α : Type) := List (Nat × α)

/-- The record at an index, or none where the record is empty. -/
def tblGet {α : Type} : Tbl α → Nat → Option α
  | [], _ => none
  | (i, a) :: rest, k => if i = k then some a else tblGet rest k

/-- The record at an index, or `d` where none is listed. -/
def tblGetD {α : Type} (t : Tbl α) (k : Nat) (d : α) : α := (tblGet t k).getD d

/-- Put a record at an index, in its place in the order. -/
def tblPut {α : Type} : Tbl α → Nat → α → Tbl α
  | [], k, v => [(k, v)]
  | (i, a) :: rest, k, v =>
    if k < i then (k, v) :: (i, a) :: rest
    else if k = i then (k, v) :: rest
    else (i, a) :: tblPut rest k v

/-- Empty the record at an index. -/
def tblDel {α : Type} : Tbl α → Nat → Tbl α
  | [], _ => []
  | (i, a) :: rest, k => if i = k then rest else (i, a) :: tblDel rest k

/-- Put a record, or empty the index. -/
def tblSet {α : Type} (t : Tbl α) (k : Nat) : Option α → Tbl α
  | none => tblDel t k
  | some v => tblPut t k v

/-- Is the record at an index in use? -/
def tblHas {α : Type} (t : Tbl α) (k : Nat) : Bool := (tblGet t k).isSome

/-- The listed indices, in order. -/
def tblKeys {α : Type} (t : Tbl α) : List Nat := t.map Prod.fst

/-- Change every listed record. -/
def tblMap {α β : Type} (f : Nat → α → β) : Tbl α → Tbl β
  | [] => []
  | (i, a) :: rest => (i, f i a) :: tblMap f rest

/-- Change the record at an index, if there is one. -/
def tblModify {α : Type} (t : Tbl α) (k : Nat) (f : α → α) : Tbl α :=
  match tblGet t k with
  | none => t
  | some a => tblPut t k (f a)

/-- Insert a number into a rising list without repeats. -/
def insertNat (n : Nat) : List Nat → List Nat
  | [] => [n]
  | m :: rest => if n < m then n :: m :: rest else if n = m then m :: rest else m :: insertNat n rest

/-- A rising list without repeats holding the same numbers. -/
def sortNats (l : List Nat) : List Nat := l.foldr insertNat []

/-- Indices at which two tables differ, field by field, a change between empty and in use counting (R16, R169). -/
def changedKeys {α : Type} [DecidableEq α] (before after : Tbl α) : List Nat :=
  (sortNats (tblKeys before ++ tblKeys after)).filter fun k => decide (tblGet before k ≠ tblGet after k)

/-- Indices listed rise strictly. -/
def tblSorted {α : Type} (t : Tbl α) : Bool := decide ((tblKeys t).Pairwise (· < ·))

/-- The index and the record of the lowest index that meets a condition. -/
def tblFind? {α : Type} (t : Tbl α) (p : Nat → α → Bool) : Option (Nat × α) := t.find? fun e => p e.1 e.2

end Sys2Proof.Machine
end

