-- ==== Sys2Proof/Machine/Types.lean ====
section
/-! DEFINITION. The codes and records of the manual as Lean types, with the code values of R198 and R179. Held records
have no in_use field: an empty record is an index that its table does not list (R2). -/

namespace Sys2Proof.Machine

/-! ## Codes (R198, R179) -/

/-- Station kinds; an empty record has kind NONE (R10). -/
inductive StationKind where | cabin | waypoint | lobby
  deriving DecidableEq, Repr

/-- Edge kinds (R4). -/
inductive EdgeKind where | corridor | stair | lift | exterior
  deriving DecidableEq, Repr

/-- The rise of a STAIR edge (R4, R5). -/
inductive Rise where | level | aUp | aDown
  deriving DecidableEq, Repr

/-- Which traversals of an edge are allowed (R5). -/
inductive Passage where | both | aToB | bToA
  deriving DecidableEq, Repr

/-- The categories of a programme entry (R51). -/
inductive Category where | show_ | dining | activity | excursion | talk | port | family | other
  deriving DecidableEq, Repr

/-- Alarm sensing (R66, R67). -/
inductive AlarmSense where | level | edge
  deriving DecidableEq, Repr

/-- The ten exit codes and the five arrow states (R11). -/
inductive Arrow where
  | ahead | aheadLeft | left | backLeft | back | backRight | right | aheadRight | up | down
  | here | pending | none | noRoute | withheld
  deriving DecidableEq, Repr

/-- Page kinds (R96, R198). -/
inductive PageKind where
  | blank | doorStandard | doorMuster | wayProgramme | wayLandmarks | lobbyProgramme | notice | screenMuster
  deriving DecidableEq, Repr

/-- Line status of a station (R137). -/
inductive LineStatus where | absent | unknown | online | doubtful | lost
  deriving DecidableEq, Repr

/-- Regimes of route cost (R18). -/
inductive Regime where | normal | muster
  deriving DecidableEq, Repr

/-- Muster states (section 4.3). -/
inductive MusterState where | standby | called | mustering | standingDown
  deriving DecidableEq, Repr

/-- Muster kinds. -/
inductive MusterKind where | none | real | drill
  deriving DecidableEq, Repr

/-- The last order outcome (R69, R179). -/
inductive OrderOutcome where
  | none | accepted | escalated | ignored | refusedDrillInReal | refusedAlarmAsserted | badOrder
  deriving DecidableEq, Repr

/-- Run states (section 10.7). -/
inductive RunState where | halted | running | halting
  deriving DecidableEq, Repr

/-- Settle outcomes (R159). -/
inductive SettleOutcome where | none | applied | rejected
  deriving DecidableEq, Repr

/-- Reasons of a settle (R198). -/
inductive Reason where
  | none | badLeaf | badIndex | badField | dangling | duplicate | oversize | disturbed | fetchFailed
  deriving DecidableEq, Repr

/-- Kinds of the last-fault record: the eight counters in report-block order, and NO_BASE (R185). -/
inductive FaultKind where
  | none | fetchFailed | reportWrite | lineCrc | transferFail | claimWait | unlistedExit | lostPresses | rejected
  | noBase
  deriving DecidableEq, Repr

/-- The seven causes (R175, R187). -/
inductive Cause where | settled | attention | muster | reserve | fault | halted | haltRefused
  deriving DecidableEq, Repr

/-- States of a programme entry (R53). -/
inductive EntryState where | pending | soon | running | linger | gone
  deriving DecidableEq, Repr

/-- States of a target slot (R27). -/
inductive SlotState where | empty | queued | solving | ready
  deriving DecidableEq, Repr

/-- Traversal kinds (R5, R18). -/
inductive TraversalKind where | corridor | stairUp | stairDown | lift | exterior
  deriving DecidableEq, Repr

/-- Service of a line (R143): in service, finishing its transaction before falling silent, silent. -/
inductive Service where | inService | finishing | silent
  deriving DecidableEq, Repr

/-- Whether the part works or is held in a reset (R175). -/
inductive ResetPhase where | operating | powerOn | function
  deriving DecidableEq, Repr

/-- Station kind codes (R198). -/
def stationKindOf : Nat → Option StationKind
  | 1 => some .cabin | 2 => some .waypoint | 3 => some .lobby | _ => none

/-- Edge kind codes (R198). -/
def edgeKindOf : Nat → Option EdgeKind
  | 0 => some .corridor | 1 => some .stair | 2 => some .lift | 3 => some .exterior | _ => none

/-- Rise codes (R198). -/
def riseOf : Nat → Option Rise
  | 0 => some .level | 1 => some .aUp | 2 => some .aDown | _ => none

/-- Passage codes (R198). -/
def passageOf : Nat → Option Passage
  | 0 => some .both | 1 => some .aToB | 2 => some .bToA | _ => none

/-- Category codes (R198). -/
def categoryOf : Nat → Option Category
  | 0 => some .show_ | 1 => some .dining | 2 => some .activity | 3 => some .excursion | 4 => some .talk
  | 5 => some .port | 6 => some .family | 7 => some .other | _ => none

/-- Alarm sense codes (R198). -/
def alarmSenseOf : Nat → Option AlarmSense
  | 0 => some .level | 1 => some .edge | _ => none

/-- The ten exit codes a station's exit may carry (R11). -/
def exitCodeOf : Nat → Option Arrow
  | 0 => some .ahead | 1 => some .aheadLeft | 2 => some .left | 3 => some .backLeft | 4 => some .back
  | 5 => some .backRight | 6 => some .right | 7 => some .aheadRight | 8 => some .up | 9 => some .down | _ => none

/-- Category code on a page, the icon of a list line (R61). -/
def categoryCode : Category → Nat
  | .show_ => 0 | .dining => 1 | .activity => 2 | .excursion => 3 | .talk => 4 | .port => 5 | .family => 6 | .other => 7

/-- Arrow codes (R198). -/
def arrowCode : Arrow → Nat
  | .ahead => 0 | .aheadLeft => 1 | .left => 2 | .backLeft => 3 | .back => 4 | .backRight => 5 | .right => 6
  | .aheadRight => 7 | .up => 8 | .down => 9 | .here => 10 | .pending => 11 | .none => 12 | .noRoute => 13
  | .withheld => 14

/-- Page kind codes (R198). -/
def pageKindCode : PageKind → Nat
  | .blank => 0 | .doorStandard => 1 | .doorMuster => 2 | .wayProgramme => 3 | .wayLandmarks => 4
  | .lobbyProgramme => 5 | .notice => 6 | .screenMuster => 7

/-- A page kind or NONE, which is 0xFF (R198). -/
def confKindCode : Option PageKind → Nat
  | some k => pageKindCode k
  | none => 0xFF

/-- Line status codes (R198). -/
def lineStatusCode : LineStatus → Nat
  | .absent => 0 | .unknown => 1 | .online => 2 | .doubtful => 3 | .lost => 4

/-- Muster state codes (R179). -/
def musterStateCode : MusterState → Nat
  | .standby => 0 | .called => 1 | .mustering => 2 | .standingDown => 3

/-- Muster kind codes (R179). -/
def musterKindCode : MusterKind → Nat
  | .none => 0 | .real => 1 | .drill => 2

/-- Order outcome codes (R179). -/
def orderOutcomeCode : OrderOutcome → Nat
  | .none => 0 | .accepted => 1 | .escalated => 2 | .ignored => 3 | .refusedDrillInReal => 4
  | .refusedAlarmAsserted => 5 | .badOrder => 6

/-- Settle outcome codes (R198). -/
def settleOutcomeCode : SettleOutcome → Nat
  | .none => 0 | .applied => 1 | .rejected => 2

/-- Reason codes (R198). -/
def reasonCode : Reason → Nat
  | .none => 0 | .badLeaf => 1 | .badIndex => 2 | .badField => 3 | .dangling => 4 | .duplicate => 5 | .oversize => 6
  | .disturbed => 7 | .fetchFailed => 8

/-- Last-fault kind codes (R198). -/
def faultKindCode : FaultKind → Nat
  | .none => 0 | .fetchFailed => 1 | .reportWrite => 2 | .lineCrc => 3 | .transferFail => 4 | .claimWait => 5
  | .unlistedExit => 6 | .lostPresses => 7 | .rejected => 8 | .noBase => 9

/-- The bit of a cause in CAUSE and in the enables (R175). -/
def causeBit : Cause → BitVec 7
  | .settled => 1 | .attention => 2 | .muster => 4 | .reserve => 8 | .fault => 16 | .halted => 32 | .haltRefused => 64

/-! ## Held table records (R1 to R15, R47, R51, R109, R114, R115) -/

/-- A Node record in use (R3). -/
structure NodeRec where
  deck : Nat
  deriving DecidableEq, Repr

/-- An Edge record in use (R4); `group` is the fire-door group, 0 for none. -/
structure EdgeRec where
  kind : EdgeKind
  rise : Rise
  passage : Passage
  nodeA : Nat
  nodeB : Nat
  length : Nat
  group : Nat
  deriving DecidableEq, Repr

/-- A Station record in use (R10 to R13). A field that does not apply to the kind is held zero or empty; `exits` holds
exit_count pairs of an edge and an exit code. -/
structure StationRec where
  kind : StationKind
  node : Nat
  label : Text
  essential : Bool
  assigned : Nat
  rotation : Nat
  tag : Word16
  selMask : Word16
  selValue : Word16
  landmarks : List Nat
  served : List Nat
  exits : List (Nat × Arrow)
  deriving DecidableEq, Repr

/-- A Muster Station record in use (R7). -/
structure MusterRec where
  isOpen : Bool
  node : Nat
  alternate : Option Nat
  label : Text
  deriving DecidableEq, Repr

/-- A Landmark record in use (R6). -/
structure LandmarkRec where
  node : Nat
  label : Text
  deriving DecidableEq, Repr

/-- The weights of one regime (R15, R18). -/
structure Weights where
  corridor : Nat
  stairUp : Nat
  stairDown : Nat
  lift : Nat
  exterior : Nat
  liftFixed : Nat
  deriving DecidableEq, Repr

/-- The Settings record (R15). -/
structure Settings where
  normal : Weights
  muster : Weights
  walkRate : Nat
  initialOffset : Int
  lead : Nat
  linger : Nat
  alarmSense : AlarmSense
  missLimit : Nat
  refreshInterval : Nat
  fullRefreshPeriod : Nat
  deriving DecidableEq, Repr

/-- A Programme record in use (R51). -/
structure ProgRec where
  start : Nat
  duration : Nat
  venue : Option Nat
  venueLabel : Text
  title : Text
  category : Category
  audience : Word16
  cancelled : Bool
  deriving DecidableEq, Repr

/-- One step of a rotation (R109); dwells are in seconds. -/
inductive RotStep where
  | empty
  | programme (dwell : Nat)
  | landmarks (dwell : Nat)
  | notice (index dwell : Nat)
  | loop (target count : Nat)
  deriving DecidableEq, Repr

/-- A Rotation record in use: eight steps (R109). -/
structure RotationRec where
  steps : List RotStep
  deriving DecidableEq, Repr

/-- A Notice record in use (R114): four lines of 40 characters. -/
structure NoticeRec where
  lines : List Text
  dest : Option Nat
  deriving DecidableEq, Repr

/-- An Interjection record in use (R115). -/
structure InterjRec where
  notice : Nat
  tagMask : Word16
  tagValue : Word16
  start : Nat
  stop : Nat
  period : Nat
  dwell : Nat
  hold : Bool
  deriving DecidableEq, Repr

/-- A Clock Change record in use (R47). -/
structure ClockRec where
  atMinute : Nat
  newOffset : Int
  deriving DecidableEq, Repr

/-! ## Claims, slots and vectors (R21, R26, R29) -/

/-- A destination and its regime. -/
structure Pair where
  node : Nat
  regime : Regime
  deriving DecidableEq, Repr

/-- The claimant classes, each with an index (R29). -/
inductive Claimant where
  | landmark (i : Nat)
  | programme (i : Nat)
  | interjection (i : Nat)
  | muster (i : Nat)
  deriving DecidableEq, Repr

/-- A claim: its claimant and its target (R29). -/
structure Claim where
  who : Claimant
  pair : Pair
  deriving DecidableEq, Repr

/-- What a vector holds for one node (R22, R23). -/
structure Hop where
  dist : Nat
  next : Option Nat
  deriving DecidableEq, Repr

/-- A vector: the nodes that can reach the target. A node that is not listed is UNREACHABLE with next hop NONE (R22,
R23). -/
structure RouteVec where
  hops : List (Nat × Hop)
  deriving DecidableEq, Repr

/-- A target slot (R26): `users` is the number of holders, `has_vector` is the vector's presence; `vectorEpoch` is 0
while no vector is held (log 39). -/
structure Slot where
  state : SlotState
  pair : Pair
  holders : List Claimant
  vector : Option RouteVec
  vectorEpoch : Word32
  deriving DecidableEq, Repr

/-! ## Pages (R90, R91, R197) -/

/-- A line of a waypoint programme page as carried (R101, R197); `route` is the arrow and minutes of the route part. -/
structure WayLine where
  title : Text
  venueLabel : Text
  deck : Option Nat
  startTime : Nat
  mark : Nat
  countdown : Option Nat
  cancelled : Bool
  icon : Nat
  route : Option (Arrow × Option Nat)
  deriving DecidableEq, Repr

/-- A line of a landmarks page (R102). -/
structure LandLine where
  label : Text
  deck : Nat
  arrow : Arrow
  minutes : Option Nat
  deriving DecidableEq, Repr

/-- A line of a lobby programme page as carried: 11 bytes of title and 6 of venue label (R103, R107, R197). -/
structure LobbyLine where
  title : Text
  venueLabel : Text
  deck : Option Nat
  startTime : Nat
  mark : Nat
  countdown : Option Nat
  cancelled : Bool
  icon : Nat
  deriving DecidableEq, Repr

/-- A muster station as a page shows it (R100, R105). -/
structure MusterLine where
  index : Nat
  label : Text
  deck : Nat
  arrow : Arrow
  minutes : Option Nat
  deriving DecidableEq, Repr

/-- The bodies of the eight page kinds, field by field as carried (R99 to R106). A DOOR_MUSTER without a station and a
SCREEN_MUSTER without lines are the crew-instruction form. -/
inductive Body where
  | blank
  | doorStandard (label : Text) (station : Nat) (stationLabel : Text)
  | doorMuster (label : Text) (station : Option (Nat × Text × Arrow × Option Nat)) (drill redirected : Bool)
  | wayProgramme (lines : List WayLine)
  | wayLandmarks (lines : List LandLine)
  | lobbyProgramme (shipTime day : Nat) (lines : List LobbyLine)
  | notice (lines : List Text) (dest : Option (Arrow × Option Nat))
  | screenMuster (lines : List MusterLine) (drill : Bool)
  deriving DecidableEq, Repr

/-- A page: its body, which fixes its kind, and the muster serial of its header (R90). -/
structure Page where
  body : Body
  musterSerial : Word16
  deriving DecidableEq, Repr

/-- What a page shows, besides the station's own record (R93). -/
inductive Source where
  | musterStation (i : Nat)
  | landmark (i : Nat)
  | node (i : Nat)
  | notice (i : Nat)
  | list
  | time
  deriving DecidableEq, Repr

/-- A composition record (R90). -/
structure PageRec where
  page : Option Page
  serial : Word16
  draws : List Pair
  sources : List Source
  deriving DecidableEq, Repr

/-- A line of a screen list (R61). -/
structure ListLine where
  entry : Nat
  title : Text
  venueLabel : Text
  deck : Option Nat
  startTime : Nat
  mark : EntryState
  countdown : Option Nat
  cancelled : Bool
  icon : Category
  route : Option Nat
  deriving DecidableEq, Repr

/-! ## Rotation states (R110) -/

/-- The rotation position of a screen (R110). -/
inductive Position where
  | default
  | step (s : Nat)
  | interj (i : Nat)
  deriving DecidableEq, Repr

/-- The rotation state of a WAYPOINT or LOBBY station (R110). Times are reference periods left. -/
structure RotState where
  rotation : Nat
  position : Position
  countdown : Option Nat
  loops : List Nat
  resume : Option (Nat × Nat)
  due : List Bool
  lastShown : List (Option Nat)
  deriving DecidableEq, Repr

/-! ## Muster Controller (R65, R83) -/

/-- What a qualifier knows of its pin (R65, R86): the level of the last period, and for how many periods the pin has held
it since a reset, up to the 20 ms it waits for (log 8). -/
structure PinHold where
  level : Bool
  held : Nat
  deriving DecidableEq, Repr

/-- An entry of the effective-station map (R83): a cabin's effective station with its REDIRECTED mark, or a screen's
shown list, empty for the crew-instruction form. -/
inductive MapEntry where
  | cabin (station : Option Nat) (redirected : Bool)
  | screen (shown : List Nat)
  deriving DecidableEq, Repr

/-! ## Line Controllers (R132, R145, section 7.4) -/

/-- The waiting record (R132). -/
structure Waiting where
  serial : Word16
  kind : PageKind
  musterSerial : Word16
  deriving DecidableEq, Repr

/-- The door-service fields of a cabin (R145); `refresh` is none once expired. -/
structure DoorRec where
  refresh : Option Nat
  afterMuster : Bool
  fullCount : Nat
  lastService : Byte
  lastAssist : Byte
  serviceTally : Byte
  assistTally : Byte
  serviceAck : Byte
  assistAck : Byte
  synced : Bool
  attention : Bool
  deriving DecidableEq, Repr

/-- The line record of a station number (section 7.4); the line status follows from it (R137). -/
structure LineRec where
  heard : Bool
  misses : Nat
  baseline : Bool
  confSerial : Word16
  confKind : Option PageKind
  confMuster : Word16
  waiting : Option Waiting
  errors : Nat
  lastHeard : Option Word32
  busy : Bool
  dnd : Bool
  fault : Bool
  shed : Bool
  door : Option DoorRec
  deriving DecidableEq, Repr

/-- The page a transfer fixed at its head (R130). -/
structure SentPage where
  serial : Word16
  page : Page
  full : Bool
  deriving DecidableEq, Repr

/-- A transaction in flight (R128): the station, and for a transfer the page with the block waiting for its answer, 0
for the head. `left` counts down the gap before the frame, the frame itself and the reply window; once it is 0 `coming`
is the time that an answer begun in the window may still take, and none when no start byte came (R126, log 38). -/
structure Txn where
  station : Nat
  transfer : Option (SentPage × Nat)
  left : Nat
  coming : Option Nat := none
  deriving DecidableEq, Repr

/-- A Line Controller (R139, R140, R143). `idle` is what is left of the 30 µs idle time before a frame may begin. -/
structure LineCtl where
  service : Service
  musterPos : Nat
  cyclePos : Nat
  cycleCount : Nat
  txn : Option Txn
  idle : Nat
  silence : Option Nat
  deriving DecidableEq, Repr

/-! ## Exchange Unit (R159 to R187) -/

/-- The settle record (R159). -/
structure SettleRec where
  outcome : SettleOutcome
  reason : Reason
  entry : Option Nat
  record : Option Nat
  deriving DecidableEq, Repr

/-- The eight fault counters (R185). -/
structure Counters where
  fetchFailed : Nat
  reportWrite : Nat
  lineCrc : Nat
  transferFail : Nat
  claimWait : Nat
  unlistedExit : Nat
  lostPresses : Nat
  rejected : Nat
  deriving DecidableEq, Repr

/-- The last-fault record (R185). -/
structure LastFault where
  kind : FaultKind
  subject : Option Nat
  second : Word32
  deriving DecidableEq, Repr

/-- The report block without its serials (R184). -/
structure ReportFields where
  applied : Word32
  settled : Word32
  settle : SettleRec
  musterState : MusterState
  musterKind : MusterKind
  musterSerial : Word16
  tally : Nat
  outcome : OrderOutcome
  reserve : Bool
  halted : Bool
  configured : Nat
  online : Nat
  doubtful : Nat
  lost : Nat
  attention : Nat
  slotsInUse : Nat
  waitingLength : Nat
  offset : Int
  epoch : Word32
  second : Word32
  counters : Counters
  lastFault : LastFault
  deriving DecidableEq, Repr

/-- Why a report block is written (R183). -/
inductive WriteReason where | immediate | halt | survey
  deriving DecidableEq, Repr

/-- A report write in progress: the base it goes to, its content, its serial, the causes it records, and the time left of
its 50 ms (R180, R183). -/
structure ReportWrite where
  base : Word64
  fields : ReportFields
  serial : Word32
  reason : WriteReason
  covers : BitVec 7
  left : Nat
  deriving DecidableEq, Repr

/-- A station status record (R186, R195). -/
structure StatusRec where
  status : LineStatus
  misses : Nat
  desired : Word16
  confirmed : Word16
  confKind : Option PageKind
  dnd : Bool
  fault : Bool
  busy : Bool
  pendingService : Nat
  pendingAssist : Nat
  serviceTally : Nat
  assistTally : Nat
  errors : Nat
  lastHeard : Nat
  deriving DecidableEq, Repr

/-- What the Exchange Unit holds of one status record (R186). -/
structure StatusHold where
  written : Option StatusRec
  mark : Bool
  deriving DecidableEq, Repr

/-- The step of the survey in progress and what it waits for (R181). `inSpan` was judged when the read was issued
(R182); `left` is what is left of the 50 ms. -/
inductive Survey where
  | publish (inSpan : Bool) (left : Nat)
  | live (inSpan : Bool) (left : Nat)
  | acks (inSpan : Bool) (left : Nat)
  | status (station : Nat) (content : StatusRec) (left : Nat)
  | report
  deriving DecidableEq, Repr

/-- A notice entry (R161). A bad entry, of an unknown kind or with a reserved byte that is not 0, keeps its leaf if its
kind has one (R171). -/
inductive Entry where
  | put (leaf sub first count : Nat) (single : Bool)
  | clear (leaf sub first count : Nat) (single : Bool)
  | setClock (second : Word32)
  | bad (leaf : Option Nat)
  deriving DecidableEq, Repr

/-- A directory entry as read (R193). -/
structure DirEntry where
  offset : Nat
  size : Nat
  count : Nat
  deriving DecidableEq, Repr

/-- A record in the stage: its place, the notice entry that staged it, and its bytes, none for a CLEAR (R162). -/
structure Staged where
  leaf : Nat
  sub : Nat
  index : Nat
  entry : Nat
  bytes : Option (List Byte)
  deriving DecidableEq, Repr

/-- What a staging waits for (R160 to R167). `validating` is the stage state VALIDATING, the others FETCHING. -/
inductive StagePhase where
  | header
  | directory
  | entries
  | record (entry leaf sub index last : Nat)
  | reread
  | validating
  deriving DecidableEq, Repr

/-- The edition in hand (R160). -/
structure Staging where
  number : Word32
  noticeOffset : Nat
  base : Word64
  span : Nat
  phase : StagePhase
  count : Nat
  highest : Nat
  directory : List DirEntry
  rest : List (Nat × Entry)
  staged : List Staged
  clock : Option Word32
  left : Nat
  deriving DecidableEq, Repr

/-- A failure that ends a staging or a validation: its reason and what it is charged to (R161 to R168). -/
structure Failure where
  reason : Reason
  entry : Option Nat
  record : Option Nat
  leaf : Option Nat
  deriving DecidableEq, Repr

end Sys2Proof.Machine
end

