-- ==== Sys2Proof/Machine/Records.lean ====
section
/-! DEFINITION. Reading a staged record into its held form, clamped (R2, R191, R194), and the checks of one record
alone: codes, ranges and reserved bytes (BAD_FIELD), and repetitions inside the record (DUPLICATE). A code that is bad
reads as the field's code 0; the check on the bytes fails the edition, so such a record is never held. -/

namespace Sys2Proof.Machine

/-! ## Sizes and capacities (R163, R194) -/

/-- The record size of a leaf (R194); 0 for a leaf that does not exist. -/
def recordSize : Nat → Nat
  | 1 => 4 | 2 => 16 | 3 => 64 | 4 => 24 | 5 => 20 | 6 => 64 | 7 => 68 | 8 => 164 | 9 => 20 | 10 => 8 | 11 => 32 | _ => 0

/-- The capacity of the table of a leaf and subleaf (R163). -/
def leafCapacity : Nat → Nat
  | 1 => 1024 | 2 => 4096 | 3 => 62 | 4 => 16 | 5 => 24 | 6 => 256 | 7 => 32 | 8 => 32 | 9 => 16 | 10 => 16 | 11 => 1
  | _ => 0

/-- The station number of a subleaf and index of leaf 3 (R9). -/
def stationNumber (line index : Nat) : Nat := line * Config.stationsPerLine + index

/-- The line of a station number (R9). -/
def lineOf (station : Nat) : Nat := station / Config.stationsPerLine

/-- The address of a station number on its line, from 1 (R9). -/
def addressOf (station : Nat) : Nat := station % Config.stationsPerLine + 1

/-! ## Shared checks -/

/-- Is a code byte 0 or 1 (R198)? -/
def isFlag (n : Nat) : Bool := decide (n ≤ 1)

/-- A reference field of two bytes whose NONE is 0xFFFF (R191). -/
def optNode (n : Nat) : Option Nat := if n = 0xFFFF then none else some n

/-- A node reference in range (R3). -/
def nodeOk (n : Nat) : Bool := decide (n < 1024)

/-- Does a list name something twice? -/
def hasRepeat (l : List Nat) : Bool := !decide l.Nodup

/-! ## Node (R3) -/

/-- The held Node record. -/
def parseNode (bs : List Byte) : NodeRec := { deck := u8 bs 1 }

/-- The checks of a Node record (R3, R191). -/
def badNode (bs : List Byte) : Bool := !(decide (1 ≤ u8 bs 1) && decide (u8 bs 1 ≤ 20) && zeroBytes bs 2 2)

/-! ## Edge (R4) -/

/-- The held Edge record; length_dm clamps to 1 to 4000 (R4). -/
def parseEdge (bs : List Byte) : EdgeRec :=
  { kind := (edgeKindOf (u8 bs 1)).getD .corridor
    rise := (riseOf (u8 bs 2)).getD .level
    passage := (passageOf (u8 bs 3)).getD .both
    nodeA := u16 bs 4, nodeB := u16 bs 6
    length := clampNat 1 4000 (u16 bs 8)
    group := u8 bs 10 }

/-- The rise an edge kind calls for (R4). -/
def riseFits (kind : EdgeKind) (rise : Rise) : Bool :=
  match kind, rise with
  | .stair, .aUp => true
  | .stair, .aDown => true
  | .stair, .level => false
  | _, .level => true
  | _, _ => false

/-- The checks of an Edge record (R4, R191). -/
def badEdge (bs : List Byte) : Bool :=
  let e := parseEdge bs
  !(nodeOk e.nodeA && nodeOk e.nodeB && decide (e.nodeA ≠ e.nodeB) && (edgeKindOf (u8 bs 1)).isSome
    && (riseOf (u8 bs 2)).isSome && riseFits e.kind e.rise && (passageOf (u8 bs 3)).isSome
    && decide (e.group ≤ 63) && zeroBytes bs 11 5)

/-! ## Station (R10 to R13) -/

/-- The exits of a Station record, exit_count of them, clamped to 8 (R10, R11). -/
def parseExits (bs : List Byte) : List (Nat × Arrow) :=
  (List.range (clampNat 0 8 (u8 bs 12))).map fun i =>
    (u16 bs (32 + 4 * i), (exitCodeOf (u8 bs (34 + 4 * i))).getD .ahead)

/-- The held Station record; a field that does not apply to the kind is held zero (R10, R12, R13). To kind NONE, and to an
unknown code, no field of one kind applies: the record is read with all of them zero, and its kind is a BAD_FIELD. -/
def parseStation (bs : List Byte) : StationRec :=
  let common : StationRec :=
    { kind := (stationKindOf (u8 bs 1)).getD .lobby, node := u16 bs 2, label := textAt bs 4 8
      essential := decide (u8 bs 13 = 1), assigned := 0, rotation := 0, tag := 0, selMask := 0, selValue := 0
      landmarks := [], served := [], exits := parseExits bs }
  match stationKindOf (u8 bs 1) with
  | none => common
  | some .cabin => { common with assigned := u8 bs 14 }
  | some .waypoint =>
    { common with
      rotation := u8 bs 15, tag := BitVec.ofNat 16 (u16 bs 16), selMask := BitVec.ofNat 16 (u16 bs 18)
      selValue := BitVec.ofNat 16 (u16 bs 20)
      landmarks := (List.range (clampNat 0 4 (u8 bs 22))).map fun i => u8 bs (24 + i)
      served := (List.range (clampNat 0 2 (u8 bs 23))).map fun i => u8 bs (28 + i) }
  | some .lobby =>
    { common with
      rotation := u8 bs 15, tag := BitVec.ofNat 16 (u16 bs 16), selMask := BitVec.ofNat 16 (u16 bs 18)
      selValue := BitVec.ofNat 16 (u16 bs 20)
      served := (List.range (clampNat 0 2 (u8 bs 23))).map fun i => u8 bs (28 + i) }

/-- The checks of a Station record alone (R10 to R13, R191); exits at or beyond exit_count are not checked. -/
def badStation (bs : List Byte) : Bool :=
  let s := parseStation bs
  !((stationKindOf (u8 bs 1)).isSome && nodeOk s.node && isFlag (u8 bs 13) && zeroBytes bs 30 2
    && s.exits.all (fun e => decide (e.1 < 4096))
    && ((List.range (clampNat 0 8 (u8 bs 12))).all fun i =>
          (exitCodeOf (u8 bs (34 + 4 * i))).isSome && byteAt bs (35 + 4 * i) == 0)
    && decide (s.assigned < 16) && decide (s.rotation < 32)
    && s.landmarks.all (fun l => decide (l < 24)) && s.served.all fun m => decide (m < 16))

/-- Repetitions inside a Station record (R11, R13). -/
def dupStation (s : StationRec) : Bool :=
  hasRepeat (s.exits.map Prod.fst) || hasRepeat s.landmarks || hasRepeat s.served

/-! ## Muster Station (R7) -/

/-- The held Muster Station record. -/
def parseMuster (bs : List Byte) : MusterRec :=
  { isOpen := decide (u8 bs 1 = 0), node := u16 bs 2
    alternate := if u8 bs 4 = 0xFF then none else some (u8 bs 4), label := textAt bs 8 16 }

/-- The checks of a Muster Station record alone (R7, R191). -/
def badMuster (index : Nat) (bs : List Byte) : Bool :=
  !(isFlag (u8 bs 1) && nodeOk (u16 bs 2) && zeroBytes bs 5 3
    && (u8 bs 4 == 0xFF || (decide (u8 bs 4 < 16) && decide (u8 bs 4 ≠ index))))

/-! ## Landmark (R6) -/

/-- The held Landmark record. -/
def parseLandmark (bs : List Byte) : LandmarkRec := { node := u16 bs 2, label := textAt bs 4 16 }

/-- The checks of a Landmark record alone (R6, R191). -/
def badLandmark (bs : List Byte) : Bool := !(nodeOk (u16 bs 2) && zeroBytes bs 1 1)

/-! ## Settings (R15) -/

/-- The defaults of the Settings record (R15). -/
def defaultSettings : Settings :=
  { normal := { corridor := 4, stairUp := 10, stairDown := 7, lift := 4, exterior := 5, liftFixed := 600 }
    muster := { corridor := 4, stairUp := 8, stairDown := 6, lift := 0, exterior := 4, liftFixed := 0 }
    walkRate := 720, initialOffset := 0, lead := 30, linger := 5, alarmSense := .level, missLimit := 4
    refreshInterval := 30, fullRefreshPeriod := 8 }

/-- The weights of a regime from five bytes and the lift fixed cost, clamped (R15). -/
def parseWeights (bs : List Byte) (off fixedOff : Nat) : Weights :=
  { corridor := clampNat 0 15 (u8 bs off), stairUp := clampNat 0 15 (u8 bs (off + 1))
    stairDown := clampNat 0 15 (u8 bs (off + 2)), lift := clampNat 0 15 (u8 bs (off + 3))
    exterior := clampNat 0 15 (u8 bs (off + 4)), liftFixed := clampNat 0 2000 (u16 bs fixedOff) }

/-- The held Settings record of a PUT: every field clamped, and the defaults when every byte is zero (R15). -/
def parseSettings (bs : List Byte) : Settings :=
  if zeroBytes bs 0 32 then defaultSettings
  else
    { normal := parseWeights bs 0 12, muster := parseWeights bs 5 14
      walkRate := clampNat 300 1500 (u16 bs 16), initialOffset := clampInt (-720) 840 (i16 bs 18)
      lead := clampNat 5 180 (u8 bs 20), linger := clampNat 0 30 (u8 bs 21)
      alarmSense := (alarmSenseOf (u8 bs 22)).getD .level, missLimit := clampNat 2 15 (u8 bs 23)
      refreshInterval := clampNat 5 600 (u16 bs 24), fullRefreshPeriod := clampNat 2 32 (u8 bs 26) }

/-- The checks of a Settings record (R15, R191). -/
def badSettings (bs : List Byte) : Bool :=
  !(zeroBytes bs 10 2 && zeroBytes bs 27 5 && (alarmSenseOf (u8 bs 22)).isSome)

/-! ## Programme (R51) -/

/-- The held Programme record. -/
def parseProgramme (bs : List Byte) : ProgRec :=
  { start := clampNat 0 Config.lastMinute (u32 bs 4), duration := clampNat 1 1440 (u16 bs 8), venue := optNode (u16 bs 10)
    venueLabel := textAt bs 16 16, title := textAt bs 32 32, category := (categoryOf (u8 bs 1)).getD .show_
    audience := BitVec.ofNat 16 (u16 bs 12), cancelled := decide (u8 bs 2 = 1) }

/-- The checks of a Programme record alone (R51, R191). -/
def badProgramme (bs : List Byte) : Bool :=
  !((categoryOf (u8 bs 1)).isSome && isFlag (u8 bs 2) && zeroBytes bs 3 1 && zeroBytes bs 14 2
    && (optNode (u16 bs 10)).all nodeOk)

/-! ## Rotation (R109) -/

/-- One step of a rotation; fields that do not apply are not held (R109). -/
def parseStep (bs : List Byte) (s : Nat) : RotStep :=
  let off := 4 + 8 * s
  let dwell := clampNat 2 120 (u8 bs (off + 2))
  match u8 bs off with
  | 1 => .programme dwell
  | 2 => .landmarks dwell
  | 3 => .notice (u8 bs (off + 1)) dwell
  | 4 => .loop (u8 bs (off + 3)) (clampNat 1 15 (u8 bs (off + 4)))
  | _ => .empty

/-- The held Rotation record. -/
def parseRotation (bs : List Byte) : RotationRec := { steps := (List.range 8).map (parseStep bs) }

/-- A dwell step and its dwell in seconds (R109). -/
def stepDwell : RotStep → Option Nat
  | .programme d => some d
  | .landmarks d => some d
  | .notice _ d => some d
  | _ => none

/-- The check of one step (R109, R191). -/
def badStep (bs : List Byte) (s : Nat) : Bool :=
  !(decide (u8 bs (4 + 8 * s) ≤ 4) && zeroBytes bs (4 + 8 * s + 5) 3
    && match parseStep bs s with
      | .notice n _ => decide (n < 32)
      | .loop t _ => decide (t < s)
      | _ => true)

/-- The checks of a Rotation record alone: record 0 is held empty, and an in-use rotation has a dwell step (R109). -/
def badRotation (index : Nat) (bs : List Byte) : Bool :=
  !(decide (index ≠ 0) && zeroBytes bs 1 3 && ((List.range 8).all fun s => !badStep bs s)
    && (parseRotation bs).steps.any fun st => (stepDwell st).isSome)

/-! ## Notice (R114) -/

/-- The held Notice record. -/
def parseNotice (bs : List Byte) : NoticeRec :=
  { lines := (List.range 4).map fun i => textAt bs (4 + 40 * i) 40, dest := optNode (u16 bs 2) }

/-- The checks of a Notice record alone (R114, R191). -/
def badNotice (bs : List Byte) : Bool := !(zeroBytes bs 1 1 && (optNode (u16 bs 2)).all nodeOk)

/-! ## Interjection (R115) -/

/-- The held Interjection record. -/
def parseInterj (bs : List Byte) : InterjRec :=
  { notice := u8 bs 1, tagMask := BitVec.ofNat 16 (u16 bs 4), tagValue := BitVec.ofNat 16 (u16 bs 6)
    start := clampNat 0 Config.lastMinute (u32 bs 8), stop := clampNat 0 Config.lastMinute (u32 bs 12)
    period := clampNat 0 240 (u16 bs 16), dwell := clampNat 2 120 (u8 bs 18), hold := decide (u8 bs 2 = 1) }

/-- The checks of an Interjection record alone; start below end is judged after clamping (R115, R167). -/
def badInterj (bs : List Byte) : Bool :=
  let i := parseInterj bs
  !(decide (i.notice < 32) && isFlag (u8 bs 2) && zeroBytes bs 3 1 && zeroBytes bs 19 1 && decide (i.start < i.stop))

/-! ## Clock Change (R47) -/

/-- The held Clock Change record. -/
def parseClock (bs : List Byte) : ClockRec :=
  { atMinute := clampNat 0 Config.lastMinute (u32 bs 4), newOffset := clampInt (-720) 840 (i16 bs 2) }

/-- The checks of a Clock Change record alone (R191). -/
def badClock (bs : List Byte) : Bool := !(zeroBytes bs 1 1)

end Sys2Proof.Machine
end

