-- ==== Sys2Proof/Machine/Blocks.lean ====
section
/-! DEFINITION. The state each block owns (00_scope.md, Blocks and how they work together) and the values it takes at a
reset. Counts that a rule defines from other state (users, line status, pending counts, the tally, the attention
count) are computed where they are read and are not stored (log 13). -/

namespace Sys2Proof.Machine

/-- The voyage clock (R44) with the prescaler of the running second, and the model's flag for a minute event that has
come about and is not yet taken (log 6). -/
structure ClockState where
  second : Word32
  prescale : Nat
  minuteDue : Bool
  deriving DecidableEq, Repr

/-- The Ship Model Store (R1, R16, R17). -/
structure SmsState where
  nodes : Tbl NodeRec
  edges : Tbl EdgeRec
  stations : Tbl StationRec
  musters : Tbl MusterRec
  landmarks : Tbl LandmarkRec
  settings : Settings
  epoch : Word32
  closure : Word64
  exterior : Bool
  deriving DecidableEq, Repr

/-- The Route Solver (R26, R32); the slot whose state is SOLVING is the one the solver works on (R36). -/
structure RsvState where
  slots : List Slot
  waiting : List Claim
  deriving DecidableEq, Repr

/-- The Programme Unit (R47 to R62). -/
structure PguState where
  clockChanges : Tbl ClockRec
  programme : Tbl ProgRec
  view : List Nat
  offset : Int
  retained : Bool
  states : Tbl EntryState
  lists : Tbl (List ListLine)
  lastTime : Option (Nat × Nat)
  deriving DecidableEq, Repr

/-- The Muster Controller (R89). -/
structure MscState where
  state : MusterState
  kind : MusterKind
  serial : Word16
  outcome : OrderOutcome
  calledTimer : Option Nat
  holdTimer : Option Nat
  alarmPin : PinHold
  alarm : Option Bool
  reservePin : PinHold
  reserveLevel : Option Bool
  reserve : Bool
  map : Option (Tbl MapEntry)
  deriving DecidableEq, Repr

/-- The Page Composer (R90, R109 to R116). -/
structure PcoState where
  rotations : Tbl RotationRec
  notices : Tbl NoticeRec
  interjections : Tbl InterjRec
  pages : Tbl PageRec
  rots : Tbl RotState
  active : List Nat
  deriving DecidableEq, Repr

/-- The eight Line Controllers and their line records by station number (R144, section 7.4). -/
structure LcsState where
  lines : List LineCtl
  recs : Tbl LineRec
  deriving DecidableEq, Repr

/-- The Exchange Unit (R190). -/
structure XuState where
  runState : RunState
  enables : BitVec 7
  causes : BitVec 7
  base : Word64
  span : Nat
  pendingHi : Word32
  interval : Nat
  countdown : Option Nat
  surveyPending : Bool
  survey : Option Survey
  surveyBase : Word64
  stage : Option Staging
  applied : Word32
  settled : Word32
  settle : SettleRec
  reportSerial : Word32
  reportLast : Option ReportFields
  reportMark : Bool
  reportWrite : Option ReportWrite
  reportDue : List WriteReason
  waiting : BitVec 7
  status : Tbl StatusHold
  counters : Counters
  lastFault : LastFault
  msiDelivery : Bool
  msiSent : Nat
  deriving DecidableEq, Repr

/-! ## Reset values -/

/-- An EMPTY slot (R26). -/
def emptySlot : Slot :=
  { state := .empty, pair := { node := 0, regime := .normal }, holders := [], vector := none, vectorEpoch := 0 }

/-- A composition record before its first page (R108). -/
def emptyPageRec : PageRec := { page := none, serial := 0, draws := [], sources := [] }

/-- A line record after a reset (R144). -/
def emptyLineRec : LineRec :=
  { heard := false, misses := 0, baseline := false, confSerial := 0, confKind := none, confMuster := 0, waiting := none
    errors := 0, lastHeard := none, busy := false, dnd := false, fault := false, shed := false, door := none }

/-- The door-service fields a commit gives a cabin (R145). -/
def freshDoor : DoorRec :=
  { refresh := none, afterMuster := false, fullCount := 0, lastService := 0, lastAssist := 0, serviceTally := 0
    assistTally := 0, serviceAck := 0, assistAck := 0, synced := false, attention := false }

/-- The idle time a frame waits for: 30 µs (R124). -/
def idlePeriods : Nat := 30 * Config.periodsPerUs

/-- A Line Controller after a reset (R144). -/
def resetLine : LineCtl :=
  { service := .silent, musterPos := 0, cyclePos := 0, cycleCount := 0, txn := none, idle := idlePeriods, silence := none }

/-- What the Exchange Unit holds of a status record after a reset: nothing written, marked (R186, R190). -/
def resetHold : StatusHold := { written := none, mark := true }

/-- The voyage clock after a power-on reset (R44). -/
def resetClock : ClockState := { second := 0, prescale := 0, minuteDue := false }

/-- The Ship Model Store after either reset (R1, R15, R16, R17). -/
def resetSms : SmsState :=
  { nodes := [], edges := [], stations := [], musters := [], landmarks := [], settings := defaultSettings, epoch := 0
    closure := 0, exterior := false }

/-- The Route Solver after either reset (R43). -/
def resetRsv : RsvState := { slots := List.replicate Config.slotCount emptySlot, waiting := [] }

/-- The Programme Unit after a power-on reset (R64). -/
def resetPgu : PguState :=
  { clockChanges := [], programme := [], view := [], offset := 0, retained := false, states := [], lists := []
    lastTime := none }

/-- A pin of which the part has seen nothing since the reset (R65); the level is the model's (log 8). -/
def freshPin : PinHold := { level := false, held := 0 }

/-- The Muster Controller after either reset (R89). -/
def resetMsc : MscState :=
  { state := .standby, kind := .none, serial := 0, outcome := .none, calledTimer := none, holdTimer := none
    alarmPin := freshPin, alarm := none, reservePin := freshPin, reserveLevel := none, reserve := false, map := none }

/-- The Page Composer after either reset (R108, R109, R110, R114, R115). -/
def resetPco : PcoState := { rotations := [], notices := [], interjections := [], pages := [], rots := [], active := [] }

/-- The Line Controllers after either reset (R144, R157). -/
def resetLcs : LcsState := { lines := List.replicate Config.lineCount resetLine, recs := [] }

/-- The fault counters after either reset (R185). -/
def zeroCounters : Counters :=
  { fetchFailed := 0, reportWrite := 0, lineCrc := 0, transferFail := 0, claimWait := 0, unlistedExit := 0
    lostPresses := 0, rejected := 0 }

/-- The Exchange Unit after either reset (R190). The two MSI fields are the model's view of the outside (log 7). -/
def resetXu : XuState :=
  { runState := .halted, enables := 0, causes := 0, base := 0, span := 0, pendingHi := 0, interval := 50
    countdown := none, surveyPending := false, survey := none, surveyBase := 0, stage := none, applied := 0
    settled := 0
    settle := { outcome := .none, reason := .none, entry := none, record := none }
    reportSerial := 0, reportLast := none, reportMark := false, reportWrite := none, reportDue := [], waiting := 0
    status := [], counters := zeroCounters, lastFault := { kind := .none, subject := none, second := 0 }
    msiDelivery := true, msiSent := 0 }

end Sys2Proof.Machine
end

