-- ==== Sys2Proof/Machine/State.lean ====
section
/-! DEFINITION. The machine's state: the seven blocks of the part, the voyage clock, whether a reset holds it, and the
queue of commands that wait. -/

namespace Sys2Proof.Machine

/-- The state of the part. Two fields are the model's own: `pending`, the commands that wait, first in, first out (log 3),
and `periods`, the reference periods stepped, which numbers the free values of Config (log 40). -/
structure State where
  phase : ResetPhase
  resetLeft : Nat
  clk : ClockState
  sms : SmsState
  rsv : RsvState
  pgu : PguState
  msc : MscState
  pco : PcoState
  lcs : LcsState
  xu : XuState
  periods : Nat
  pending : List Instr
  deriving DecidableEq, Repr

/-- Reasons the machine stops with a fault: none. The part counts and reports every failure the spec describes (R185)
and goes on, so no step raises one. Safe: nothing is cut off. -/
inductive Fault where
  deriving DecidableEq, Repr

/-- Reasons a command is refused. -/
inductive Refusal where
  /-- Raised by an arm of `exec` for a command that has no meaning in the model yet. No arm raises it: every row of the
  table has its meaning. Safe: a refusal only stops the model. -/
  | notModelled (mnemonic : String)
  deriving DecidableEq, Repr

/-- The part right after a power-on reset has ended (R64, R89, R108, R144, R190), its queue empty. -/
def State.reset : State :=
  { phase := .operating, resetLeft := 0, clk := resetClock, sms := resetSms, rsv := resetRsv, pgu := resetPgu
    msc := resetMsc, pco := resetPco, lcs := resetLcs, xu := resetXu, periods := 0, pending := [] }

end Sys2Proof.Machine
end

