-- ==== Sys2Proof/Machine/Flags.lean ====
section
/-! DEFINITION. The causes, the MSI, the fault counters and the last-fault record (R185, R187): every flag the
Exchange Unit keeps, each moved in one place. All of it acts on the Exchange Unit's state alone. -/

namespace Sys2Proof.Machine

/-- Is the base in force valid (R177)? -/
def baseValid (x : XuState) : Bool := decide (1 ≤ x.span) && decide (x.span ≤ 16)

/-- Take new causes and enables; the MSI is sent when the set of causes latched and enabled goes from empty to not
empty (R187). -/
def withCauses (causes enables : BitVec 7) (x : XuState) : XuState :=
  let sends := x.causes &&& x.enables == 0 && causes &&& enables != 0 && x.msiDelivery
  { x with causes, enables, msiSent := if sends then x.msiSent + 1 else x.msiSent }

/-- Latch a set of causes (R187). -/
def latchBits (bits : BitVec 7) (x : XuState) : XuState := withCauses (x.causes ||| bits) x.enables x

/-- Latch one cause at once (R187). -/
def latch (c : Cause) (x : XuState) : XuState := latchBits (causeBit c) x

/-- A cause whose report write is due: it waits for that write, or is latched at once while no base is valid (R187). -/
def causeDue (c : Cause) (x : XuState) : XuState :=
  if baseValid x then { x with waiting := x.waiting ||| causeBit c } else latch c x

/-- One counter raised by `n`, saturating at 65535 (R185). -/
def bumpCounter (kind : FaultKind) (n : Nat) (c : Counters) : Counters :=
  let up (k : Nat) : Nat := satAdd 65535 k n
  match kind with
  | .fetchFailed => { c with fetchFailed := up c.fetchFailed }
  | .reportWrite => { c with reportWrite := up c.reportWrite }
  | .lineCrc => { c with lineCrc := up c.lineCrc }
  | .transferFail => { c with transferFail := up c.transferFail }
  | .claimWait => { c with claimWait := up c.claimWait }
  | .unlistedExit => { c with unlistedExit := up c.unlistedExit }
  | .lostPresses => { c with lostPresses := up c.lostPresses }
  | .rejected => { c with rejected := up c.rejected }
  | .none => c
  | .noBase => c

/-- Is FAULT latched at once for this kind (R185)? -/
def faultAtOnce (kind : FaultKind) : Bool :=
  match kind with
  | .reportWrite => true
  | .noBase => true
  | _ => false

/-- A fault event (R185): its counter rises by `n`, the last-fault record is replaced, and FAULT is latched, at once
for REPORT_WRITE and NO_BASE and otherwise after the next report write that records the new record. -/
def recordFault (kind : FaultKind) (subject : Option Nat) (second : Word32) (n : Nat) (x : XuState) : XuState :=
  let y := { x with counters := bumpCounter kind n x.counters, lastFault := { kind, subject, second } }
  if faultAtOnce kind then latch .fault y else causeDue .fault y

/-- An immediate report write is due, in every run state, provided the base is valid (R183). -/
def reportNow (reason : WriteReason) (x : XuState) : XuState :=
  if baseValid x then { x with reportDue := x.reportDue ++ [reason] } else x

end Sys2Proof.Machine
end

