-- ==== Sys2Proof/Machine/Route.lean ====
section
/-! DEFINITION. Traversals, their bars and costs, and the solve of one target (R5, R18 to R25). Everything here reads
the Ship Model Store alone. -/

namespace Sys2Proof.Machine

/-! ## Traversals (R5, R18, R19, R20) -/

/-- The weights of a regime (R18). -/
def regimeWeights (s : Settings) : Regime → Weights
  | .normal => s.normal
  | .muster => s.muster

/-- The traversal kind of an edge walked from `u` (R5): a STAIR follows its rise and the direction of walking. -/
def traversalKind (e : EdgeRec) (u : Nat) : TraversalKind :=
  match e.kind with
  | .corridor => .corridor
  | .lift => .lift
  | .exterior => .exterior
  | .stair => if decide (e.rise = .aUp) == decide (u = e.nodeA) then .stairUp else .stairDown

/-- The weight of a traversal kind (R18). -/
def kindWeight (w : Weights) : TraversalKind → Nat
  | .corridor => w.corridor
  | .stairUp => w.stairUp
  | .stairDown => w.stairDown
  | .lift => w.lift
  | .exterior => w.exterior

/-- Does the passage field allow walking this edge from `u` to `v`, its two ends (R5, R19)? -/
def passageAllows (e : EdgeRec) (u v : Nat) : Bool :=
  (decide (u = e.nodeA) && decide (v = e.nodeB) && decide (e.passage ≠ .bToA))
    || (decide (u = e.nodeB) && decide (v = e.nodeA) && decide (e.passage ≠ .aToB))

/-- Is the edge's fire-door group closed (R17, R19)? Group 0 is no group. -/
def groupClosed (closure : Word64) (group : Nat) : Bool := decide (group ≠ 0) && closure.getLsbD group

/-- Is the traversal of an in-use edge from `u` to `v` barred in a regime (R19)? -/
def traversalBarred (m : SmsState) (r : Regime) (e : EdgeRec) (u v : Nat) : Bool :=
  !passageAllows e u v
    || decide (kindWeight (regimeWeights m.settings r) (traversalKind e u) = 0)
    || groupClosed m.closure e.group
    || (decide (e.kind = .exterior) && m.exterior && decide (r = .normal))

/-- The cost of a traversal (R20): length times weight over 4 rounded up, and the lift fixed cost for a LIFT. -/
def traversalCost (m : SmsState) (r : Regime) (e : EdgeRec) (u : Nat) : Nat :=
  let w := regimeWeights m.settings r
  (e.length * kindWeight w (traversalKind e u) + 3) / 4 + if e.kind = .lift then w.liftFixed else 0

/-! ## Distances (R21) -/

/-- The saturating addition of a cost to a distance that is not UNREACHABLE (R21). -/
def satDist (cost d : Nat) : Nat := if Config.far ≤ cost + d then Config.far else cost + d

/-- The distance a table of distances gives a node; a node not listed is UNREACHABLE. -/
def distOf (t : Tbl Nat) (u : Nat) : Nat := tblGetD t u Config.unreachable

/-! ## The solve (R22, R23, R24) -/

/-- One traversal tried: `u` takes the saturated sum when it is smaller than what it holds (R24). -/
def relaxOne (m : SmsState) (r : Regime) (e : EdgeRec) (u v : Nat) (t : Tbl Nat) : Tbl Nat :=
  if traversalBarred m r e u v then t
  else
    let dv := distOf t v
    if dv = Config.unreachable then t
    else
      let d := satDist (traversalCost m r e u) dv
      if d < distOf t u then tblPut t u d else t

/-- Both traversals of one edge. -/
def relaxEdge (m : SmsState) (r : Regime) (t : Tbl Nat) (e : Nat × EdgeRec) : Tbl Nat :=
  relaxOne m r e.2 e.2.nodeB e.2.nodeA (relaxOne m r e.2 e.2.nodeA e.2.nodeB t)

/-- One relaxation pass over the Edge table in index order (R24). -/
def relaxPass (m : SmsState) (r : Regime) (t : Tbl Nat) : Tbl Nat := m.edges.foldl (relaxEdge m r) t

/-- Passes until one changes no distance, at most `n` of them (R24). -/
def relaxPasses (m : SmsState) (r : Regime) : Nat → Tbl Nat → Tbl Nat
  | 0, t => t
  | n + 1, t =>
    let t' := relaxPass m r t
    if t' = t then t else relaxPasses m r n t'

/-- The distances toward a target: at most 1,024 passes from the target at 0 (R22, R24). -/
def solveDists (m : SmsState) (p : Pair) : Tbl Nat := relaxPasses m p.regime 1024 [(p.node, 0)]

/-- Is this edge a next hop of `u` to the other end `v` (R23)? -/
def isHop (m : SmsState) (r : Regime) (t : Tbl Nat) (u v : Nat) (e : EdgeRec) : Bool :=
  !traversalBarred m r e u v && decide (distOf t v < distOf t u)
    && decide (satDist (traversalCost m r e u) (distOf t v) = distOf t u)

/-- The next hop of a node: the lowest-index edge that R23 admits, or NONE. -/
def nextHop (m : SmsState) (p : Pair) (t : Tbl Nat) (u : Nat) : Option Nat :=
  if u = p.node then none
  else
    (tblFind? m.edges fun _ e =>
      (decide (e.nodeA = u) && isHop m p.regime t u e.nodeB e)
        || (decide (e.nodeB = u) && isHop m p.regime t u e.nodeA e)).map Prod.fst

/-- A solve: the vector of every node toward the target (R22, R23, R38). -/
def solve (m : SmsState) (p : Pair) : RouteVec :=
  let t := solveDists m p
  { hops := tblMap (fun u d => { dist := d, next := nextHop m p t u }) t }

/-- The distance and next hop of a node in a vector (R22). -/
def hopOf (v : RouteVec) (u : Nat) : Hop := tblGetD v.hops u { dist := Config.unreachable, next := none }

/-! ## Walking minutes (R25) -/

/-- The walking minutes of a distance at a walk rate (R25). -/
def walkingMinutes (rate d : Nat) : Nat :=
  if d = 0 then 0 else if Config.far ≤ d then 99 else min 99 ((d + rate - 1) / rate)

end Sys2Proof.Machine
end

