-- ==== Sys2Proof/Machine/Slots.lean ====
section
/-! DEFINITION. Target slots, claims, the waiting list and the solver's selection (R26 to R38). -/

namespace Sys2Proof.Machine

/-! ## Claims that should exist (R29) -/

/-- Is a landmark listed by an in-use WAYPOINT station (R13)? -/
def landmarkListed (stations : Tbl StationRec) (i : Nat) : Bool :=
  stations.any fun e => decide (e.2.kind = .waypoint) && e.2.landmarks.contains i

/-- The landmark claims, by index (R13, R29). -/
def landmarkClaims (m : SmsState) : List Claim :=
  m.landmarks.filterMap fun e =>
    if landmarkListed m.stations e.1 then
      some { who := .landmark e.1, pair := { node := e.2.node, regime := .normal } }
    else none

/-- The claim of one programme entry: SOON or RUNNING, not cancelled, with a venue (R56). -/
def programmeClaim (g : PguState) (i : Nat) : Option Claim :=
  match tblGet g.programme i, tblGet g.states i with
  | some e, some st =>
    if (st = .soon ∨ st = .running) ∧ e.cancelled = false then
      e.venue.map fun v => { who := .programme i, pair := { node := v, regime := .normal } }
    else none
  | _, _ => none

/-- The programme claims, in the ordered view's (start, index) order (R32, R52, R56). -/
def programmeClaims (g : PguState) : List Claim := g.view.filterMap (programmeClaim g)

/-- The interjection claims, by index: active interjections whose notice has a destination (R116). -/
def interjClaims (p : PcoState) : List Claim :=
  p.active.filterMap fun i =>
    match tblGet p.interjections i with
    | none => none
    | some j =>
      match tblGet p.notices j.notice with
      | none => none
      | some n => n.dest.map fun d => { who := .interjection i, pair := { node := d, regime := .normal } }

/-- The muster claims, by index: in-use OPEN muster stations (R79). -/
def musterClaims (m : SmsState) : List Claim :=
  m.musters.filterMap fun e =>
    if e.2.isOpen then some { who := .muster e.1, pair := { node := e.2.node, regime := .muster } } else none

/-- Every claim whose condition holds, in waiting-list order (R29, R32). -/
def desiredClaims (s : State) : List Claim :=
  if s.msc.state = .standby then landmarkClaims s.sms ++ programmeClaims s.pgu ++ interjClaims s.pco
  else musterClaims s.sms

/-! ## The solver (R36) -/

/-- Is the solver at work? -/
def solverBusy (slots : List Slot) : Bool := slots.any fun sl => decide (sl.state = .solving)

/-- The lowest-index QUEUED slot of a regime becomes SOLVING (R36). -/
def selectIn (r : Regime) : List Slot → Option (List Slot)
  | [] => none
  | sl :: rest =>
    if sl.state = .queued ∧ sl.pair.regime = r then some ({ sl with state := .solving } :: rest)
    else (selectIn r rest).map (sl :: ·)

/-- An idle solver selects a QUEUED slot, MUSTER slots first (R36). -/
def solverSelect (slots : List Slot) : List Slot :=
  if solverBusy slots then slots
  else
    match selectIn .muster slots with
    | some l => l
    | none => (selectIn .normal slots).getD slots

/-! ## One claim operation (R34) -/

/-- The claims a slot holds. -/
def slotClaims (sl : Slot) : List Claim := sl.holders.map fun c => { who := c, pair := sl.pair }

/-- First step of R34: the claims that should no longer exist leave the slot, and it becomes EMPTY with its vector
discarded when the last one goes (R31). -/
def withdrawFrom (desired : List Claim) (sl : Slot) : Slot :=
  let kept := sl.holders.filter fun c => decide ({ who := c, pair := sl.pair } ∈ desired)
  if kept = [] then emptySlot else { sl with holders := kept }

/-- Is this claim held on some slot? -/
def claimHeld (slots : List Slot) (c : Claim) : Bool :=
  slots.any fun sl => decide (sl.pair = c.pair) && decide (c.who ∈ sl.holders)

/-- Attach a claim to the slot that holds its pair, if one does (R30). -/
def attachClaim (c : Claim) : List Slot → Option (List Slot)
  | [] => none
  | sl :: rest =>
    if sl.state ≠ .empty ∧ sl.pair = c.pair then some ({ sl with holders := sl.holders ++ [c.who] } :: rest)
    else (attachClaim c rest).map (sl :: ·)

/-- Give a claim the EMPTY slot with the lowest index, if there is one: QUEUED, without a vector (R30). -/
def takeEmpty (c : Claim) : List Slot → Option (List Slot)
  | [] => none
  | sl :: rest =>
    if sl.state = .empty then
      some ({ state := .queued, pair := c.pair, holders := [c.who], vector := none, vectorEpoch := 0 } :: rest)
    else (takeEmpty c rest).map (sl :: ·)

/-- Third step of R34: the waiting list is served from its head. -/
def serveClaims : List Claim → List Slot → List Slot × List Claim
  | [], slots => (slots, [])
  | c :: rest, slots =>
    match attachClaim c slots with
    | some slots' => serveClaims rest slots'
    | none =>
      match takeEmpty c slots with
      | some slots' => serveClaims rest slots'
      | none => let r := serveClaims rest slots; (r.1, c :: r.2)

/-- The slots after the withdrawals of an event: a solver whose slot became EMPTY selects again, before a freed slot is
offered to the waiting list (R31, R34, R36). -/
def withdrawAll (desired : List Claim) (slots : List Slot) : List Slot :=
  solverSelect (slots.map (withdrawFrom desired))

/-- One event's claim changes as one operation (R34): the new solver state, and how many claims the event made that
are left waiting. -/
def claimStep (desired : List Claim) (r : RsvState) : RsvState × Nat :=
  let slots := withdrawAll desired r.slots
  let made := desired.filter fun c => !claimHeld slots c
  let served := serveClaims made slots
  ({ slots := served.1, waiting := served.2 }, (served.2.filter fun c => decide (c ∉ r.waiting)).length)

/-- The claim operation of an event and the selection among the slots it queued, on the whole part (R34, R36). CLAIM_WAIT rises by
one for each claim of the event left waiting (R34, R185). -/
def claimOp (s : State) : State :=
  let r := claimStep (desiredClaims s) s.rsv
  { s with
    rsv := { r.1 with slots := solverSelect r.1.slots }
    xu := if r.2 = 0 then s.xu else recordFault .claimWait none s.clk.second r.2 s.xu }

/-! ## The graph epoch (R16, R28) -/

/-- A rise of the epoch in the solver: READY and SOLVING slots go QUEUED and keep their vectors (R28). -/
def staleSlot (sl : Slot) : Slot :=
  match sl.state with
  | .ready => { sl with state := .queued }
  | .solving => { sl with state := .queued }
  | _ => sl

/-- The pairs of the slots that hold a vector: the STALE and RATE notices of an event (R25, R28). -/
def vectorPairs (slots : List Slot) : List Pair :=
  slots.filterMap fun sl => if sl.vector.isSome then some sl.pair else none

/-- The graph epoch rises by one and the solver takes it, the abandoned solve included (R16, R28, R37). -/
def raiseEpoch (s : State) : State :=
  { s with
    sms := { s.sms with epoch := s.sms.epoch + 1 }
    rsv := { s.rsv with slots := solverSelect (s.rsv.slots.map staleSlot) } }

/-! ## Completion of a solve (R38) -/

/-- The slot the solver works on. -/
def solvingPair (slots : List Slot) : Option Pair :=
  (slots.find? fun sl => decide (sl.state = .solving)).map Slot.pair

/-- The SOLVING slot takes the new vector at the current epoch and becomes READY (R38). -/
def readySlot (m : SmsState) (sl : Slot) : Slot :=
  if sl.state = .solving then
    { sl with state := .ready, vector := some (solve m sl.pair), vectorEpoch := m.epoch }
  else sl

/-- Completion in the solver, which then selects again (R36, R38). -/
def finishSolve (s : State) : State :=
  { s with rsv := { s.rsv with slots := solverSelect (s.rsv.slots.map (readySlot s.sms)) } }

/-! ## Views (R26, R27, R32) -/

/-- The slot that holds a pair, if one does. -/
def slotOf (slots : List Slot) (p : Pair) : Option Slot :=
  slots.find? fun sl => decide (sl.state ≠ .empty) && decide (sl.pair = p)

/-- The vector held for a pair (R40 case 1). -/
def vectorOf (slots : List Slot) (p : Pair) : Option RouteVec := (slotOf slots p).bind Slot.vector

/-- A slot's users: the number of claims held on it (R26). -/
def slotUsers (sl : Slot) : Nat := sl.holders.length

/-- Slots in use: those not EMPTY (R26). -/
def slotsInUse (r : RsvState) : Nat := (r.slots.filter fun sl => decide (sl.state ≠ .empty)).length

end Sys2Proof.Machine
end

