-- ==== Sys2Proof/Machine/Arrows.lean ====
section
/-! DEFINITION. The arrow and minutes of a station toward a pair, worked out at composition (R40, R41, R42). -/

namespace Sys2Proof.Machine

/-- An arrow as a page gets it: the code, the minutes when present (R42, R98), and whether case 6 of R40 was met. -/
structure ArrowResult where
  arrow : Arrow
  minutes : Option Nat
  unlisted : Bool
  deriving DecidableEq, Repr

/-- An arrow without minutes. -/
def plainArrow (a : Arrow) : ArrowResult := { arrow := a, minutes := none, unlisted := false }

/-- Is the traversal of edge `e` leaving node `n` barred now, the edge being perhaps empty or moved (R41)? -/
def hopBarredNow (m : SmsState) (r : Regime) (e n : Nat) : Bool :=
  match tblGet m.edges e with
  | none => true
  | some edge =>
    if n = edge.nodeA then traversalBarred m r edge n edge.nodeB
    else if n = edge.nodeB then traversalBarred m r edge n edge.nodeA
    else true

/-- The exit code a station lists for an edge (R11). -/
def exitFor (exits : List (Nat × Arrow)) (e : Nat) : Option Arrow := (exits.find? fun x => x.1 == e).map Prod.snd

/-- The arrow of a station toward a pair, the six cases of R40 in order, with its minutes (R42). -/
def arrowFor (m : SmsState) (slots : List Slot) (st : StationRec) (p : Pair) : ArrowResult :=
  match slotOf slots p with
  | none => plainArrow .pending
  | some sl =>
    match sl.vector with
    | none => plainArrow .pending
    | some v =>
      let h := hopOf v st.node
      if h.dist = Config.unreachable then plainArrow .noRoute
      else if h.dist = 0 then { arrow := .here, minutes := some 0, unlisted := false }
      else
        match h.next with
        | none => plainArrow .noRoute
        | some e =>
          if sl.state ≠ .ready ∧ hopBarredNow m p.regime e st.node = true then plainArrow .withheld
          else
            match exitFor st.exits e with
            | some a => { arrow := a, minutes := some (walkingMinutes m.settings.walkRate h.dist), unlisted := false }
            | none => { arrow := .none, minutes := none, unlisted := true }

end Sys2Proof.Machine
end

