-- ==== Sys2Proof/Machine/Stations.lean ====
section
/-! DEFINITION. What follows from the line records, the pages and the muster state: line status (R137), desired serial
(R90), muster pages (R97), counted stations and the tally (R84, R85), pending counts and the attention count (R145,
R154). None of it is stored (log 13). -/

namespace Sys2Proof.Machine

/-! ## Records of a station number -/

/-- The line record of a station number. -/
def lineRec (l : LcsState) (x : Nat) : LineRec := tblGetD l.recs x emptyLineRec

/-- Put the line record of a station number. -/
def setLineRec (x : Nat) (r : LineRec) (l : LcsState) : LcsState := { l with recs := tblPut l.recs x r }

/-- The composition record of a station number. -/
def pageRec (p : PcoState) (x : Nat) : PageRec := tblGetD p.pages x emptyPageRec

/-- The desired page of a station number (R90). -/
def desiredPage (p : PcoState) (x : Nat) : Option Page := (pageRec p x).page

/-- The desired serial as the Line Controllers and the status record see it: 0 without a desired page (R90). -/
def desiredSerial (p : PcoState) (x : Nat) : Word16 :=
  let r := pageRec p x
  if r.page.isSome then r.serial else 0

/-- The kind of a page. -/
def bodyKind : Body → PageKind
  | .blank => .blank
  | .doorStandard _ _ _ => .doorStandard
  | .doorMuster _ _ _ _ => .doorMuster
  | .wayProgramme _ => .wayProgramme
  | .wayLandmarks _ => .wayLandmarks
  | .lobbyProgramme _ _ _ => .lobbyProgramme
  | .notice _ _ => .notice
  | .screenMuster _ _ => .screenMuster

/-- Is a page a muster page: DOOR_MUSTER or SCREEN_MUSTER carrying the current muster serial (R97)? -/
def isMusterPage (current : Word16) (p : Page) : Bool :=
  (decide (bodyKind p.body = .doorMuster) || decide (bodyKind p.body = .screenMuster))
    && decide (p.musterSerial = current)

/-! ## Line status (R137) -/

/-- The line status that follows from configured, heard, misses and miss_limit (R137). -/
def statusOf (configured heard : Bool) (misses limit : Nat) : LineStatus :=
  if !configured then .absent
  else if limit ≤ misses then .lost
  else if !heard then .unknown
  else if misses = 0 then .online
  else .doubtful

/-- The line status of a station number (R137). -/
def lineStatus (s : State) (x : Nat) : LineStatus :=
  let r := lineRec s.lcs x
  statusOf (tblHas s.sms.stations x) r.heard r.misses s.sms.settings.missLimit

/-- Is a station ONLINE or DOUBTFUL? -/
def answering (s : State) (x : Nat) : Bool :=
  decide (lineStatus s x = .online) || decide (lineStatus s x = .doubtful)

/-! ## Counted stations and the tally (R84, R85) -/

/-- Is a station excluded by the reserve regime (R84)? -/
def excluded (s : State) (st : StationRec) : Bool := s.msc.reserve && !st.essential

/-- The counted stations (R84). -/
def countedStations (s : State) : List Nat :=
  (s.sms.stations.filter fun e => answering s e.1 && !excluded s e.2).map Prod.fst

/-- The number of counted stations. -/
def countedCount (s : State) : Nat := (countedStations s).length

/-- The confirmation tally (R85); 0 in STANDBY (R75, log 12). -/
def tally (s : State) : Nat :=
  if s.msc.state = .standby then 0
  else ((countedStations s).filter fun x => decide ((lineRec s.lcs x).confMuster = s.msc.serial)).length

/-! ## Door service counts (R145, R154) -/

/-- Pending service: (tally − ack) mod 256 (R145). -/
def pendingService (d : DoorRec) : Nat := (d.serviceTally - d.serviceAck).toNat

/-- Pending assistance: (tally − ack) mod 256 (R145). -/
def pendingAssist (d : DoorRec) : Nat := (d.assistTally - d.assistAck).toNat

/-- Is the attention of a station number set (R145)? -/
def attentionSet (l : LcsState) (x : Nat) : Bool :=
  match (lineRec l x).door with
  | some d => d.attention
  | none => false

/-- The attention count: configured cabins whose attention is set (R154). -/
def attentionCount (s : State) : Nat := (s.sms.stations.filter fun e => attentionSet s.lcs e.1).length

/-- How many configured stations have a line status (R184). -/
def statusCount (s : State) (st : LineStatus) : Nat :=
  (s.sms.stations.filter fun e => decide (lineStatus s e.1 = st)).length

end Sys2Proof.Machine
end

