-- ==== Sys2Proof/Machine/Effective.lean ====
section
/-! DEFINITION. Effective muster stations and the effective-station map (R80 to R83). -/

namespace Sys2Proof.Machine

/-- The class of a muster station seen from a node (R80). -/
inductive StationClass where
  | reachable (d : Nat)
  | unknown
  | out
  deriving DecidableEq, Repr

/-- R80: the class of muster station `k` from node `n`; the vector is used whether current or stale. -/
def stationClass (musters : Tbl MusterRec) (slots : List Slot) (n k : Nat) : StationClass :=
  match tblGet musters k with
  | none => .out
  | some r =>
    if !r.isOpen then .out
    else
      match vectorOf slots { node := r.node, regime := .muster } with
      | none => .unknown
      | some v => if (hopOf v n).dist = Config.unreachable then .out else .reachable (hopOf v n).dist

/-- The nearer of the best REACHABLE station so far and this one; ties keep the lower index (R81). -/
def nearerStation (musters : Tbl MusterRec) (slots : List Slot) (n : Nat) (best : Option (Nat × Nat))
    (e : Nat × MusterRec) : Option (Nat × Nat) :=
  match stationClass musters slots n e.1 with
  | .reachable d =>
    match best with
    | some b => if d < b.2 then some (e.1, d) else some b
    | none => some (e.1, d)
  | _ => best

/-- The REACHABLE station with the least distance, the lower index at a tie (R81 case 3, R82). -/
def nearestStation (musters : Tbl MusterRec) (slots : List Slot) (n : Nat) : Option Nat :=
  (musters.foldl (nearerStation musters slots n) none).map Prod.fst

/-- The UNKNOWN station with the lowest index (R81 case 4, R82). -/
def firstUnknown (musters : Tbl MusterRec) (slots : List Slot) (n : Nat) : Option Nat :=
  (musters.find? fun e => decide (stationClass musters slots n e.1 = .unknown)).map Prod.fst

/-- The effective station of a cabin and its REDIRECTED mark, the five cases of R81. -/
def effectiveStation (musters : Tbl MusterRec) (slots : List Slot) (st : StationRec) : Option Nat × Bool :=
  let isOut (k : Nat) : Bool := decide (stationClass musters slots st.node k = .out)
  let alternate := (tblGet musters st.assigned).bind MusterRec.alternate
  if !isOut st.assigned then (some st.assigned, false)
  else
    match alternate.filter fun a => !isOut a with
    | some a => (some a, true)
    | none =>
      match nearestStation musters slots st.node with
      | some k => (some k, true)
      | none =>
        match firstUnknown musters slots st.node with
        | some k => (some k, true)
        | none => (none, false)

/-- The stations a screen shows, empty for the crew-instruction form (R82). -/
def shownStations (musters : Tbl MusterRec) (slots : List Slot) (st : StationRec) : List Nat :=
  match st.served.filter fun k => decide (stationClass musters slots st.node k ≠ .out) with
  | [] =>
    match nearestStation musters slots st.node with
    | some k => [k]
    | none => (firstUnknown musters slots st.node).toList
  | l => l

/-- The map entry of a station (R83). -/
def mapEntry (musters : Tbl MusterRec) (slots : List Slot) (st : StationRec) : MapEntry :=
  match st.kind with
  | .cabin => .cabin (effectiveStation musters slots st).1 (effectiveStation musters slots st).2
  | _ => .screen (shownStations musters slots st)

/-- The whole map computed afresh: one entry for each configured station (R83). -/
def freshMap (m : SmsState) (slots : List Slot) : Tbl MapEntry :=
  tblMap (fun _ st => mapEntry m.musters slots st) m.stations

/-- The map entry held for a station. -/
def mapAt (c : MscState) (x : Nat) : Option MapEntry := c.map.bind fun t => tblGet t x

/-- The map is computed afresh while the muster state is not STANDBY (R83). -/
def recomputeMap (s : State) : State :=
  { s with msc := { s.msc with
      map := if s.msc.state = .standby then s.msc.map else some (freshMap s.sms s.rsv.slots) } }

/-- The stations whose entry changed: the Muster Controller's notices to the Page Composer (R83). -/
def changedEntries (before after : MscState) : List Nat :=
  match after.map with
  | none => []
  | some t => (tblKeys t).filter fun x => decide (mapAt before x ≠ tblGet t x)

end Sys2Proof.Machine
end

