-- ==== Sys2Proof/Machine/Programme.lean ====
section
/-! DEFINITION. The Programme Unit's evaluation (R48 to R62): the ship offset, the entry states, the screen lists. The
claims follow from the states (Machine/Slots.lean). -/

namespace Sys2Proof.Machine

/-- The voyage minute (00_scope.md, Time). -/
def voyageMinute (c : ClockState) : Nat := c.second.toNat / 60

/-! ## Offset and ship time (R48, R50) -/

/-- The later of two clock change records that apply. -/
def laterClock (now : Nat) (best : Option ClockRec) (e : Nat × ClockRec) : Option ClockRec :=
  if e.2.atMinute ≤ now then
    match best with
    | none => some e.2
    | some b => if b.atMinute < e.2.atMinute then some e.2 else some b
  else best

/-- The offset an evaluation gives: the latest applicable record's, else initial_offset (R48). -/
def evalOffset (changes : Tbl ClockRec) (initial : Int) (now : Nat) : Int :=
  match changes.foldl (laterClock now) none with
  | some c => c.newOffset
  | none => initial

/-- Ship time: the minute of the day, 0 to 1439 (R50). -/
def shipTime (minute : Nat) (offset : Int) : Nat := ((minute + offset) % 1440).toNat

/-- The programme day, 0 when the sum is negative (R50). -/
def programmeDay (minute : Nat) (offset : Int) : Nat := ((minute + offset) / 1440).toNat

/-! ## Entry states (R53) -/

/-- The end of an entry (R51). -/
def entryEnd (e : ProgRec) : Nat := e.start + e.duration

/-- The state of an entry at a minute (R53); the compares are exact, so start − lead may lie below 0. -/
def entryState (lead linger now : Nat) (e : ProgRec) : EntryState :=
  if now + lead < e.start then .pending
  else if now < e.start then .soon
  else if now < entryEnd e then .running
  else if now < entryEnd e + linger then .linger
  else .gone

/-! ## The ordered view (R52) -/

/-- Does an entry sort before another: by start, then by index (R52)? -/
def viewBefore (a b : Nat × ProgRec) : Bool :=
  decide (a.2.start < b.2.start) || (decide (a.2.start = b.2.start) && decide (a.1 < b.1))

/-- Insert an entry in its place. -/
def viewInsert (a : Nat × ProgRec) : List (Nat × ProgRec) → List (Nat × ProgRec)
  | [] => [a]
  | b :: rest => if viewBefore a b then a :: b :: rest else b :: viewInsert a rest

/-- The indices of the in-use entries by (start, index) (R52). -/
def orderedView (t : Tbl ProgRec) : List Nat := (t.foldr viewInsert []).map Prod.fst

/-! ## Screen lists (R58 to R61) -/

/-- Is an entry eligible for a station (R58)? -/
def eligible (st : StationRec) (e : ProgRec) : Bool :=
  decide (e.audience &&& st.selMask = st.selValue &&& st.selMask)

/-- Does an entry in a state qualify for a WAYPOINT list (R59)? -/
def wayQualifies (st : StationRec) (e : ProgRec) (state : EntryState) : Bool :=
  eligible st e && (decide (state = .soon) || decide (state = .running)) && e.venue.isSome

/-- Does an entry in a state qualify for a LOBBY list (R60)? -/
def lobbyQualifies (st : StationRec) (e : ProgRec) (state : EntryState) : Bool :=
  eligible st e
    && (decide (state = .soon) || decide (state = .running) || (decide (state = .pending) && !e.cancelled))

/-- The list line of an entry (R61); a route part only on the waypoint line of an entry that is not cancelled. DESIGN CHOICE
(log 53): the venue itself is no field of a line without a route part, so a venue moved by a commit to another node of the
same deck leaves such a line equal, and R62's comparison field by field gives no LIST notice for it. -/
def listLine (nodes : Tbl NodeRec) (offset : Int) (now : Nat) (way : Bool) (i : Nat) (e : ProgRec) (state : EntryState) :
    ListLine :=
  { entry := i, title := e.title, venueLabel := e.venueLabel
    deck := e.venue.bind fun v => (tblGet nodes v).map NodeRec.deck
    startTime := shipTime e.start offset, mark := state
    countdown := if state = .soon then some (e.start - now) else none
    cancelled := e.cancelled, icon := e.category
    route := if way && !e.cancelled then e.venue else none }

/-- The list of a screen: the first entries of the view that qualify, 3 for a WAYPOINT and 8 for a LOBBY (R59, R60). -/
def screenList (nodes : Tbl NodeRec) (programme : Tbl ProgRec) (states : Tbl EntryState) (view : List Nat) (offset : Int)
    (now : Nat) (st : StationRec) : List ListLine :=
  let way := decide (st.kind = .waypoint)
  let lines := view.filterMap fun i =>
    match tblGet programme i, tblGet states i with
    | some e, some state =>
      if (if way then wayQualifies st e state else lobbyQualifies st e state) then
        some (listLine nodes offset now way i e state)
      else none
    | _, _ => none
  lines.take (if way then 3 else 8)

/-- Does a station have a list (R58)? -/
def hasList (st : StationRec) : Bool := decide (st.kind ≠ .cabin)

/-! ## An evaluation (R54) -/

/-- The Programme Unit after an evaluation against the tables in use and the present minute (R54). The ordered view is
rebuilt from the table; while the offset is retained it is not evaluated (R49). -/
def evalPgu (m : SmsState) (now : Nat) (g : PguState) : PguState :=
  let offset := if g.retained then g.offset else evalOffset g.clockChanges m.settings.initialOffset now
  let view := orderedView g.programme
  let states := tblMap (fun _ e => entryState m.settings.lead m.settings.linger now e) g.programme
  let screens := m.stations.filter fun e => hasList e.2
  { g with
    view, offset, states
    lists := tblMap (fun _ st => screenList m.nodes g.programme states view offset now st) screens
    lastTime := some (shipTime now offset, programmeDay now offset) }

/-- The stations whose list an evaluation changed, or that are named in `anew`: the LIST notices (R62). -/
def changedLists (before after : PguState) (anew : List Nat) : List Nat :=
  (tblKeys after.lists).filter fun x => decide (tblGet before.lists x ≠ tblGet after.lists x) || anew.contains x

/-- Does a commit build a station's list anew: it configures the station, changes its kind, or changes its selector
(R62)? -/
def listAnew (before : Tbl StationRec) (x : Nat) (st : StationRec) : Bool :=
  match tblGet before x with
  | none => true
  | some old => decide (old.kind ≠ st.kind) || decide (old.selMask ≠ st.selMask) || decide (old.selValue ≠ st.selValue)

/-- The stations whose list a commit builds anew (R62). -/
def listsAnew (before after : Tbl StationRec) : List Nat :=
  (after.filter fun e => hasList e.2 && listAnew before e.1 e.2).map Prod.fst

/-- Did an evaluation give a TIME notice (R50)? -/
def timeChanged (before after : PguState) : Bool := decide (before.lastTime ≠ after.lastTime)

end Sys2Proof.Machine
end

