-- ==== Sys2Proof/Machine/Compose.lean ====
section
/-! DEFINITION. Page composition (R90 to R107): the candidate page of a station, its draw and source sets, the marks a
notice makes, and the taking of one notice. -/

namespace Sys2Proof.Machine

/-- A candidate: the page, its draw set and source set, and whether any of its arrows met an unlisted exit (R91, R93, R98). -/
structure Candidate where
  page : Page
  draws : List Pair
  sources : List Source
  unlisted : Bool
  deriving DecidableEq, Repr

/-- A page outside muster: header muster serial 0 (R97). -/
def normalPage (b : Body) (draws : List Pair) (sources : List Source) (unlisted : Bool) : Candidate :=
  { page := { body := b, musterSerial := 0 }, draws, sources, unlisted }

/-! ## Bodies (R99 to R106) -/

/-- DOOR_STANDARD: the assigned station, whatever its state (R99). -/
def composeDoor (m : SmsState) (st : StationRec) : Candidate :=
  let label := match tblGet m.musters st.assigned with
    | some r => r.label
    | none => []
  normalPage (.doorStandard st.label st.assigned label) [] [.musterStation st.assigned] false

/-- DOOR_MUSTER in its two forms (R100); without a map entry it takes the crew-instruction form. -/
def composeDoorMuster (m : SmsState) (slots : List Slot) (c : MscState) (x : Nat) (st : StationRec) : Candidate :=
  let drill := decide (c.kind = .drill)
  let crew : Candidate :=
    { page := { body := .doorMuster st.label none drill false, musterSerial := c.serial }, draws := [], sources := []
      unlisted := false }
  match mapAt c x with
  | some (.cabin (some k) redirected) =>
    match tblGet m.musters k with
    | none => crew
    | some r =>
      let p : Pair := { node := r.node, regime := .muster }
      let a := arrowFor m slots st p
      { page := { body := .doorMuster st.label (some (k, r.label, a.arrow, a.minutes)) drill redirected
                  musterSerial := c.serial }
        draws := [p], sources := [.musterStation k], unlisted := a.unlisted }
  | _ => crew

/-- One line of a SCREEN_MUSTER page with what it draws from (R105). -/
def musterLine (m : SmsState) (slots : List Slot) (st : StationRec) (k : Nat) : Option (MusterLine × Pair × Bool) :=
  (tblGet m.musters k).map fun r =>
    let p : Pair := { node := r.node, regime := .muster }
    let a := arrowFor m slots st p
    let deck := match tblGet m.nodes r.node with
      | some n => n.deck
      | none => 0
    ({ index := k, label := r.label, deck, arrow := a.arrow, minutes := a.minutes }, p, a.unlisted)

/-- SCREEN_MUSTER in its two forms (R105). -/
def composeScreenMuster (m : SmsState) (slots : List Slot) (c : MscState) (x : Nat) (st : StationRec) : Candidate :=
  let shown := match mapAt c x with
    | some (.screen l) => l
    | _ => []
  let lines := shown.filterMap (musterLine m slots st)
  { page := { body := .screenMuster (lines.map Prod.fst) (decide (c.kind = .drill)), musterSerial := c.serial }
    draws := lines.map fun l => l.2.1
    sources := shown.map Source.musterStation ++ lines.map fun l => Source.node l.2.1.node
    unlisted := lines.any fun l => l.2.2 }

/-- The mark byte's state mark: 0 PENDING, 1 SOON, 2 RUNNING (R197). -/
def markCode : EntryState → Nat
  | .soon => 1
  | .running => 2
  | _ => 0

/-- One line of a WAY_PROGRAMME page, with the arrow of its route part (R101). -/
def wayLine (m : SmsState) (slots : List Slot) (st : StationRec) (l : ListLine) : WayLine × Bool :=
  let a := l.route.map fun v => arrowFor m slots st { node := v, regime := .normal }
  ({ title := l.title, venueLabel := l.venueLabel, deck := l.deck, startTime := l.startTime, mark := markCode l.mark
     countdown := l.countdown, cancelled := l.cancelled, icon := categoryCode l.icon
     route := a.map fun r => (r.arrow, r.minutes) },
   (a.map ArrowResult.unlisted).getD false)

/-- WAY_PROGRAMME: one line for each line of the station's list (R101). -/
def composeWay (m : SmsState) (slots : List Slot) (list : List ListLine) (st : StationRec) : Candidate :=
  let lines := list.map (wayLine m slots st)
  normalPage (.wayProgramme (lines.map Prod.fst))
    (list.filterMap fun l => l.route.map fun v => { node := v, regime := .normal }) [.list]
    (lines.any Prod.snd)

/-- One line of a WAY_LANDMARKS page (R102). -/
def landLine (m : SmsState) (slots : List Slot) (st : StationRec) (i : Nat) : Option (LandLine × Pair × Bool) :=
  (tblGet m.landmarks i).map fun r =>
    let p : Pair := { node := r.node, regime := .normal }
    let a := arrowFor m slots st p
    let deck := match tblGet m.nodes r.node with
      | some n => n.deck
      | none => 0
    ({ label := r.label, deck, arrow := a.arrow, minutes := a.minutes }, p, a.unlisted)

/-- WAY_LANDMARKS: one line for each listed landmark (R102). -/
def composeLandmarks (m : SmsState) (slots : List Slot) (st : StationRec) : Candidate :=
  let lines := st.landmarks.filterMap (landLine m slots st)
  normalPage (.wayLandmarks (lines.map Prod.fst)) (lines.map fun l => l.2.1)
    (st.landmarks.map Source.landmark ++ lines.map fun l => Source.node l.2.1.node) (lines.any fun l => l.2.2)

/-- One line of a LOBBY_PROGRAMME page: the first 11 bytes of the title and 6 of the venue label (R103, R107, R197). -/
def lobbyLine (l : ListLine) : LobbyLine :=
  { title := l.title.take 11, venueLabel := l.venueLabel.take 6, deck := l.deck, startTime := l.startTime
    mark := markCode l.mark, countdown := l.countdown, cancelled := l.cancelled, icon := categoryCode l.icon }

/-- LOBBY_PROGRAMME: ship time and day as the Programme Unit last gave them, and the station's list (R103). -/
def composeLobby (g : PguState) (list : List ListLine) : Candidate :=
  let t := g.lastTime.getD (0, 0)
  normalPage (.lobbyProgramme t.1 t.2 (list.map lobbyLine)) [] [.list, .time] false

/-- NOTICE: four lines, and the arrow toward the destination when there is one (R104). -/
def composeNotice (m : SmsState) (slots : List Slot) (st : StationRec) (i : Nat) (n : NoticeRec) : Candidate :=
  match n.dest with
  | none => normalPage (.notice n.lines none) [] [.notice i] false
  | some d =>
    let p : Pair := { node := d, regime := .normal }
    let a := arrowFor m slots st p
    normalPage (.notice n.lines (some (a.arrow, a.minutes))) [p] [.notice i] a.unlisted

/-- The programme page of a screen (R96 step 7). -/
def composeProgramme (s : State) (x : Nat) (st : StationRec) : Candidate :=
  let list := tblGetD s.pgu.lists x []
  match st.kind with
  | .waypoint => composeWay s.sms s.rsv.slots list st
  | _ => composeLobby s.pgu list

/-! ## Choice of kind (R96) -/

/-- What the rotation position of a screen shows (R96 steps 5 to 7). -/
inductive Shows where
  | notice (i : Nat)
  | landmarks
  | programme
  deriving DecidableEq, Repr

/-- R96 steps 5 to 7: an interjection or NOTICE step, a LANDMARKS step, or the programme. -/
def positionShows (p : PcoState) (x : Nat) : Shows :=
  match tblGet p.rots x with
  | none => .programme
  | some r =>
    match r.position with
    | .default => .programme
    | .interj i =>
      match tblGet p.interjections i with
      | some j => .notice j.notice
      | none => .programme
    | .step n =>
      match ((tblGet p.rotations r.rotation).map fun q => q.steps.getD n .empty).getD .empty with
      | .notice i _ => .notice i
      | .landmarks _ => .landmarks
      | _ => .programme

/-- The page of a screen outside muster (R96 steps 5 to 7). -/
def composeScreen (s : State) (x : Nat) (st : StationRec) : Candidate :=
  match positionShows s.pco x with
  | .notice i =>
    match tblGet s.pco.notices i with
    | some n => composeNotice s.sms s.rsv.slots st i n
    | none => composeProgramme s x st
  | .landmarks =>
    match st.kind with
    | .waypoint => composeLandmarks s.sms s.rsv.slots st
    | _ => composeProgramme s x st
  | .programme => composeProgramme s x st

/-- The candidate page of a station: the first step of R96 that applies. -/
def candidate (s : State) (x : Nat) (st : StationRec) : Candidate :=
  if excluded s st then normalPage .blank [] [] false
  else
    match st.kind with
    | .cabin =>
      if s.msc.state = .standby then composeDoor s.sms st
      else composeDoorMuster s.sms s.rsv.slots s.msc x st
    | _ =>
      if s.msc.state = .standby then composeScreen s x st
      else composeScreenMuster s.sms s.rsv.slots s.msc x st

/-! ## Taking a notice (R91, R92, R98) -/

/-- The composition record after a candidate: the serial rises only when a field differs or no page was held (R91). -/
def takeCandidate (c : Candidate) (r : PageRec) : PageRec :=
  { page := some c.page
    serial := if r.page = some c.page then r.serial else nextSerial r.serial
    draws := c.draws, sources := c.sources }

/-- One composition: the station's record, and the UNLISTED_EXIT count when case 6 was met (R42, R98). -/
def composeOne (s : State) (acc : Tbl PageRec × XuState) (x : Nat) : Tbl PageRec × XuState :=
  match tblGet s.sms.stations x with
  | none => acc
  | some st =>
    let c := candidate s x st
    (tblPut acc.1 x (takeCandidate c (tblGetD acc.1 x emptyPageRec)),
      if c.unlisted then recordFault .unlistedExit (some x) s.clk.second 1 acc.2 else acc.2)

/-- Take one notice that marks these stations: every marked, configured station is composed once, against the state the
owning blocks hold (R92). -/
def composeMarked (marks : List Nat) (s : State) : State :=
  let r := marks.foldl (composeOne s) (s.pco.pages, s.xu)
  { s with pco := { s.pco with pages := r.1 }, xu := r.2 }

/-! ## Marks (R94, R95) -/

/-- Every configured station (R95: muster state, kind or serial). -/
def allStations (s : State) : List Nat := tblKeys s.sms.stations

/-- Every configured station whose essential flag is 0 (R95: reserve regime). -/
def nonEssential (s : State) : List Nat := (s.sms.stations.filter fun e => !e.2.essential).map Prod.fst

/-- The stations whose draw set holds one of these pairs (R94: READY, STALE, RATE). -/
def drawnFrom (s : State) (pairs : List Pair) : List Nat :=
  (allStations s).filter fun x => (pageRec s.pco x).draws.any fun p => pairs.contains p

/-- The stations whose source set holds ship time and day (R94: TIME). -/
def showingTime (s : State) : List Nat := (allStations s).filter fun x => (pageRec s.pco x).sources.contains .time

/-- Of these stations, those whose source set holds their list (R94: LIST). -/
def showingList (s : State) (stations : List Nat) : List Nat :=
  stations.filter fun x => (pageRec s.pco x).sources.contains .list

/-- Take the blocks that a notice to the Page Composer may change from `t`, and the rest from `s`. -/
def pageBlocks (t s : State) : State := { s with pco := t.pco, xu := t.xu }

/-- The Route Solver's notices of one event: a station that several of them touch is marked, and so composed, once (R39,
R92, log 9). -/
def pairNotices (pairs : List Pair) (s : State) : State := composeMarked (drawnFrom s pairs) s

/-- The TIME notice of an evaluation, when there is one (R50). -/
def timeNotice (before : PguState) (s : State) : State :=
  pageBlocks (if timeChanged before s.pgu then composeMarked (showingTime s) s else s) s

/-- The LIST notices of an evaluation, one after another (R62); `anew` are the stations whose list a commit built anew. -/
def listNotices (before : PguState) (anew : List Nat) (s : State) : State :=
  pageBlocks ((changedLists before s.pgu anew).foldl (fun t x => composeMarked (showingList t [x]) t) s) s

/-- The Muster Controller's notices of changed map entries, one after another (R83, R95). -/
def mapNotices (before : MscState) (s : State) : State :=
  pageBlocks ((changedEntries before s.msc).foldl (fun t x => composeMarked [x] t) s) s

end Sys2Proof.Machine
end

