-- ==== Sys2Proof/Machine/Door.lean ====
section
/-! DEFINITION. Cabin door service on one cabin's door-service fields (R145 to R157): the refresh budget, full
refreshes, press tallies, acknowledgements and attention. -/

namespace Sys2Proof.Machine

/-! ## Refresh budget and full refreshes (R146, R147, R149) -/

/-- The head of a page with this muster serial was answered TAKEN: the countdown is loaded with refresh_interval, and
after-muster follows the page (R146, R147). -/
def doorHeadTaken (interval : Nat) (musterSerial : Word16) (d : DoorRec) : DoorRec :=
  { d with refresh := some (interval * Config.periodsPerSecond), afterMuster := decide (musterSerial ≠ 0) }

/-- Is a new page allowed at a door (R147)? -/
def doorAllows (musterPage : Bool) (d : DoorRec) : Bool := musterPage || decide (d.refresh = none) || d.afterMuster

/-- The FULL flag of a cabin's head (R149). -/
def doorFull (period : Nat) (musterPage : Bool) (d : DoorRec) : Bool := musterPage || decide (period - 1 ≤ d.fullCount)

/-- The full count after a completed transfer (R149). -/
def doorCompleted (full : Bool) (d : DoorRec) : DoorRec :=
  { d with fullCount := if full then 0 else satAdd 31 d.fullCount 1 }

/-! ## Press tallies (R150, R151) -/

/-- The increment of a door counter, mod 256 (R150). -/
def pressIncrement (reported last : Byte) : Nat := (reported - last).toNat

/-- A tally after an increment `k`, and the presses lost: pending does not rise above 63 (R151). -/
def addPresses (tallyNow ack : Byte) (k : Nat) : Byte × Nat :=
  let p := (tallyNow - ack).toNat
  if p + k ≤ 63 then (tallyNow + BitVec.ofNat 8 k, 0) else (tallyNow + BitVec.ofNat 8 (63 - p), p + k - 63)

/-- The counters of a baseline or FRESH STATE become the last counters, no presses counted (R150). -/
def doorBaseline (service assist : Byte) (d : DoorRec) : DoorRec :=
  { d with lastService := service, lastAssist := assist }

/-- What the presses of a STATE do: the new fields, the presses lost, and whether an attention event is handed on. -/
structure PressResult where
  door : DoorRec
  lost : Nat
  event : Bool
  deriving DecidableEq, Repr

/-- Has a pending count risen from 0 between two states of a cabin's fields, a service count only while service requests
are not masked (R153, R154)? -/
def pendingRose (masked : Bool) (d e : DoorRec) : Bool :=
  decide (pendingService d = 0) && decide (0 < pendingService e) && !masked
    || decide (pendingAssist d = 0) && decide (0 < pendingAssist e)

/-- The presses of any other STATE (R150, R151, R153, R154): `masked` is whether service requests are masked. -/
def doorPresses (masked : Bool) (service assist : Byte) (d : DoorRec) : PressResult :=
  let sv := addPresses d.serviceTally d.serviceAck (pressIncrement service d.lastService)
  let av := addPresses d.assistTally d.assistAck (pressIncrement assist d.lastAssist)
  let e := { d with serviceTally := sv.1, assistTally := av.1, lastService := service, lastAssist := assist }
  { door := { e with attention := d.attention || pendingRose masked d e }
    lost := sv.2 + av.2, event := pendingRose masked d e }

/-! ## Acknowledgements (R152, R154) -/

/-- One acknowledgement after synchronisation: taken when it is at most 63 behind the tally, else taken as the tally
(R152). One that lies behind the held ack is taken too, so that pending rises (the model's choice, log 42). -/
def takeAck (tallyNow ack : Byte) : Byte := if (tallyNow - ack).toNat ≤ 63 then ack else tallyNow

/-- The counts an acknowledgement pair leaves (R152). -/
def ackedDoor (service assist : Byte) (d : DoorRec) : DoorRec :=
  if d.synced then
    { d with serviceAck := takeAck d.serviceTally service, assistAck := takeAck d.assistTally assist }
  else
    { d with
      serviceTally := service + BitVec.ofNat 8 (pendingService d), assistTally := assist + BitVec.ofNat 8 (pendingAssist d)
      serviceAck := service, assistAck := assist, synced := true }

/-- An acknowledgement pair (R152), with the attention it clears when both pending counts are 0, or sets when one rose
from 0 unmasked (R154). -/
def doorAcks (masked : Bool) (service assist : Byte) (d : DoorRec) : DoorRec :=
  let e := ackedDoor service assist d
  { e with
    attention :=
      !(decide (pendingService e = 0) && decide (pendingAssist e = 0)) && (d.attention || pendingRose masked d e) }

/-- Attention at the return to STANDBY (R155). -/
def doorStandby (d : DoorRec) : DoorRec := if 0 < pendingService d then { d with attention := true } else d

/-! ## On the line record -/

/-- Change the door-service fields of a line record, if it has any. -/
def onDoor (f : DoorRec → DoorRec) (r : LineRec) : LineRec := { r with door := r.door.map f }

/-- Attention at the return to STANDBY on every cabin of the zone (R155). -/
def standbyAttention (l : LcsState) : LcsState := { l with recs := tblMap (fun _ r => onDoor doorStandby r) l.recs }

/-- Does a line have a cabin with pending service (R155)? -/
def anyPendingService (l : LcsState) : Bool :=
  l.recs.any fun e =>
    match e.2.door with
    | some d => decide (0 < pendingService d)
    | none => false

end Sys2Proof.Machine
end

