-- ==== Sys2Proof/Machine/Frames.lean ====
section
/-! DEFINITION. What travels on a line: page bodies as bytes (R197), frames with their CRC (R125, R127, R196), the time
they take (R124), and the judgement of an answer (R126, R129). -/

namespace Sys2Proof.Machine

/-! ## Page bodies (R197) -/

/-- An arrow byte and its minutes byte; both 0xFF without a route part (R197). -/
def arrowBytes : Option (Arrow × Option Nat) → List Byte
  | some (a, some n) => w8 (arrowCode a) ++ w8 n
  | some (a, none) => w8 (arrowCode a) ++ w8 0xFF
  | none => w8 0xFF ++ w8 0xFF

/-- The mark byte: the state mark in bits 0 and 1, the cancelled mark in bit 2 (R197). -/
def markByte (mark : Nat) (cancelled : Bool) : List Byte := w8 (mark + 4 * flagNat cancelled)

/-- One line of a WAY_PROGRAMME body: 56 bytes (R197). -/
def wayLineBytes (l : WayLine) : List Byte :=
  wText l.title 32 ++ wText l.venueLabel 16 ++ w8 (l.deck.getD 0) ++ w16 l.startTime ++ markByte l.mark l.cancelled
    ++ w8 (l.countdown.getD 0) ++ w8 l.icon ++ arrowBytes l.route

/-- One line of a WAY_LANDMARKS body: 20 bytes (R197). -/
def landLineBytes (l : LandLine) : List Byte :=
  wText l.label 16 ++ w8 l.deck ++ arrowBytes (some (l.arrow, l.minutes)) ++ wZero 1

/-- One line of a LOBBY_PROGRAMME body: 23 bytes (R197). -/
def lobbyLineBytes (l : LobbyLine) : List Byte :=
  wText l.title 11 ++ wText l.venueLabel 6 ++ w8 (l.deck.getD 0) ++ w16 l.startTime ++ markByte l.mark l.cancelled
    ++ w8 (l.countdown.getD 0) ++ w8 l.icon

/-- One line of a SCREEN_MUSTER body: 20 bytes (R197). -/
def musterLineBytes (l : MusterLine) : List Byte :=
  w8 l.index ++ w8 l.deck ++ arrowBytes (some (l.arrow, l.minutes)) ++ wText l.label 16

/-- A page body as the station receives it (R197). -/
def bodyBytes : Body → List Byte
  | .blank => []
  | .doorStandard label k stationLabel => wText label 8 ++ w8 k ++ wText stationLabel 16
  | .doorMuster label station drill redirected =>
    match station with
    | some (k, stationLabel, a, n) =>
      wText label 8 ++ w8 0 ++ w8 (flagNat drill + 2 * flagNat redirected) ++ w8 k ++ arrowBytes (some (a, n)) ++ wZero 1
        ++ wText stationLabel 16
    | none => wText label 8 ++ w8 1 ++ w8 (flagNat drill) ++ w8 0xFF ++ arrowBytes none ++ wZero 1 ++ wZero 16
  | .wayProgramme lines => w8 lines.length ++ wZero 1 ++ lines.flatMap wayLineBytes
  | .wayLandmarks lines => w8 lines.length ++ wZero 1 ++ lines.flatMap landLineBytes
  | .lobbyProgramme time day lines =>
    w16 time ++ w16 day ++ w8 lines.length ++ wZero 1 ++ lines.flatMap lobbyLineBytes
  | .notice lines dest => lines.flatMap (fun t => wText t 40) ++ arrowBytes dest ++ wZero 2
  | .screenMuster lines drill =>
    w8 (if lines = [] then 1 else 0) ++ w8 (flagNat drill) ++ w8 lines.length ++ wZero 1 ++ lines.flatMap musterLineBytes

/-- The block count of a page: its body's length over 48, rounded up (R107). -/
def blockCount (b : Body) : Nat := ((bodyBytes b).length + 47) / 48

/-- The 48 bytes of block `k` from 1; after the end of the body they are 0 (R131, R192). -/
def blockBytes (b : Body) (k : Nat) : List Byte := wText ((bodyBytes b).drop (48 * (k - 1))) 48

/-! ## Frames (R125, R127, R196) -/

/-- A frame: start byte, address, kind, length, payload, CRC low byte first (R125). -/
def frameBytes (address kind : Nat) (payload : List Byte) : List Byte :=
  let covered := w8 address ++ w8 kind ++ w8 payload.length ++ payload
  w8 0xD3 ++ covered ++ w16 (crc16 covered).toNat

/-- CALL (R127). -/
def callFrame (station : Nat) : List Byte := frameBytes (addressOf station) 0x01 []

/-- PAGE_HEAD of a page being sent (R127, R196). -/
def headFrame (station : Nat) (p : SentPage) : List Byte :=
  frameBytes (addressOf station) 0x02
    (w16 p.serial.toNat ++ w8 (pageKindCode (bodyKind p.page.body)) ++ w8 (blockCount p.page.body)
      ++ w8 (flagNat p.full) ++ w16 p.page.musterSerial.toNat)

/-- PAGE_BLOCK `k` of a page being sent (R127, R196). -/
def blockFrame (station : Nat) (p : SentPage) (k : Nat) : List Byte :=
  frameBytes (addressOf station) 0x03 (w8 k ++ blockBytes p.page.body k)

/-- The frame a transaction has sent and waits on (R129, R130, R131). -/
def txnFrame (t : Txn) : List Byte :=
  match t.transfer with
  | none => callFrame t.station
  | some (p, 0) => headFrame t.station p
  | some (p, k) => blockFrame t.station p k

/-! ## Line timing (R124, R126) -/

/-- One byte on the line takes 10 µs (R124). -/
def bytePeriods : Nat := 10 * Config.periodsPerUs

/-- The reply window: 3 ms from the end of the frame's last stop bit (R126). -/
def windowPeriods : Nat := 3 * Config.periodsPerMs

/-- The time of a transaction's frame and its reply window. -/
def framePeriods (t : Txn) : Nat := (txnFrame t).length * bytePeriods + windowPeriods

/-- A transaction's time with its frame just begun: the frame and the reply window. -/
def startFrame (t : Txn) : Txn := { t with left := framePeriods t }

/-- A transaction's time when its next frame waits for the 30 µs of idle line first (R124). -/
def startNextFrame (t : Txn) : Txn := { t with left := idlePeriods + framePeriods t }

/-- May an answer be taken: the reply window is open, or closed with an answer still coming in (R126)? -/
def windowOpen (t : Txn) : Bool := decide (t.left ≤ windowPeriods) && (decide (t.left ≠ 0) || t.coming.isSome)

/-- Has the reply window closed with no start byte received (R126)? -/
def windowClosed (t : Txn) : Bool := decide (t.left = 0) && t.coming.isNone

/-- The longest time an answer can take: 261 bytes, as many as a length byte of 255 calls for, with a gap just short of the
30 µs that would end it before each (R124, R126, log 38). -/
def longestAnswer : Nat := 261 * (bytePeriods + idlePeriods)

/-- DIR is high while the frame is on the line (R124). -/
def dirHigh (t : Txn) : Bool := decide (windowPeriods < t.left) && decide (t.left ≤ framePeriods t)

/-- The levels of one byte on the line: a start bit, the 8 data bits from the least significant, a stop bit; no parity
(R124). The spec names no logic level: a start bit of 0, a stop bit of 1 and a data bit at its own value are PRESUMED, the
UART convention (log 49). -/
def byteLevels (b : Byte) : List Bool := false :: (List.range 8).map b.getLsbD ++ [true]

/-- One bit at 1 Mbit/s takes 1 µs (R124). -/
def bitPeriods : Nat := Config.periodsPerUs

/-- The level of TXD: the bit of the frame that is on the line, and the idle level while DIR is low (R124). That the idle
level is 1 is PRESUMED (log 49). -/
def txdLevel (l : LineCtl) : Bool :=
  match l.txn with
  | some t =>
    if dirHigh t then ((txnFrame t).flatMap byteLevels).getD ((framePeriods t - t.left) / bitPeriods) true else true
  | none => true

/-- The level of DIR (R124). -/
def dirLevel (l : LineCtl) : Bool := l.txn.any dirHigh

/-! ## Judging an answer (R126, R127, R129 to R131) -/

/-- What an answer is to the transaction it answers. -/
inductive Answer where
  | state (flags : Byte) (serial : Word16) (service assist : Byte)
  | taken
  | heldOff
  | discarded
  deriving DecidableEq, Repr

/-- The payload of an answer is whole when its length byte is that of its kind and every byte came (R126, R127). -/
def answerWhole (bs : List Byte) (n : Nat) : Bool := u8 bs 3 == n && bs.length == n + 6

/-- The judgement of the bytes received from a start byte on, for a poll or for a page frame (R126, R129, R130, R131):
whole, of its kind's length, correct CRC, the address called, a kind the frame allows. -/
def classifyAnswer (poll : Bool) (address : Nat) (bs : List Byte) : Answer :=
  let covered := (bs.drop 1).take (3 + u8 bs 3)
  let crcOk := decide (u16 bs (4 + u8 bs 3) = (crc16 covered).toNat)
  if !(u8 bs 0 == 0xD3 && u8 bs 1 == address && crcOk) then .discarded
  else if u8 bs 2 = 0x81 then
    if poll && answerWhole bs 5 then
      .state (byteAt bs 4) (BitVec.ofNat 16 (u16 bs 5)) (byteAt bs 7) (byteAt bs 8)
    else .discarded
  else if u8 bs 2 = 0x82 then if !poll && answerWhole bs 0 then .taken else .discarded
  else if u8 bs 2 = 0x83 then if !poll && answerWhole bs 0 then .heldOff else .discarded
  else .discarded

/-- Has an answer, its start byte included, all the bytes that its length byte calls for (R125, R126)? -/
def answerEnds (got : List Byte) : Bool := decide (4 ≤ got.length) && decide (got.length = u8 got 3 + 6)

/-- The bytes of an answer after those already received: it ends with its CRC, or at an idle gap of 30 µs; what follows is
no part of it (R126). Each byte received comes with the idle time before it. -/
def takeAnswer (got : List Byte) : List (Nat × Byte) → List Byte
  | [] => got
  | (gap, b) :: rest =>
    if idlePeriods ≤ gap then got
    else if answerEnds (got ++ [b]) then got ++ [b]
    else takeAnswer (got ++ [b]) rest

/-- The answer in the bytes received in a reply window: it begins with the first start byte, and there is none without
one (R126). -/
def answerIn (received : List (Nat × Byte)) : Option (List Byte) :=
  match received.dropWhile fun e => e.2 != 0xD3#8 with
  | [] => none
  | (_, b) :: rest => some (takeAnswer [b] rest)

/-- The command that an answer's bytes bring about on a line with this transaction in flight. -/
def answerCommand (line : Nat) (t : Txn) (bs : List Byte) : Instr :=
  match classifyAnswer t.transfer.isNone (addressOf t.station) bs with
  | .state flags serial service assist => .stateAnswer line flags serial service assist
  | .taken =>
    match t.transfer with
    | some (_, 0) => .takenToPageHead line
    | _ => .takenToPageBlock line
  | .heldOff => .heldOff line
  | .discarded => .answerDiscarded line

/-- The command that the bytes received in a reply window bring about (R126). -/
def receivedCommand (line : Nat) (t : Txn) (received : List (Nat × Byte)) : Instr :=
  match answerIn received with
  | some bs => answerCommand line t bs
  | none => .replyWindowTimeout line

end Sys2Proof.Machine
end

