-- ==== Sys2Proof/Machine/Exchange.lean ====
section
/-! DEFINITION. The Exchange Unit's shared operations: the report block and status records (R183, R184, R186, R195), the
steps of a survey (R181, R182), and the run state (R143, R188, R189). -/

namespace Sys2Proof.Machine

/-! ## Contents (R184, R186) -/

/-- The report block's fields as the part stands (R184). -/
def reportFields (s : State) : ReportFields :=
  { applied := s.xu.applied, settled := s.xu.settled, settle := s.xu.settle
    musterState := s.msc.state, musterKind := s.msc.kind, musterSerial := s.msc.serial, tally := tally s
    outcome := s.msc.outcome, reserve := s.msc.reserve, halted := decide (s.xu.runState = .halted)
    configured := s.sms.stations.length, online := statusCount s .online, doubtful := statusCount s .doubtful
    lost := statusCount s .lost, attention := attentionCount s, slotsInUse := slotsInUse s.rsv
    waitingLength := s.rsv.waiting.length, offset := s.pgu.offset, epoch := s.sms.epoch, second := s.clk.second
    counters := s.xu.counters, lastFault := s.xu.lastFault }

/-- The status record of an ABSENT station: confirmed kind NONE, every other field 0 (R186). -/
def absentStatus : StatusRec :=
  { status := .absent, misses := 0, desired := 0, confirmed := 0, confKind := none, dnd := false, fault := false
    busy := false, pendingService := 0, pendingAssist := 0, serviceTally := 0, assistTally := 0, errors := 0
    lastHeard := 0 }

/-- The door-service fields a status record shows; 0 for a station that is no CABIN (R186). -/
def doorStatus (d : Option DoorRec) : Nat × Nat × Nat × Nat :=
  match d with
  | some d => (pendingService d, pendingAssist d, d.serviceTally.toNat, d.assistTally.toNat)
  | none => (0, 0, 0, 0)

/-- The status record of a station number as the part stands (R186). -/
def statusRec (s : State) (x : Nat) : StatusRec :=
  if tblHas s.sms.stations x then
    let r := lineRec s.lcs x
    let d := doorStatus r.door
    { status := lineStatus s x, misses := r.misses, desired := desiredSerial s.pco x, confirmed := r.confSerial
      confKind := r.confKind, dnd := r.dnd, fault := r.fault, busy := r.busy
      pendingService := d.1, pendingAssist := d.2.1, serviceTally := d.2.2.1, assistTally := d.2.2.2
      errors := r.errors
      lastHeard := match r.lastHeard with
        | some v => v.toNat
        | none => 0 }
  else absentStatus

/-! ## Layouts (R192, R195) -/

/-- A two-byte index whose "none" is 0xFFFF (R192). -/
def wIndex (n : Option Nat) : List Byte := w16 (n.getD 0xFFFF)

/-- The 256 bytes of a report block (R195). -/
def reportBytes (serial : Word32) (f : ReportFields) : List Byte :=
  w32 serial.toNat ++ w32 f.applied.toNat ++ w32 f.settled.toNat ++ w8 (settleOutcomeCode f.settle.outcome)
    ++ w8 (reasonCode f.settle.reason) ++ wIndex f.settle.entry ++ wIndex f.settle.record
    ++ w8 (musterStateCode f.musterState) ++ w8 (musterKindCode f.musterKind) ++ w16 f.musterSerial.toNat
    ++ w16 f.tally ++ w8 (orderOutcomeCode f.outcome) ++ w8 (flagNat f.reserve) ++ w8 (flagNat f.halted) ++ wZero 1
    ++ w16 f.configured ++ w16 f.online ++ w16 f.doubtful ++ w16 f.lost ++ w16 f.attention ++ w8 f.slotsInUse
    ++ wZero 1 ++ w16 f.waitingLength ++ wInt16 f.offset ++ w32 f.epoch.toNat ++ w32 f.second.toNat
    ++ w16 f.counters.fetchFailed ++ w16 f.counters.reportWrite ++ w16 f.counters.lineCrc ++ w16 f.counters.transferFail
    ++ w16 f.counters.claimWait ++ w16 f.counters.unlistedExit ++ w16 f.counters.lostPresses ++ w16 f.counters.rejected
    ++ w8 (faultKindCode f.lastFault.kind) ++ wZero 1 ++ wIndex f.lastFault.subject ++ w32 f.lastFault.second.toNat
    ++ wZero 176 ++ w32 serial.toNat

/-- The 32 bytes of a station status record (R195). -/
def statusBytes (r : StatusRec) : List Byte :=
  w8 (lineStatusCode r.status) ++ w8 r.misses ++ w16 r.desired.toNat ++ w16 r.confirmed.toNat
    ++ w8 (confKindCode r.confKind) ++ w8 (flagNat r.dnd + 2 * flagNat r.fault + 4 * flagNat r.busy)
    ++ w8 r.pendingService ++ w8 r.pendingAssist ++ w8 r.serviceTally ++ w8 r.assistTally ++ w8 r.errors ++ wZero 3
    ++ w32 r.lastHeard ++ wZero 12

/-! ## Where the exchange area's regions lie (R180) -/

/-- The publish word. -/
def publishOffset : Nat := 0x0400
/-- The live words. -/
def liveOffset : Nat := 0x0440
/-- The report block. -/
def reportOffset : Nat := 0x0800
/-- The acknowledge array. -/
def ackOffset : Nat := 0x1000
/-- The status record of a station number, one of 496 records of 32 bytes. -/
def statusOffset (x : Nat) : Nat := 0x2000 + 32 * x

/-- A bus address: an offset from a base. -/
def areaAddress (base : Word64) (offset : Nat) : Word64 := base + BitVec.ofNat 64 offset

/-- One write on the bus: where it goes, and its bytes. -/
structure BusWrite where
  address : Word64
  bytes : List Byte
  deriving DecidableEq, Repr

/-- One read on the bus: where it lies, and how many bytes. -/
structure BusRead where
  address : Word64
  size : Nat
  deriving DecidableEq, Repr

/-- The writes of a report block in the order they are issued: the leading serial, the body, the trailing serial (R180,
R183). -/
def reportParts (w : ReportWrite) : List BusWrite :=
  let bs := reportBytes w.serial w.fields
  [ { address := areaAddress w.base reportOffset, bytes := bs.take 4 }
  , { address := areaAddress w.base (reportOffset + 4), bytes := (bs.drop 4).take 248 }
  , { address := areaAddress w.base (reportOffset + 252), bytes := bs.drop 252 } ]

/-- The one write of a station status record (R180, R186). -/
def statusPart (base : Word64) (x : Nat) (r : StatusRec) : BusWrite :=
  { address := areaAddress base (statusOffset x), bytes := statusBytes r }

/-- The writes the Exchange Unit has in progress (R183, R186). -/
def busWrites (x : XuState) : List BusWrite :=
  (match x.reportWrite with
    | some w => reportParts w
    | none => [])
  ++ match x.survey with
    | some (.status n content _) => [statusPart x.surveyBase n content]
    | _ => []

/-- The read the survey in progress waits for, if it was issued (R180, R181, R182). -/
def surveyBusRead (x : XuState) : Option BusRead :=
  match x.survey with
  | some (.publish true _) => some { address := areaAddress x.surveyBase publishOffset, size := 8 }
  | some (.live true _) => some { address := areaAddress x.surveyBase liveOffset, size := 12 }
  | some (.acks true _) => some { address := areaAddress x.surveyBase ackOffset, size := 1984 }
  | _ => none

/-! ## Writes and surveys (R181, R183, R186) -/

/-- The time a bus read or write may take: 50 ms (R182, R183). -/
def busPeriods : Nat := 50 * Config.periodsPerMs

/-- What the Exchange Unit holds of a status record. -/
def statusHold (x : XuState) (n : Nat) : StatusHold := tblGetD x.status n resetHold

/-- Does a status record need writing at step 4 (R186)? -/
def statusDue (s : State) (n : Nat) : Bool :=
  let h := statusHold s.xu n
  h.mark || decide (h.written ≠ some (statusRec s n))

/-- Set or clear a status record's to-write mark. -/
def markStatus (n : Nat) (b : Bool) (x : XuState) : XuState :=
  { x with status := tblPut x.status n { statusHold x n with mark := b } }

/-- Every status record and the report block marked to be written whole (R177). -/
def markAll (x : XuState) : XuState :=
  { x with reportMark := true, status := tblMap (fun _ h => { h with mark := true }) x.status }

/-- The survey countdown's period (R178, R181). -/
def surveyPeriods (x : XuState) : Nat := x.interval * Config.periodsPerMs

/-- Does a read of `len` bytes at an offset lie in a span of so many MiB (R165, R182)? -/
def inSpan (span off len : Nat) : Bool := decide (off + len ≤ span * 1048576)

/-- A survey begins with its read of the publish word, or is marked pending while one runs (R181). -/
def beginSurvey (x : XuState) : XuState :=
  match x.survey with
  | some _ => { x with surveyPending := true }
  | none => { x with survey := some (.publish (inSpan x.span publishOffset 8) busPeriods), surveyBase := x.base }

/-- The survey in progress ends; a pending one begins, while RUNNING with a valid base (R181). -/
def endSurvey (x : XuState) : XuState :=
  let y := { x with survey := none, surveyPending := false }
  if x.surveyPending ∧ x.runState = .running ∧ baseValid x = true then beginSurvey y else y

/-- The lowest station number at or above `n` whose status record needs writing (R186, log 19). -/
def nextStatus (s : State) (n : Nat) : Option Nat :=
  (List.range Config.stationCount).find? fun x => decide (n ≤ x) && statusDue s x

/-- Step 4 of a survey from station `n` on: the next status record's write begins, or the report block's turn comes
(R181, R186). With no valid base the writes not yet issued are dropped (R183). DESIGN CHOICE (log 52): a record that a change
of the base marks while a survey is in progress is written by that survey's step 4, where it still comes. -/
def surveyWrites (n : Nat) (s : State) : State :=
  { s with
    xu :=
      if baseValid s.xu then
        match nextStatus s n with
        | some x =>
          markStatus x false
            { s.xu with survey := some (.status x (statusRec s x) busPeriods), surveyBase := s.xu.base }
        | none => { s.xu with survey := some .report }
      else endSurvey s.xu }

/-- Is the block's to-write mark left as it is by a write for this reason? Only the survey's write answers the mark (R183,
log 18). -/
def keepsMark : WriteReason → Bool
  | .survey => false
  | _ => true

/-- A report write begins: its serial rises, its content is taken, and it records the causes that wait (R183, R187). DESIGN
CHOICE (log 57): all its parts go to the base held here, also where XBASE_LO changes one valid base for another meanwhile; so
does a status write's. DESIGN CHOICE (log 60): after 4,294,967,295 the 32-bit report serial is 0. -/
def beginReport (fields : ReportFields) (reason : WriteReason) (x : XuState) : XuState :=
  { x with
    reportSerial := x.reportSerial + 1, reportMark := x.reportMark && keepsMark reason, waiting := 0
    reportWrite := some { base := x.base, fields, serial := x.reportSerial + 1, reason, covers := x.waiting, left := busPeriods } }

/-- With no report write in progress, the next one due begins: first those due at once, in the order they came due,
then the survey's when its content has changed or it is marked (R183). DESIGN CHOICE (log 55): a survey's write that waits
behind one in progress also waits for the immediate writes that come due after it. DESIGN CHOICE (log 52): a block that a
failed write or a change of the base marks while a survey is in progress is written at that survey's step 4, as at the next
survey. -/
def startReports (fields : ReportFields) (x : XuState) : XuState :=
  match x.reportWrite with
  | some _ => x
  | none =>
    if baseValid x then
      match x.reportDue with
      | reason :: rest => beginReport fields reason { x with reportDue := rest }
      | [] =>
        match x.survey with
        | some .report =>
          if x.reportMark ∨ x.reportLast ≠ some fields then beginReport fields .survey x else endSurvey x
        | _ => x
    else
      let y := { x with reportDue := [] }
      match y.survey with
      | some .report => endSurvey y
      | _ => y

/-- The report writes that a command made due begin at its end, with the state as the command leaves it (log 17). -/
def flush (s : State) : State := { s with xu := startReports (reportFields s) s.xu }

/-- A report write has ended: HALTED is latched after the halt's, whether it succeeded or failed (R183, R188), and the
survey whose step 4 it was ends. -/
def reportEnded (w : ReportWrite) (x : XuState) : XuState :=
  match w.reason with
  | .immediate => x
  | .halt => latch .halted x
  | .survey => endSurvey x

/-! ## Run and halt (R143, R188, R189) -/

/-- A Line Controller is asked to run (R143). -/
def lineRun (l : LineCtl) : LineCtl := { l with service := .inService }

/-- A Line Controller is asked to stop: silent at once, or after its transaction in flight (R143). -/
def lineStop (l : LineCtl) : LineCtl :=
  match l.txn with
  | some _ => { l with service := if l.service = .silent then .silent else .finishing }
  | none => { l with service := .silent, silence := none }

/-- All eight lines. -/
def allLines (f : LineCtl → LineCtl) (l : LcsState) : LcsState := { l with lines := l.lines.map f }

/-- A survey begins at once and the countdown starts, while a base is valid (R181, R188). -/
def startSurveys (x : XuState) : XuState :=
  if baseValid x then { beginSurvey x with countdown := some (surveyPeriods x) } else x

/-- The last fault becomes NO_BASE and FAULT is latched (R185, R189). -/
def noBase (second : Word32) (x : XuState) : XuState := recordFault .noBase none second 0 x

/-- The state RUNNING is entered: the lines are asked to run, and the surveys start (R188). -/
def enterRunning (s : State) : State :=
  { s with
    lcs := allLines lineRun s.lcs
    xu :=
      let x := startSurveys { s.xu with runState := .running }
      if baseValid x then x else noBase s.clk.second x }

/-- A run request (R188). -/
def runRequest (s : State) : State :=
  match s.xu.runState with
  | .running => s
  | .halting => enterRunning s
  | .halted => if baseValid s.xu then enterRunning s else { s with xu := noBase s.clk.second s.xu }

/-- What an accepted muster call asks of the run state (R78, R188, R189). At a resume from HALTED MUSTER is latched at
once (R187, log 20). -/
def musterResume (s : State) : State :=
  match s.xu.runState with
  | .running => s
  | .halting =>
    let t := enterRunning s
    { t with xu := latch .haltRefused t.xu }
  | .halted =>
    let t := runRequest s
    { t with xu := latch .muster t.xu }

/-- A halt begins: the countdown stops, the pending flag clears, the lines are asked to stop (R188). -/
def beginHalt (s : State) : State :=
  { s with
    xu := { s.xu with runState := .halting, countdown := none, surveyPending := false }
    lcs := allLines lineStop s.lcs }

/-- A halt request (R188). -/
def haltRequest (s : State) : State :=
  match s.xu.runState with
  | .running => if s.msc.state = .standby then beginHalt s else { s with xu := latch .haltRefused s.xu }
  | _ => s

/-- Has everything that a halt waits for ended (R188)? -/
def haltReady (s : State) : Bool :=
  decide (s.xu.runState = .halting) && s.xu.stage.isNone && s.xu.survey.isNone
    && s.lcs.lines.all fun l => decide (l.service = .silent)

/-- A halt completes: the state becomes HALTED and the report is written with halted 1; with no valid base HALTED is
latched at once (R187, R188). -/
def completeHalt (s : State) : State :=
  let x := { s.xu with runState := .halted }
  { s with xu := if baseValid x then reportNow .halt x else latch .halted x }

/-! ## Register reads (R175 to R179) -/

/-- A read of BAR0: the register's fields, 0 at any other offset or size, and 0 while a reset holds the part (R175). -/
def readReg (s : State) (offset size : Nat) : Word32 :=
  if s.phase ≠ .operating ∨ size ≠ 4 then 0
  else if offset = 0x00 then
    BitVec.ofNat 32 (flagNat (decide (s.xu.runState ≠ .halted)) + 4 * flagNat (decide (s.xu.runState = .halting))
      + 256 * s.xu.enables.toNat)
  else if offset = 0x04 then BitVec.ofNat 32 s.xu.causes.toNat
  else if offset = 0x08 then (s.xu.base.extractLsb' 0 32 &&& 0xFFFFF000#32) ||| BitVec.ofNat 32 s.xu.span
  else if offset = 0x0C then s.xu.pendingHi
  else if offset = 0x10 then BitVec.ofNat 32 s.xu.interval
  else if offset = 0x14 then
    BitVec.ofNat 32 (musterStateCode s.msc.state + 16 * musterKindCode s.msc.kind
      + 256 * orderOutcomeCode s.msc.outcome + 65536 * (s.msc.serial.toNat % 256))
  else 0

/-- The commands a write of BAR0 brings about, in order (R175, R176, R179): a CONTROL write is a function reset, or its
enables and then its RUN. -/
def writeCommands (offset size : Nat) (value : Word32) : List Instr :=
  if size ≠ 4 then [.unmappedAccess offset size (value.zeroExtend 64)]
  else if offset = 0x00 then
    if value.getLsbD 1 then [.functionReset .controlWrite]
    else [.causeEnablesWrite (value.extractLsb' 8 7), if value.getLsbD 0 then .runRequest else .haltRequest]
  else if offset = 0x04 then [.causeClear value]
  else if offset = 0x08 then [.xbaseLoWrite value]
  else if offset = 0x0C then [.xbaseHiWrite value]
  else if offset = 0x10 then [.surveyWrite value]
  else if offset = 0x14 then
    let code := value.extractLsb' 0 4
    if code = 1 then [.callReal] else if code = 2 then [.callDrill] else if code = 3 then [.standDown]
    else [.badOrder code]
  else [.unmappedAccess offset size (value.zeroExtend 64)]

end Sys2Proof.Machine
end

