-- ==== Sys2Proof/Machine/Rotation.lean ====
section
/-! DEFINITION. Rotations and interjections (R110 to R123): the walk, step boundaries, showing out of sequence, activity
and dueness, the restart at a commit and the resume at the return to STANDBY. The functions act on one station's
rotation state; a screen's countdown runs only in STANDBY (R121). -/

namespace Sys2Proof.Machine

/-! ## The walk (R111) -/

/-- Seconds as reference periods. -/
def secondsOf (n : Nat) : Nat := n * Config.periodsPerSecond

/-- The next step index: after 7 comes 0 (R111). -/
def nextIndex (i : Nat) : Nat := if 7 ≤ i then 0 else i + 1

/-- The walk of R111 from an index: the landed index and the loop counters. The first argument bounds the number of
indices taken (log 27). -/
def walk (steps : List RotStep) : Nat → Nat → List Nat → Nat × List Nat
  | 0, i, loops => (i, loops)
  | n + 1, i, loops =>
    match steps.getD i .empty with
    | .empty => walk steps n (nextIndex i) loops
    | .loop target count =>
      if 0 < loops.getD i 0 then walk steps n target (loops.set i (loops.getD i 0 - 1))
      else walk steps n (nextIndex i) (loops.set i count)
    | .programme _ => (i, loops)
    | .landmarks _ => (i, loops)
    | .notice _ _ => (i, loops)

/-- More indices than any walk takes: six LOOP steps of 16 passes each between two dwell steps (log 27). -/
def walkFuel : Nat := 1073741824

/-- The steps of a rotation. -/
def rotSteps (rotations : Tbl RotationRec) (rotation : Nat) : List RotStep :=
  match tblGet rotations rotation with
  | some r => r.steps
  | none => []

/-- The dwell of a step, in reference periods. -/
def dwellOf (steps : List RotStep) (i : Nat) : Nat := secondsOf ((stepDwell (steps.getD i .empty)).getD 0)

/-- Every LOOP counter at its step's loop_count, 0 at the others (R112). -/
def fullLoops (steps : List RotStep) : List Nat :=
  (List.range 8).map fun i =>
    match steps.getD i .empty with
    | .loop _ count => count
    | _ => 0

/-! ## Showing (R118, R120) -/

/-- The lowest-index interjection due at a station (R118). -/
def lowestDue (r : RotState) : Option Nat := (List.range 16).find? fun i => r.due.getD i false

/-- Show interjection `i` at minute `now` (R118); a hold interjection loads no countdown (R120). -/
def showInterj (interjections : Tbl InterjRec) (now i : Nat) (r : RotState) : RotState :=
  let countdown := match tblGet interjections i with
    | some j => if j.hold then none else some (secondsOf j.dwell)
    | none => none
  { r with
    position := .interj i, countdown
    due := r.due.set i false, lastShown := r.lastShown.set i (some now) }

/-- Leave an interjection: to the resume step with its time, or to DEFAULT (R118). -/
def leaveInterj (r : RotState) : RotState :=
  match r.resume with
  | some (step, time) => { r with position := .step step, countdown := some time, resume := none }
  | none => { r with position := .default, countdown := none }

/-- The step boundary at the end of an interjection: the lowest due one, or the return (R118). DESIGN CHOICE (log 58): where a
commit begins a new activation of the interjection shown while one of lower index is due, R119 has the first shown afresh at
that boundary and R118 the second; the lower index is shown, and the other stays due for the next boundary. -/
def interjBoundary (interjections : Tbl InterjRec) (now : Nat) (r : RotState) : RotState :=
  match lowestDue r with
  | some i => showInterj interjections now i r
  | none => leaveInterj r

/-- The step boundary at the end of STEP `s`: the advance is taken, and either shown or kept as the resume step while
the lowest due interjection is shown (R112, R118). -/
def stepBoundary (rotations : Tbl RotationRec) (interjections : Tbl InterjRec) (now s : Nat) (r : RotState) : RotState :=
  let steps := rotSteps rotations r.rotation
  let landed := walk steps walkFuel (nextIndex s) r.loops
  match lowestDue r with
  | none =>
    { r with position := .step landed.1, countdown := some (dwellOf steps landed.1), loops := landed.2 }
  | some i =>
    showInterj interjections now i { r with loops := landed.2, resume := some (landed.1, dwellOf steps landed.1) }

/-- A station at DEFAULT shows a due interjection at once (R118). DESIGN CHOICE (log 59): a station with rotation 0 that shows
an interjection is not at DEFAULT, and one that becomes due there waits for the end of the showing, although R118 counts every
instant as a boundary of such a station. -/
def defaultShow (interjections : Tbl InterjRec) (now : Nat) (r : RotState) : RotState :=
  match r.position with
  | .default =>
    match lowestDue r with
    | some i => showInterj interjections now i r
    | none => r
  | _ => r

/-! ## Start and restart (R112, R113) -/

/-- A rotation state before its start: nothing due, nothing shown (R110, R113). -/
def freshRot (rotation : Nat) : RotState :=
  { rotation, position := .default, countdown := none, loops := List.replicate 8 0, resume := none
    due := List.replicate 16 false, lastShown := List.replicate 16 none }

/-- Where a rotation other than 0 starts: the walk from step 0 with every counter full (R112). -/
def startWalk (steps : List RotStep) : Nat × List Nat := walk steps walkFuel 0 (fullLoops steps)

/-- Start or restart a rotation (R112, R113): a station on an interjection stays on it with a new resume step. -/
def startRot (rotations : Tbl RotationRec) (rotation : Nat) (r : RotState) : RotState :=
  let steps := rotSteps rotations rotation
  if rotation = 0 then
    match r.position with
    | .interj _ => { r with rotation, loops := fullLoops steps, resume := none }
    | _ => { r with rotation, loops := fullLoops steps, position := .default, countdown := none, resume := none }
  else
    let landed := startWalk steps
    let dwell := dwellOf steps landed.1
    match r.position with
    | .interj _ => { r with rotation, loops := landed.2, resume := some (landed.1, dwell) }
    | _ => { r with rotation, loops := landed.2, position := .step landed.1, countdown := some dwell, resume := none }

/-! ## Activity and dueness (R116, R117, R119) -/

/-- The interjections in their window at a minute, by index (R116). -/
def activeAt (interjections : Tbl InterjRec) (now : Nat) : List Nat :=
  (interjections.filter fun e => decide (e.2.start ≤ now) && decide (now < e.2.stop)).map Prod.fst

/-- Does an interjection select a station's tag (R117)? -/
def tagSelects (j : InterjRec) (st : StationRec) : Bool :=
  decide (st.kind ≠ .cabin) && decide (st.tag &&& j.tagMask = j.tagValue &&& j.tagMask)

/-- What one minute event or commit does to the set of active interjections (R116): the set before and after, and the
records the commit changed. -/
structure Activity where
  before : List Nat
  after : List Nat
  changed : List Nat
  deriving DecidableEq, Repr

/-- Does the activation of `i` end (R116)? -/
def actEnds (a : Activity) (i : Nat) : Bool := a.before.contains i && (!a.after.contains i || a.changed.contains i)

/-- Does an activation of `i` begin (R116)? -/
def actBegins (a : Activity) (i : Nat) : Bool := a.after.contains i && (!a.before.contains i || a.changed.contains i)

/-- Has the period of `i` run out at the station (R117)? -/
def periodDue (j : InterjRec) (now : Nat) (last : Option Nat) : Bool :=
  match last with
  | none => false
  | some m => decide (0 < j.period) && (decide (m + j.period ≤ now) || decide (now < m))

/-- The due flag of `i` at a station after an event (R117). `wasSelected` says whether `i` selected the station before
it; a station newly configured was not. DESIGN CHOICE (log 48): an interjection that commits of one activation deselect and
select again becomes due, by the second bullet of R117, a hold one against the last sentence of R120, and one of period 0
against "once per activation" in R117. -/
def dueAfter (interjections : Tbl InterjRec) (a : Activity) (now : Nat) (st : StationRec) (wasSelected : Nat → Bool)
    (r : RotState) (i : Nat) : Bool :=
  match tblGet interjections i with
  | none => false
  | some j =>
    a.after.contains i && tagSelects j st
      && ((r.due.getD i false && !actEnds a i) || actBegins a i || !wasSelected i
        || (decide (r.position ≠ .interj i) && periodDue j now (r.lastShown.getD i none)))

/-- Does the showing at a station end at this event (R119)? -/
def showingEnds (interjections : Tbl InterjRec) (a : Activity) (st : StationRec) (r : RotState) : Bool :=
  match r.position with
  | .interj i =>
    match tblGet interjections i with
    | none => true
    | some j => actEnds a i || !a.after.contains i || !tagSelects j st
  | _ => false

/-- Activity and dueness taken at one station (R117, R118, R119); in muster nothing is shown (R121). -/
def takeActivity (interjections : Tbl InterjRec) (a : Activity) (now : Nat) (standby : Bool) (st : StationRec)
    (wasSelected : Nat → Bool) (r : RotState) : RotState :=
  let q := { r with due := (List.range 16).map (dueAfter interjections a now st wasSelected r) }
  let left :=
    if showingEnds interjections a st r then
      if standby then interjBoundary interjections now q else leaveInterj q
    else q
  if standby then defaultShow interjections now left else left

/-! ## Minute events (R116, R117) -/

/-- Interjection activity at a minute event: the rotation states and the active set after it. -/
def minuteRots (s : State) : PcoState :=
  let now := voyageMinute s.clk
  let a : Activity := { before := s.pco.active, after := activeAt s.pco.interjections now, changed := [] }
  { s.pco with
    active := a.after
    rots := tblMap (fun x r =>
      match tblGet s.sms.stations x with
      | some st =>
        takeActivity s.pco.interjections a now (decide (s.msc.state = .standby)) st
          (fun _ => true) r
      | none => r) s.pco.rots }

/-- Stations whose rotation position two states tell apart, or that show an interjection afresh: they are marked
(R95, R110). -/
def movedStations (before after : Tbl RotState) : List Nat :=
  (tblKeys after).filter fun x =>
    match tblGet before x, tblGet after x with
    | some r, some q => decide (r.position ≠ q.position) || decide (r.lastShown ≠ q.lastShown)
    | _, _ => false

/-! ## The return to STANDBY (R122) -/

/-- A stopped rotation goes on at the return to STANDBY (R121, R122). DESIGN CHOICE (log 59): a station with rotation 0 that
stands on an interjection with time left goes on with it, and a due one waits, as at any other time. -/
def resumeRot (rotations : Tbl RotationRec) (interjections : Tbl InterjRec) (now : Nat) (r : RotState) : RotState :=
  match r.position with
  | .default => defaultShow interjections now r
  | .step s =>
    match lowestDue r with
    | some i => showInterj interjections now i { r with resume := some (s, r.countdown.getD 0) }
    | none => if r.countdown = some 0 then stepBoundary rotations interjections now s r else r
  | .interj _ => if r.countdown = some 0 then interjBoundary interjections now r else r

/-- Every screen's rotation at the return to STANDBY (R122). -/
def resumeRots (s : State) : PcoState :=
  { s.pco with
    rots := tblMap (fun _ r => resumeRot s.pco.rotations s.pco.interjections (voyageMinute s.clk) r) s.pco.rots }

end Sys2Proof.Machine
end

