-- ==== Sys2Proof/Machine/Muster.lean ====
section
/-! DEFINITION. The Muster Controller's operations on the whole part (R65 to R88): calls, escalations, the completion and
level tests, stand-down, the return to STANDBY, and the reserve regime. Every one changes the solver, the Muster
Controller, the Page Composer, the lines and the Exchange Unit at most. -/

namespace Sys2Proof.Machine

/-- Take the blocks that a muster event may change from `t`, and the rest from `s`. -/
def musterBlocks (t s : State) : State :=
  { s with rsv := t.rsv, msc := t.msc, pco := t.pco, lcs := t.lcs, xu := t.xu }

/-- The called timer and the stand-down hold timer: 60 s (R70, R74). -/
def minutePeriods : Nat := 60 * Config.periodsPerSecond

/-- A report block is written at once and its cause waits for that write (R76, R86, R172, R183, R187). -/
def reportCause (c : Cause) (s : State) : State := { s with xu := causeDue c (reportNow .immediate s.xu) }

/-- A change of muster state, kind or serial is told: every configured station is marked, the report block is written
at once, and MUSTER waits for it (R76, R95). -/
def announceMuster (s : State) : State := reportCause .muster (composeMarked (allStations s) s)

/-! ## The end of CALLED (R72) -/

/-- CALLED ends in MUSTERING: the called timer stops (R72). -/
def enterMustering (s : State) : State :=
  announceMuster { s with msc := { s.msc with state := .mustering, calledTimer := none } }

/-- In CALLED, has the tally reached the number of counted stations (R72)? -/
def tallyComplete (s : State) : Bool := decide (s.msc.state = .called) && decide (tally s = countedCount s)

/-- The test that follows a recount in CALLED (R72, R85). -/
def completeTest (s : State) : State :=
  let t := if tallyComplete s then enterMustering s else s
  { s with msc := t.msc, pco := t.pco, xu := t.xu }

/-! ## Calls and escalations (R70, R71, R73) -/

/-- What an accepted call does in the Muster Controller (R70, R71). -/
def calledMsc (k : MusterKind) (c : MscState) : MscState :=
  { c with
    state := .called, kind := k, serial := nextSerial c.serial, calledTimer := some minutePeriods, holdTimer := none }

/-- An accepted call (R70): from STANDBY the claims change and the map is built, from STANDING_DOWN both are kept. The
pages are composed after both, the part may resume (R78), and the tally is tested (R72). -/
def callMuster (k : MusterKind) (s : State) : State :=
  let called := { s with msc := calledMsc k s.msc }
  let built := if s.msc.state = .standby then recomputeMap (claimOp called) else called
  musterBlocks (completeTest (musterResume (mapNotices s.msc (announceMuster built)))) s

/-- What an escalation does in the Muster Controller (R73). -/
def escalatedMsc (c : MscState) : MscState :=
  { c with
    kind := .real, serial := nextSerial c.serial
    calledTimer := if c.state = .called then some minutePeriods else c.calledTimer }

/-- An escalation (R73). -/
def escalate (s : State) : State :=
  musterBlocks (completeTest (announceMuster { s with msc := escalatedMsc s.msc })) s

/-- A REAL call by the table of R69, without its outcome. -/
def realCall (s : State) : State :=
  match s.msc.state with
  | .standby => callMuster .real s
  | .standingDown => callMuster .real s
  | .called => if s.msc.kind = .real then s else escalate s
  | .mustering => if s.msc.kind = .real then s else escalate s

/-- The test of R66: under LEVEL an asserted alarm demands a REAL muster. -/
def levelTest (s : State) : State :=
  musterBlocks (if s.sms.settings.alarmSense = .level ∧ s.msc.alarm = some true then realCall s else s) s

/-- CALLED ends in MUSTERING, and that change of state is followed by the test of R66 (R66, R72). -/
def endCalled (s : State) : State := musterBlocks (levelTest (enterMustering s)) s

/-- A recount with the test that follows it in CALLED (R72, R85). -/
def recount (s : State) : State := musterBlocks (if tallyComplete s then endCalled s else s) s

/-! ## Register orders (R69, R74) -/

/-- Record the last order outcome (R69). -/
def withOutcome (o : OrderOutcome) (s : State) : State := { s with msc := { s.msc with outcome := o } }

/-- The outcome of CALL_REAL (R69). -/
def callRealOutcome (c : MscState) : OrderOutcome :=
  match c.state with
  | .standby => .accepted
  | .standingDown => .accepted
  | .called => if c.kind = .real then .ignored else .escalated
  | .mustering => if c.kind = .real then .ignored else .escalated

/-- The outcome of CALL_DRILL (R69). -/
def callDrillOutcome (c : MscState) : OrderOutcome :=
  match c.state with
  | .standby => .accepted
  | .standingDown => if c.kind = .real then .refusedDrillInReal else .accepted
  | .called => if c.kind = .real then .refusedDrillInReal else .ignored
  | .mustering => if c.kind = .real then .refusedDrillInReal else .ignored

/-- Is a stand-down refused while the alarm is asserted (R74)? -/
def alarmBlocks (s : State) : Bool :=
  decide (s.msc.kind = .real) && decide (s.sms.settings.alarmSense = .level) && decide (s.msc.alarm = some true)

/-- The outcome of STAND_DOWN (R69, R74). -/
def standDownOutcome (s : State) : OrderOutcome :=
  match s.msc.state with
  | .standby => .ignored
  | .standingDown => .ignored
  | .called => if alarmBlocks s then .refusedAlarmAsserted else .accepted
  | .mustering => if alarmBlocks s then .refusedAlarmAsserted else .accepted

/-- Order CALL_REAL (R69). Where it calls or escalates the kind is REAL after it, so the test of R66 finds nothing. -/
def orderCallReal (s : State) : State :=
  musterBlocks (realCall (withOutcome (callRealOutcome s.msc) s)) s

/-- Order CALL_DRILL (R69). -/
def orderCallDrill (s : State) : State :=
  let o := callDrillOutcome s.msc
  let t := withOutcome o s
  musterBlocks (if o = .accepted then levelTest (callMuster .drill t) else t) s

/-- What an accepted stand-down does in the Muster Controller (R74). -/
def stoodDownMsc (c : MscState) : MscState :=
  { c with state := .standingDown, calledTimer := none, holdTimer := some minutePeriods }

/-- Order STAND_DOWN (R69, R74). -/
def orderStandDown (s : State) : State :=
  let o := standDownOutcome s
  let t := withOutcome o s
  musterBlocks (if o = .accepted then levelTest (announceMuster { t with msc := stoodDownMsc t.msc }) else t) s

/-! ## The return to STANDBY (R75, R122, R155) -/

/-- The Muster Controller back in STANDBY (R75, R83). -/
def standbyMsc (c : MscState) : MscState := { c with state := .standby, kind := .none, holdTimer := none, map := none }

/-- The stations of a change of rotation position are marked (R95). -/
def markMoved (before : Tbl RotState) (s : State) : State := composeMarked (movedStations before s.pco.rots) s

/-- Attention at the return to STANDBY: one attention event when a line has a cabin with pending service (R155). -/
def raiseStandbyAttention (s : State) : State :=
  { s with
    lcs := standbyAttention s.lcs
    xu := if anyPendingService s.lcs then causeDue .attention s.xu else s.xu }

/-- STANDING_DOWN ends in STANDBY (R75): claims, map, attention and rotations, then the test of R66. -/
def returnToStandby (s : State) : State :=
  let back := raiseStandbyAttention (claimOp { s with msc := standbyMsc s.msc })
  let shown := { back with pco := resumeRots back }
  musterBlocks (levelTest (announceMuster (markMoved s.pco.rots shown))) s

/-! ## Shedding and the reserve regime (R86, R87, R142) -/

/-- Does a station become shed (R142)? -/
def shedCondition (s : State) (x : Nat) (r : LineRec) : Bool :=
  match tblGet s.sms.stations x with
  | none => false
  | some st =>
    excluded s st
      && (decide (r.confSerial = desiredSerial s.pco x)
            && decide ((desiredPage s.pco x).map Page.body = some .blank)
          || decide (lineStatus s x = .lost))

/-- The test of R142 at one station. -/
def shedAt (x : Nat) (s : State) : State :=
  let r := lineRec s.lcs x
  { s with lcs := if shedCondition s x r then setLineRec x { r with shed := true } s.lcs else s.lcs }

/-- The test of R142 at every station. -/
def shedTests (s : State) : State :=
  { s with
    lcs := { s.lcs with recs := tblMap (fun x r => if shedCondition s x r then { r with shed := true } else r) s.lcs.recs } }

/-- Shed is cleared at every station (R142). -/
def clearShed (l : LcsState) : LcsState := { l with recs := tblMap (fun _ r => { r with shed := false }) l.recs }

/-- The reserve regime begins (R86). -/
def reserveBegin (s : State) : State :=
  let held := { s with msc := { s.msc with reserve := true } }
  musterBlocks (recount (reportCause .reserve (shedTests (composeMarked (nonEssential held) held)))) s

/-- The reserve regime ends (R87). -/
def reserveFinish (s : State) : State :=
  let freed := { s with msc := { s.msc with reserve := false }, lcs := clearShed s.lcs }
  musterBlocks (recount (reportCause .reserve (composeMarked (nonEssential freed) freed))) s

end Sys2Proof.Machine
end

