-- ==== Sys2Proof/Machine/Edition.lean ====
section
/-! DEFINITION. Staging an edition (R160 to R166, R171): the publish word, the notice, the directory, the checks of each
entry, the reads of records, and a rejection. -/

namespace Sys2Proof.Machine

/-! ## Failures and rejection (R171, R172) -/

/-- A failure charged to no entry. -/
def plainFailure (reason : Reason) : Failure := { reason, entry := none, record := none, leaf := none }

/-- A failure charged to an entry of a leaf. -/
def entryFailure (reason : Reason) (entry : Nat) (leaf record : Option Nat) : Failure :=
  { reason, entry := some entry, record, leaf }

/-- The Exchange Unit at a rejection (R171): the settled edition takes the number, the stage is emptied, REJECTED rises
and names the leaf of the charged entry. -/
def rejectXu (second : Word32) (number : Word32) (f : Failure) (x : XuState) : XuState :=
  recordFault .rejected f.leaf second 1
    { x with
      settled := number, stage := none
      settle := { outcome := .rejected, reason := f.reason, entry := f.entry, record := f.record } }

/-- An edition is rejected and settles: the report is written at once and SETTLED waits for it (R171, R172). -/
def rejectEdition (number : Word32) (f : Failure) (s : State) : State :=
  reportCause .settled { s with xu := rejectXu s.clk.second number f s.xu }

/-! ## The start of staging (R160) -/

/-- A staging begins, with the base and span in force captured; the notice header is read first (R160, R161). -/
def newStaging (number : Word32) (noticeOffset : Nat) (x : XuState) : Staging :=
  { number, noticeOffset, base := x.base, span := x.span, phase := .header, count := 0, highest := 0, directory := []
    rest := [], staged := [], clock := none, left := busPeriods }

/-- The publish word as read: staging begins when the stage is IDLE and the number is above the settled edition, unless
a halt has been requested (R160, R173, log 16). Where the base was made invalid while the word was read, the staging
begins with the span 0 then held and ends FETCH_FAILED (the model's choice, log 45). -/
def takePublish (bs : List Byte) (x : XuState) : XuState :=
  let number : Word32 := BitVec.ofNat 32 (u32 bs 0)
  match x.stage with
  | some _ => x
  | none =>
    if x.settled < number ∧ x.runState ≠ .halting then { x with stage := some (newStaging number (u32 bs 4) x) } else x

/-! ## The notice header (R161, R191) -/

/-- What the header of the notice leads to: a failure, or the number of entries. -/
def headerFailure (bs : List Byte) (g : Staging) : Option Failure :=
  if u32 bs 0 ≠ g.number.toNat then some (plainFailure .disturbed)
  else if !zeroBytes bs 6 2 then some (plainFailure .badField)
  else if Config.entryCapacity < u16 bs 4 then some (plainFailure .oversize)
  else none

/-! ## The directory (R163, R180, R193) -/

/-- The directory's slot for a table: entry L, but entry 16 + s − 1 for the Station table of line s above 0 (R180). -/
def directorySlot (leaf sub : Nat) : Nat := if leaf = 3 ∧ 0 < sub then 15 + sub else leaf

/-- The two runs of directory entries that the Exchange Unit reads, by offset and length: entries 0 to 11 and entries 16 to
22; it does not read the others (R180). DESIGN CHOICE (log 51): each run is one bus read. -/
def directoryRuns : List (Nat × Nat) := [(0, 192), (256, 112)]

/-- The three fields of a directory entry that lies at an offset (R193); reserved bytes are ignored (R191). -/
def directoryEntry (bs : List Byte) (off : Nat) : DirEntry :=
  { offset := u32 bs off, size := u16 bs (off + 4), count := u32 bs (off + 8) }

/-- An entry that is never read. -/
def noEntry : DirEntry := { offset := 0, size := 0, count := 0 }

/-- The directory entries by number, from the bytes of the two runs, one after the other: entries 0 to 11, and 16 to 22
from byte 192 on (R180). Entry 0 describes no table, and entries 12 to 15 are not read. -/
def readDirectory (bs : List Byte) : List DirEntry :=
  (List.range 23).map fun i =>
    if 1 ≤ i ∧ i ≤ 11 then directoryEntry bs (16 * i)
    else if 16 ≤ i then directoryEntry bs (192 + 16 * (i - 16))
    else noEntry

/-- The directory entry in force for a table. -/
def tableEntry (g : Staging) (leaf sub : Nat) : DirEntry :=
  g.directory.getD (directorySlot leaf sub) noEntry

/-- The record count in force: the directory's, clamped to the table's capacity (R163). -/
def countInForce (g : Staging) (leaf sub : Nat) : Nat := min (tableEntry g leaf sub).count (leafCapacity leaf)

/-- The highest leaf in force (R163). -/
def highestLeaf (bs : List Byte) : Nat := min (u8 bs 0) 11

/-! ## Notice entries (R161, R193) -/

/-- Entry `i` of a notice; a kind that is none of the five, or a reserved byte that is not 0, is bad (R161, R191). -/
def parseEntry (bs : List Byte) (i : Nat) : Entry :=
  let off := 8 * i
  let leaf := u8 bs (off + 1)
  let sub := u8 bs (off + 2)
  let first := u16 bs (off + 4)
  let single := zeroBytes bs (off + 3) 1 && zeroBytes bs (off + 6) 2
  match u8 bs off with
  | 1 => if single then .put leaf sub first 1 true else .bad (some leaf)
  | 2 => if zeroBytes bs (off + 3) 1 then .put leaf sub first (u16 bs (off + 6)) false else .bad (some leaf)
  | 3 => if single then .clear leaf sub first 1 true else .bad (some leaf)
  | 4 => if zeroBytes bs (off + 3) 1 then .clear leaf sub first (u16 bs (off + 6)) false else .bad (some leaf)
  | 5 => if zeroBytes bs (off + 1) 3 then .setClock (BitVec.ofNat 32 (u32 bs (off + 4))) else .bad none
  | _ => .bad none

/-- The entries of a notice in notice order (R161). -/
def parseEntries (bs : List Byte) (count : Nat) : List (Nat × Entry) :=
  (List.range count).map fun i => (i, parseEntry bs i)

/-! ## The checks of an entry (R161, R163, R164) -/

/-- Does a leaf with its subleaf exist under the directory (R163)? -/
def leafExists (g : Staging) (leaf sub : Nat) : Bool :=
  decide (1 ≤ leaf) && decide (leaf ≤ g.highest) && decide (if leaf = 3 then sub ≤ 7 else sub = 0)

/-- Is a record already in the stage (R162)? -/
def isStaged (staged : List Staged) (leaf sub index : Nat) : Bool :=
  staged.any fun r => decide (r.leaf = leaf) && decide (r.sub = sub) && decide (r.index = index)

/-- How many records of a range are not already staged (R164). -/
def newRecords (staged : List Staged) (leaf sub first count : Nat) : Nat :=
  ((List.range count).filter fun i => !isStaged staged leaf sub (first + i)).length

/-- The checks of a record entry, in order (R163, R164): `put` says whether the record size is checked. The record index of
a BAD_INDEX is the first of the range beyond the count, and for a single record that record's own (the model's choice for
a single PUT or CLEAR, log 46). -/
def rangeFailure (g : Staging) (n leaf sub first count : Nat) (put : Bool) : Option Failure :=
  if !leafExists g leaf sub then some (entryFailure .badLeaf n (some leaf) none)
  else if put && decide ((tableEntry g leaf sub).size ≠ recordSize leaf) then
    some (entryFailure .badLeaf n (some leaf) none)
  else if 0 < count ∧ countInForce g leaf sub < first + count then
    some (entryFailure .badIndex n (some leaf) (some (max first (countInForce g leaf sub))))
  else if Config.stageCapacity < g.staged.length + newRecords g.staged leaf sub first count then
    some (entryFailure .oversize n (some leaf) none)
  else none

/-- The checks of an entry before its records are staged (R161, R162). -/
def checkEntry (g : Staging) (n : Nat) : Entry → Option Failure
  | .put leaf sub first count _ => rangeFailure g n leaf sub first count true
  | .clear leaf sub first count _ => rangeFailure g n leaf sub first count false
  | .setClock _ => if g.clock.isSome then some (entryFailure .duplicate n none none) else none
  | .bad leaf => some (entryFailure .badField n leaf none)

/-! ## Staging records (R162, R165) -/

/-- Put a record into the stage; content staged earlier for it is replaced (R162). -/
def stageRecord (r : Staged) (staged : List Staged) : List Staged :=
  (staged.filter fun q => !(decide (q.leaf = r.leaf) && decide (q.sub = r.sub) && decide (q.index = r.index))) ++ [r]

/-- Stage the empty records of a CLEAR or CLEAR_RANGE (R161). -/
def stageClears (entry leaf sub first count : Nat) (staged : List Staged) : List Staged :=
  (List.range count).foldl
    (fun acc i => stageRecord { leaf, sub, index := first + i, entry, bytes := none } acc) staged

/-- What staging comes to: a failure that ends it, or the stage with the read it waits for next. -/
inductive Progress where
  | failed (f : Failure)
  | going (g : Staging)
  deriving DecidableEq, Repr

/-- The entries are taken in notice order until one needs a record read; after the last the publish word is read once
more (R162, R166). -/
def takeEntries (g : Staging) : List (Nat × Entry) → Progress
  | [] => .going { g with rest := [], phase := .reread, left := busPeriods }
  | (n, e) :: rest =>
    match checkEntry g n e with
    | some f => .failed f
    | none =>
      match e with
      | .put leaf sub first count _ =>
        if count = 0 then takeEntries g rest
        else .going { g with rest, phase := .record n leaf sub first (first + count - 1), left := busPeriods }
      | .clear leaf sub first count _ =>
        takeEntries { g with staged := stageClears n leaf sub first count g.staged } rest
      | .setClock v => takeEntries { g with clock := some v } rest
      | .bad leaf => .failed (entryFailure .badField n leaf none)

/-- A record read has completed: the record is staged, and the next of its range is read, or the next entry taken
(R162, R165, log 24). -/
def takeRecord (g : Staging) (entry leaf sub index last : Nat) (bs : List Byte) : Progress :=
  let h := { g with staged := stageRecord { leaf, sub, index, entry, bytes := some bs } g.staged }
  if index < last then .going { h with phase := .record entry leaf sub (index + 1) last, left := busPeriods }
  else takeEntries h g.rest

/-! ## Where the reads of a staging lie (R165, R180, R193) -/

/-- The offset and length of each read a staging waits for: one, but two for the directory (R180, log 51), and none while it
validates. -/
def stagingReads (g : Staging) : List (Nat × Nat) :=
  match g.phase with
  | .header => [(g.noticeOffset, 8)]
  | .directory => directoryRuns
  | .entries => [(g.noticeOffset + 8, 8 * g.count)]
  | .record _ leaf sub index _ => [((tableEntry g leaf sub).offset + index * recordSize leaf, recordSize leaf)]
  | .reread => [(publishOffset, 8)]
  | .validating => []

/-- Does a staging wait for a read (R160)? -/
def awaitsRead (g : Staging) : Bool := !(stagingReads g).isEmpty

/-- Does all that a staging waits to read lie in the captured span (R165)? -/
def readIssued (g : Staging) : Bool := awaitsRead g && (stagingReads g).all fun r => inSpan g.span r.1 r.2

/-- The reads on the bus that a staging waits for, if they were issued: at the captured base (R160, R165, R180). -/
def stagingBusReads (g : Staging) : List BusRead :=
  if readIssued g then (stagingReads g).map fun r => { address := areaAddress g.base r.1, size := r.2 } else []

/-- The failure of the read a staging waits for: a record read is charged to its entry and record (R165). -/
def fetchFailure (g : Staging) : Failure :=
  match g.phase with
  | .record entry leaf _ index _ => entryFailure .fetchFailed entry (some leaf) (some index)
  | _ => plainFailure .fetchFailed

/-- The subject FETCH_FAILED names: the leaf of a record read (R185). -/
def fetchSubject (g : Staging) : Option Nat :=
  match g.phase with
  | .record _ leaf _ _ _ => some leaf
  | _ => none

/-! ## On the whole part -/

/-- The stage goes on, or the edition is rejected. -/
def applyProgress (number : Word32) (p : Progress) (s : State) : State :=
  match p with
  | .failed f => rejectEdition number f s
  | .going g => { s with xu := { s.xu with stage := some g } }

/-- The notice header has been read (R161); the directory is read next (R163). -/
def headerTaken (bs : List Byte) (g : Staging) : Progress :=
  match headerFailure bs g with
  | some f => .failed f
  | none => .going { g with phase := .directory, count := u16 bs 4, left := busPeriods }

/-- The directory has been read (R163); the entries follow, or the final re-read when there is none. -/
def directoryTaken (bs : List Byte) (g : Staging) : Progress :=
  .going
    { g with
      highest := highestLeaf bs, directory := readDirectory bs
      phase := if g.count = 0 then .reread else .entries
      left := busPeriods }

/-- The publish word has been read once more (R166). -/
def rereadTaken (bs : List Byte) (g : Staging) : Progress :=
  if u32 bs 0 = g.number.toNat then .going { g with phase := .validating } else .failed (plainFailure .disturbed)

/-- A read of the staging failed (R165, R171, R185). DESIGN CHOICE (log 50): FETCH_FAILED and REJECTED replace the last-fault
record at one instant and the spec does not order them; REJECTED is entered last and stays. -/
def stagingFailed (g : Staging) (s : State) : State :=
  rejectEdition g.number (fetchFailure g)
    { s with xu := recordFault .fetchFailed (fetchSubject g) s.clk.second 1 s.xu }

end Sys2Proof.Machine
end

