-- ==== Sys2Proof/Machine/Validate.lean ====
section
/-! DEFINITION. The post-edition set and its validation (R14, R167, R168): the staged records laid over the working
copies, the checks of each, and what a failure is charged to. -/

namespace Sys2Proof.Machine

/-! ## The tables (R1, R167) -/

/-- Every table an edition may change. -/
structure TableSet where
  nodes : Tbl NodeRec
  edges : Tbl EdgeRec
  stations : Tbl StationRec
  musters : Tbl MusterRec
  landmarks : Tbl LandmarkRec
  settings : Settings
  programme : Tbl ProgRec
  rotations : Tbl RotationRec
  notices : Tbl NoticeRec
  interjections : Tbl InterjRec
  clockChanges : Tbl ClockRec
  deriving DecidableEq, Repr

/-- The working copies. -/
def tablesOf (s : State) : TableSet :=
  { nodes := s.sms.nodes, edges := s.sms.edges, stations := s.sms.stations, musters := s.sms.musters
    landmarks := s.sms.landmarks, settings := s.sms.settings, programme := s.pgu.programme
    rotations := s.pco.rotations, notices := s.pco.notices, interjections := s.pco.interjections
    clockChanges := s.pgu.clockChanges }

/-- The bytes of a staged record that is in use; a CLEAR, or a PUT whose in_use is 0, is an empty record (R2, R162). A record
whose in_use is neither 0 nor 1 is BAD_FIELD itself; where other records' references and repetitions are checked it counts
as in use (the model's choice, log 44). -/
def liveBytes (r : Staged) : Option (List Byte) :=
  match r.bytes with
  | none => none
  | some bs => if u8 bs 0 = 0 then none else some bs

/-- The index of a staged record in its table; stations are numbered across the lines (R9). -/
def tableIndex (r : Staged) : Nat := if r.leaf = 3 then stationNumber r.sub r.index else r.index

/-- One staged record, in its held form, in place of the record at its index (R167). -/
def installStaged (t : TableSet) (r : Staged) : TableSet :=
  let i := tableIndex r
  let live := liveBytes r
  match r.leaf with
  | 1 => { t with nodes := tblSet t.nodes i (live.map parseNode) }
  | 2 => { t with edges := tblSet t.edges i (live.map parseEdge) }
  | 3 => { t with stations := tblSet t.stations i (live.map parseStation) }
  | 4 => { t with musters := tblSet t.musters i (live.map parseMuster) }
  | 5 => { t with landmarks := tblSet t.landmarks i (live.map parseLandmark) }
  | 6 => { t with programme := tblSet t.programme i (live.map parseProgramme) }
  | 7 => { t with rotations := tblSet t.rotations i (live.map parseRotation) }
  | 8 => { t with notices := tblSet t.notices i (live.map parseNotice) }
  | 9 => { t with interjections := tblSet t.interjections i (live.map parseInterj) }
  | 10 => { t with clockChanges := tblSet t.clockChanges i (live.map parseClock) }
  | 11 => { t with settings := match r.bytes with
      | some bs => parseSettings bs
      | none => defaultSettings }
  | _ => t

/-- The post-edition set (R167). -/
def postEdition (staged : List Staged) (t : TableSet) : TableSet := staged.foldl installStaged t

/-! ## References (R14) -/

/-- What a record may name. -/
inductive Ref where
  | node (i : Nat)
  | edge (i : Nat)
  | muster (i : Nat)
  | landmark (i : Nat)
  | rotation (i : Nat)
  | notice (i : Nat)
  deriving DecidableEq, Repr

/-- Is the record named in use? -/
def refPresent (t : TableSet) : Ref → Bool
  | .node i => tblHas t.nodes i
  | .edge i => tblHas t.edges i
  | .muster i => tblHas t.musters i
  | .landmark i => tblHas t.landmarks i
  | .rotation i => tblHas t.rotations i
  | .notice i => tblHas t.notices i

/-- What an edge names (R4). -/
def edgeRefs (e : EdgeRec) : List Ref := [.node e.nodeA, .node e.nodeB]

/-- What a station names (R10 to R13); rotation 0 stands for the default page and names no record (R109). -/
def stationRefs (st : StationRec) : List Ref :=
  .node st.node :: st.exits.map (fun e => .edge e.1)
    ++ (match st.kind with
      | .cabin => [.muster st.assigned]
      | _ => if st.rotation = 0 then [] else [.rotation st.rotation])
    ++ st.landmarks.map Ref.landmark ++ st.served.map Ref.muster

/-- What a muster station names (R7). -/
def musterRefs (k : MusterRec) : List Ref := .node k.node :: (k.alternate.map Ref.muster).toList

/-- What a landmark names (R6). -/
def landmarkRefs (l : LandmarkRec) : List Ref := [.node l.node]

/-- What a programme entry names (R51). -/
def programmeRefs (e : ProgRec) : List Ref := (e.venue.map Ref.node).toList

/-- What a step names (R109). -/
def stepRefs : RotStep → List Ref
  | .notice i _ => [.notice i]
  | _ => []

/-- What a rotation names (R109). -/
def rotationRefs (r : RotationRec) : List Ref := r.steps.flatMap stepRefs

/-- What a notice names (R114). -/
def noticeRefs (n : NoticeRec) : List Ref := (n.dest.map Ref.node).toList

/-- What an interjection names (R115). -/
def interjRefs (j : InterjRec) : List Ref := [.notice j.notice]

/-- Every reference of every in-use record of a set (R14). -/
def allRefs (t : TableSet) : List Ref :=
  t.edges.flatMap (fun e => edgeRefs e.2) ++ t.stations.flatMap (fun e => stationRefs e.2)
    ++ t.musters.flatMap (fun e => musterRefs e.2) ++ t.landmarks.flatMap (fun e => landmarkRefs e.2)
    ++ t.programme.flatMap (fun e => programmeRefs e.2) ++ t.rotations.flatMap (fun e => rotationRefs e.2)
    ++ t.notices.flatMap (fun e => noticeRefs e.2) ++ t.interjections.flatMap fun e => interjRefs e.2

/-- The references of the record at an index of a leaf. -/
def refsAt (t : TableSet) (leaf i : Nat) : List Ref :=
  match leaf with
  | 2 => ((tblGet t.edges i).map edgeRefs).getD []
  | 3 => ((tblGet t.stations i).map stationRefs).getD []
  | 4 => ((tblGet t.musters i).map musterRefs).getD []
  | 5 => ((tblGet t.landmarks i).map landmarkRefs).getD []
  | 6 => ((tblGet t.programme i).map programmeRefs).getD []
  | 7 => ((tblGet t.rotations i).map rotationRefs).getD []
  | 8 => ((tblGet t.notices i).map noticeRefs).getD []
  | 9 => ((tblGet t.interjections i).map interjRefs).getD []
  | _ => []

/-- A record of a leaf as something that others name. -/
def refOf (leaf i : Nat) : Option Ref :=
  match leaf with
  | 1 => some (.node i)
  | 2 => some (.edge i)
  | 4 => some (.muster i)
  | 5 => some (.landmark i)
  | 7 => some (.rotation i)
  | 8 => some (.notice i)
  | _ => none

/-! ## The three failures of a record (R168) -/

/-- Does an exit of a station at this node name an in-use edge that does not touch the node (R11)? -/
def exitStranded (t : TableSet) (node : Nat) (e : Nat) : Bool :=
  match tblGet t.edges e with
  | some edge => decide (edge.nodeA ≠ node) && decide (edge.nodeB ≠ node)
  | none => false

/-- The failure of an exit whose edge does not touch the station's node, met at the station or at the edge (R11, R14). -/
def strandsExit (t : TableSet) (leaf i : Nat) : Bool :=
  match leaf with
  | 2 => t.stations.any fun e => e.2.exits.any fun x => decide (x.1 = i) && exitStranded t e.2.node i
  | 3 => ((tblGet t.stations i).map fun st => st.exits.any fun x => exitStranded t st.node x.1).getD false
  | _ => false

/-- The checks of an in-use record's bytes alone (R3 to R13, R47, R51, R109, R114, R115, R191). -/
def badBytes (leaf i : Nat) (bs : List Byte) : Bool :=
  match leaf with
  | 1 => badNode bs
  | 2 => badEdge bs
  | 3 => badStation bs
  | 4 => badMuster i bs
  | 5 => badLandmark bs
  | 6 => badProgramme bs
  | 7 => badRotation i bs
  | 8 => badNotice bs
  | 9 => badInterj bs
  | 10 => badClock bs
  | _ => false

/-- BAD_FIELD (R2, R11, R168): a record alone, or an exit that its edge does not touch. -/
def badField (t : TableSet) (r : Staged) : Bool :=
  match r.bytes with
  | none => false
  | some bs =>
    if r.leaf = 11 then badSettings bs
    else if u8 bs 0 = 0 then false
    else !isFlag (u8 bs 0) || badBytes r.leaf r.index bs || strandsExit t r.leaf (tableIndex r)

/-- DANGLING (R14, R168): the record names an empty record, or it is empty and an in-use record names it. -/
def dangling (t : TableSet) (r : Staged) : Bool :=
  let i := tableIndex r
  (refsAt t r.leaf i).any (fun f => !refPresent t f)
    || match refOf r.leaf i with
      | some f => !refPresent t f && (allRefs t).contains f
      | none => false

/-- Does another in-use record share a key with the record at `i`, so that `i` is charged: it has the higher index, or
the higher one is not staged (R7, R47, R168)? -/
def sharesKey (keys : List (Nat × Nat)) (stagedAt : Nat → Bool) (i key : Nat) : Bool :=
  keys.any fun e => decide (e.2 = key) && (decide (e.1 < i) || (decide (i < e.1) && !stagedAt e.1))

/-- DUPLICATE (R7, R11, R13, R47, R168). -/
def duplicate (t : TableSet) (staged : List Staged) (r : Staged) : Bool :=
  let i := tableIndex r
  let stagedAt (j : Nat) : Bool := isStaged staged r.leaf 0 j
  match r.leaf with
  | 3 => ((tblGet t.stations i).map dupStation).getD false
  | 4 => ((tblGet t.musters i).map fun k => sharesKey (t.musters.map fun e => (e.1, e.2.node)) stagedAt i k.node).getD false
  | 10 =>
    ((tblGet t.clockChanges i).map fun c =>
      sharesKey (t.clockChanges.map fun e => (e.1, e.2.atMinute)) stagedAt i c.atMinute).getD false
  | _ => false

/-- The first reason that applies to a staged record (R168). -/
def recordReason (t : TableSet) (staged : List Staged) (r : Staged) : Option Reason :=
  if badField t r then some .badField
  else if dangling t r then some .dangling
  else if duplicate t staged r then some .duplicate
  else none

/-- Validation: the first staged record charged with a failure, in notice order (R168). -/
def validate (t : TableSet) (staged all : List Staged) : Option Failure :=
  match staged with
  | [] => none
  | r :: rest =>
    match recordReason t all r with
    | some reason => some (entryFailure reason r.entry (some r.leaf) (some r.index))
    | none => validate t rest all

end Sys2Proof.Machine
end

