-- ==== Sys2Proof/Machine/Commit.lean ====
section
/-! DEFINITION. The commit of an edition at one instant (R169, R170): the tables, the clock, the line records, the
evaluation, rotations and interjections, claims, the map, and the notices the blocks give. -/

namespace Sys2Proof.Machine

/-! ## Tables and clock (R16, R46, R169) -/

/-- Put a set of tables into the blocks that hold them (R169). -/
def withTables (t : TableSet) (s : State) : State :=
  { s with
    sms := { s.sms with
      nodes := t.nodes, edges := t.edges, stations := t.stations, musters := t.musters, landmarks := t.landmarks
      settings := t.settings }
    pgu := { s.pgu with programme := t.programme, clockChanges := t.clockChanges }
    pco := { s.pco with rotations := t.rotations, notices := t.notices, interjections := t.interjections } }

/-- Does a commit change a node, an edge or the weight part of Settings (R15, R16)? -/
def graphChanged (before after : SmsState) : Bool :=
  decide (before.nodes ≠ after.nodes) || decide (before.edges ≠ after.edges)
    || decide (before.settings.normal ≠ after.settings.normal)
    || decide (before.settings.muster ≠ after.settings.muster)

/-- The voyage clock at a commit: a SET_CLOCK value is held, and counts on from there (R46, log 30). -/
def commitClock (v : Option Word32) (c : ClockState) : ClockState :=
  match v with
  | some second => { c with second, prescale := 0 }
  | none => c

/-- The Exchange Unit's numbers at a commit (R159, R169). -/
def commitXu (number : Word32) (x : XuState) : XuState :=
  { x with
    applied := number, settled := number, stage := none
    settle := { outcome := .applied, reason := .none, entry := none, record := none } }

/-! ## Line records (R138, R142, R145) -/

/-- The line record of a station that a commit configures, empties, or whose kind it changes (R138). -/
def statusReset (door : Option DoorRec) (r : LineRec) : LineRec :=
  { r with
    heard := false, misses := 0, baseline := false, waiting := none, errors := 0, lastHeard := none, busy := false
    dnd := false, fault := false, shed := false, door }

/-- The door-service fields a commit gives a kind (R145). -/
def doorFor (k : StationKind) : Option DoorRec :=
  match k with
  | .cabin => some freshDoor
  | _ => none

/-- The line record of one station number after a commit (R138, R142, R145). -/
def commitRec (before after : Option StationRec) (r : LineRec) : LineRec :=
  match before, after with
  | none, some st => statusReset (doorFor st.kind) r
  | some _, none => statusReset none r
  | some old, some st =>
    if old.kind ≠ st.kind then statusReset (doorFor st.kind) r else { r with shed := r.shed && !st.essential }
  | none, none => r

/-- The line records after a commit, for the stations it changes (R138). -/
def commitLines (before after : Tbl StationRec) (l : LcsState) : LcsState :=
  (changedKeys before after).foldl
    (fun acc x => setLineRec x (commitRec (tblGet before x) (tblGet after x) (lineRec acc x)) acc) l

/-! ## Rotations (R110, R113, R116, R117) -/

/-- Does a commit restart a station's rotation (R113)? `rotationChanged` says whether a rotation record changed. -/
def restarts (rotationChanged : Nat → Bool) (old st : StationRec) : Bool :=
  decide (old.rotation ≠ st.rotation) || decide (old.kind ≠ st.kind) || rotationChanged st.rotation

/-- Did an interjection select a station before the commit (R117)? -/
def selectedBefore (interjections : Tbl InterjRec) (old : StationRec) (i : Nat) : Bool :=
  match tblGet interjections i with
  | some j => tagSelects j old
  | none => false

/-- The rotation state of one screen after a commit, and whether it restarted. A newly configured screen's rotation starts
with its first page, which the commit's own notice composes. -/
def commitRot (before after : PcoState) (a : Activity) (now : Nat) (standby : Bool) (old : Option StationRec)
    (st : StationRec) (r : Option RotState) : RotState × Bool :=
  let rotationChanged (i : Nat) : Bool := (changedKeys before.rotations after.rotations).contains i
  match old, r with
  | some o, some q =>
    let started := restarts rotationChanged o st
    let base := if started then startRot after.rotations st.rotation q else q
    (takeActivity after.interjections a now standby st (selectedBefore before.interjections o) base, started)
  | _, _ =>
    (takeActivity after.interjections a now standby st (fun _ => false)
      (startRot after.rotations st.rotation (freshRot st.rotation)), false)

/-- The rotation states and active interjections after a commit, and the stations that restarted; `before`
holds the old tables, `s` the new (R110, R113, R116, R117). -/
def commitRots (before s : State) : PcoState × List Nat :=
  let now := voyageMinute s.clk
  let a : Activity :=
    { before := before.pco.active, after := activeAt s.pco.interjections now
      changed := changedKeys before.pco.interjections s.pco.interjections }
  let screens := s.sms.stations.filter fun e => hasList e.2
  let rots := tblMap (fun x st =>
    commitRot before.pco s.pco a now (decide (s.msc.state = .standby)) (tblGet before.sms.stations x) st
      (tblGet before.pco.rots x)) screens
  ({ s.pco with active := a.after, rots := tblMap (fun _ e => e.1) rots },
    tblKeys (rots.filter fun e => e.2.2))

/-- The composition records after a commit: the page of an emptied station is discarded and its serial kept (R91). -/
def dropPages (before after : Tbl StationRec) (pages : Tbl PageRec) : Tbl PageRec :=
  ((tblKeys before).filter fun x => !tblHas after x).foldl
    (fun acc x => tblPut acc x { emptyPageRec with serial := (tblGetD acc x emptyPageRec).serial }) pages

/-! ## Marks (R94, R95) -/

/-- The sources that a commit changed (R94). -/
def changedSources (before after : State) : List Source :=
  (changedKeys before.sms.musters after.sms.musters).map Source.musterStation
    ++ (changedKeys before.sms.landmarks after.sms.landmarks).map Source.landmark
    ++ (changedKeys before.sms.nodes after.sms.nodes).map Source.node
    ++ (changedKeys before.pco.notices after.pco.notices).map Source.notice

/-- Does a station list a landmark that a commit changed: a WAYPOINT station is then marked whatever its page (R6, log
43)? -/
def listsChanged (before s : State) (x : Nat) : Bool :=
  match tblGet s.sms.stations x with
  | some st =>
    st.landmarks.any fun i => (changedKeys before.sms.landmarks s.sms.landmarks).contains i
  | none => false

/-- The stations that a commit configures and that a notice of a new map entry has composed already: the commit's own
notice does not compose them a second time (R97, log 10). -/
def composedByMap (before s : State) : List Nat :=
  (changedEntries before.msc s.msc).filter fun x => !tblHas before.sms.stations x

/-- The stations the commit notice marks: their own record changed, or a source they show (R94), or a landmark they list
(R6). -/
def commitMarks (before s : State) : List Nat :=
  let sources := changedSources before s
  (allStations s).filter fun x =>
    !(composedByMap before s).contains x
      && (decide (tblGet before.sms.stations x ≠ tblGet s.sms.stations x)
        || (pageRec s.pco x).sources.any (fun y => sources.contains y) || listsChanged before s x)

/-- The stations that show an interjection which the commit changed: its page may differ (R95, R119). -/
def showingChanged (before s : State) : List Nat :=
  let changed := changedKeys before.pco.interjections s.pco.interjections
  (allStations s).filter fun x =>
    match (tblGet s.pco.rots x).map RotState.position with
    | some (.interj i) => changed.contains i
    | _ => false

/-! ## The commit (R169, R170) -/

/-- The part's own state after the commit, before any claim or notice: tables, clock, numbers, line records, the
evaluation, rotations and pages of emptied stations. The second part is the stations whose rotation restarted. -/
def installEdition (g : Staging) (s : State) : State × List Nat :=
  let t := withTables (postEdition g.staged (tablesOf s))
    { s with clk := commitClock g.clock s.clk, xu := commitXu g.number s.xu }
  let u :=
    { t with
      lcs := commitLines s.sms.stations t.sms.stations t.lcs
      pgu := evalPgu t.sms (voyageMinute t.clk) { t.pgu with retained := false } }
  let r := commitRots s u
  ({ u with pco := { r.1 with pages := dropPages s.sms.stations u.sms.stations r.1.pages } }, r.2)

/-- The graph epoch, the claims and the map of a commit (R16, R28, R34, R83). `before` holds the old tables. -/
def commitRoutes (before s : State) : State :=
  let risen := if graphChanged before.sms s.sms then raiseEpoch s else s
  let claimed := claimOp risen
  let mapped :=
    if before.sms.stations = s.sms.stations ∧ before.sms.musters = s.sms.musters then claimed else recomputeMap claimed
  { s with sms := { s.sms with epoch := risen.sms.epoch }, rsv := mapped.rsv, msc := mapped.msc, xu := mapped.xu }

/-- The notices of a commit, in a fixed order (log 10): those of the Route Solver, STALE and RATE, which mark a station
once (R39); changed map entries; the commit's own; TIME; LIST; moved rotations. `started` are the stations whose rotation
restarted. -/
def commitNotices (before : State) (started : List Nat) (s : State) : State :=
  let solved :=
    if graphChanged before.sms s.sms ∨ before.sms.settings.walkRate ≠ s.sms.settings.walkRate then
      pairNotices (vectorPairs before.rsv.slots) s
    else s
  let mapped := mapNotices before.msc solved
  let marked := composeMarked (commitMarks before mapped) mapped
  let timed := listNotices before.pgu (listsAnew before.sms.stations s.sms.stations) (timeNotice before.pgu marked)
  pageBlocks
    (composeMarked
      (sortNats (movedStations before.pco.rots timed.pco.rots ++ started ++ showingChanged before timed)) timed) s

/-- The tests that end a commit (R68, R84, R142), with its report (R172). DESIGN CHOICE (log 47): the spec does not order
the level test of R66 and R68 and the completion test of R72 and R85 at one commit; the level test comes first, so a DRILL
in CALLED that it escalates stays CALLED. -/
def commitTests (before s : State) : State :=
  let sense := s.sms.settings.alarmSense
  let sensed := if before.sms.settings.alarmSense ≠ sense ∧ sense = .level then levelTest s else s
  musterBlocks (reportCause .settled (recount (shedTests sensed))) s

/-- The commit of an edition (R169, R170). -/
def commitEdition (g : Staging) (s : State) : State :=
  let i := installEdition g s
  commitTests s (commitNotices s i.2 (commitRoutes s i.1))

/-- Validation completes: the edition is committed, or rejected (R168). -/
def finishValidation (g : Staging) (s : State) : State :=
  match validate (postEdition g.staged (tablesOf s)) g.staged g.staged with
  | some f => rejectEdition g.number f s
  | none => commitEdition g s

end Sys2Proof.Machine
end

