-- ==== Sys2Proof/Machine/Lines.lean ====
section
/-! DEFINITION. The Line Controllers' turns and transactions (R128 to R141) with the door service their answers bring
(R146 to R151). -/

namespace Sys2Proof.Machine

/-! ## A line and its stations -/

/-- The Line Controller of a line. -/
def lineAt (l : LcsState) (n : Nat) : LineCtl := l.lines.getD n resetLine

/-- Put the Line Controller of a line. -/
def setLine (n : Nat) (c : LineCtl) (l : LcsState) : LcsState := { l with lines := l.lines.set n c }

/-- The configured stations of a line, in address order (R9, R140). -/
def lineStations (s : State) (n : Nat) : List Nat := (allStations s).filter fun x => decide (lineOf x = n)

/-- Is the desired page of a station number a muster page (R97)? -/
def desiresMuster (s : State) (x : Nat) : Bool :=
  match desiredPage s.pco x with
  | some p => isMusterPage s.msc.serial p
  | none => false

/-! ## Choosing a turn (R139, R140) -/

/-- Is a configured station muster-waiting (R139)? -/
def musterWaiting (s : State) (x : Nat) : Bool :=
  let r := lineRec s.lcs x
  tblHas s.sms.stations x && decide (lineStatus s x ≠ .lost) && !r.shed && desiresMuster s x
    && decide (desiredSerial s.pco x ≠ r.confSerial)

/-- The first of some stations in address order that lies above a position, else the first of all (R139). -/
def nextAbove (position : Nat) (stations : List Nat) : Option Nat :=
  match stations.find? fun x => decide (position < addressOf x) with
  | some x => some x
  | none => stations.head?

/-- Is a station included in a cycle with this count (R140)? -/
def includedIn (s : State) (count x : Nat) : Bool :=
  !(lineRec s.lcs x).shed && (decide (lineStatus s x ≠ .lost) || decide (count = 0))

/-- The included station with the lowest address above a position (R140). -/
def cycleNext (s : State) (n count position : Nat) : Option Nat :=
  (lineStations s n).find? fun x => includedIn s count x && decide (position < addressOf x)

/-- The cycle count after a cycle: from 7 to 0 (R140). -/
def nextCycle (count : Nat) : Nat := (count + 1) % 8

/-- What a turn goes to: a station, or the 5 ms of silence, with the positions it leaves. -/
structure TurnChoice where
  station : Option Nat
  line : LineCtl
  deriving DecidableEq, Repr

/-- The silence of a cycle with no included station: 5 ms (R140). -/
def silencePeriods : Nat := 5 * Config.periodsPerMs

/-- A cycle turn (R140): the next included station, or the first of the next cycle, or silence when a new cycle has none. -/
def cycleChoice (s : State) (n : Nat) (l : LineCtl) : TurnChoice :=
  match cycleNext s n l.cycleCount l.cyclePos with
  | some x => { station := some x, line := { l with cyclePos := addressOf x } }
  | none =>
    if l.cyclePos = 0 then { station := none, line := { l with silence := some silencePeriods } }
    else
      let fresh := { l with cycleCount := nextCycle l.cycleCount, cyclePos := 0 }
      match cycleNext s n fresh.cycleCount 0 with
      | some x => { station := some x, line := { fresh with cyclePos := addressOf x } }
      | none => { station := none, line := { fresh with silence := some silencePeriods } }

/-- A turn (R139): a muster-waiting station goes ahead of the cycle. -/
def turnChoice (s : State) (n : Nat) (l : LineCtl) : TurnChoice :=
  match nextAbove l.musterPos ((lineStations s n).filter (musterWaiting s)) with
  | some x => { station := some x, line := { l with musterPos := addressOf x } }
  | none => cycleChoice s n l

/-! ## What a turn carries (R130, R141, R149) -/

/-- Does a turn of a station carry a page transfer (R141)? -/
def carriesTransfer (s : State) (x : Nat) (st : StationRec) : Bool :=
  let r := lineRec s.lcs x
  let desired := desiredSerial s.pco x
  (desiredPage s.pco x).isSome && decide (desired ≠ r.confSerial)
    && (match r.waiting with
      | some w => decide (desired ≠ w.serial)
      | none => true)
    && decide (lineStatus s x ≠ .lost)
    && (match st.kind with
      | .cabin => doorAllows (desiresMuster s x) (r.door.getD freshDoor)
      | _ => true)

/-- The FULL flag of a head (R130, R149). -/
def fullFlag (s : State) (x : Nat) (st : StationRec) : Bool :=
  match st.kind with
  | .cabin => doorFull s.sms.settings.fullRefreshPeriod (desiresMuster s x) ((lineRec s.lcs x).door.getD freshDoor)
  | _ => false

/-- The transaction a turn begins for a station: a head with its page fixed, or a CALL (R129, R130). -/
def turnTxn (s : State) (x : Nat) : Txn :=
  match tblGet s.sms.stations x, desiredPage s.pco x with
  | some st, some page =>
    if carriesTransfer s x st then
      startFrame
        { station := x, transfer := some ({ serial := desiredSerial s.pco x, page, full := fullFlag s x st }, 0), left := 0 }
    else startFrame { station := x, transfer := none, left := 0 }
  | _, _ => startFrame { station := x, transfer := none, left := 0 }

/-- May a line choose a turn (R139, R140, R143)? DESIGN CHOICE (log 54): in the 5 ms of silence of R140 no turn is chosen, not
even for a station that becomes muster-waiting meanwhile. -/
def turnReady (l : LineCtl) : Bool :=
  decide (l.service = .inService) && l.txn.isNone && decide (l.idle = 0) && l.silence.isNone

/-- A Line Controller chooses a turn and begins its transaction, or its silence (R139, R140, R141). -/
def takeTurn (n : Nat) (s : State) : State :=
  let c := turnChoice s n (lineAt s.lcs n)
  { s with lcs := setLine n { c.line with txn := c.station.map (turnTxn s) } s.lcs }

/-- The 5 ms of silence end, and the cycle with them (R140). -/
def silenceOver (l : LineCtl) : LineCtl := { l with cycleCount := nextCycle l.cycleCount, cyclePos := 0, silence := none }

/-! ## The end of a transaction (R128, R137, R143) -/

/-- A line whose transaction has ended with `idle` of its idle time still to run; a line asked to stop is silent (R124,
R143). -/
def endTxn (idle : Nat) (l : LineCtl) : LineCtl :=
  { l with
    txn := none, idle
    service := match l.service with
      | .finishing => .silent
      | v => v }

/-- A valid answer came: the station is heard, at this voyage second, and its misses are 0, so that any valid answer brings
a LOST or DOUBTFUL station straight back to ONLINE (R128, R137, section 7.4). It is also the whole outcome heard of the
transaction. DEDUCED (log 36): so is a TAKEN in the middle of a transfer taken, before that outcome. -/
def answered (second : Word32) (r : LineRec) : LineRec := { r with heard := true, misses := 0, lastHeard := some second }

/-- The transaction ended with the station missed (R137). After a valid answer in it misses are 1 (log 36). -/
def outcomeMissed (r : LineRec) : LineRec := { r with misses := satAdd 255 r.misses 1 }

/-- The line record of a station changes and the tests that follow it are made (R72, R85, R137, R142). -/
def withRecord (x : Nat) (r : LineRec) (s : State) : State :=
  recount (shedAt x { s with lcs := setLineRec x r s.lcs })

/-- The transaction of a line ends, its station's record changed. The outcome is recorded at whatever the station has
become meanwhile, an emptied station or a shed one (the model's reading, log 34). -/
def finishTxn (n x idle : Nat) (r : LineRec) (s : State) : State :=
  withRecord x r { s with lcs := setLine n (endTxn idle (lineAt s.lcs n)) s.lcs }

/-- A block failed (R131). -/
def failedRec (r : LineRec) : LineRec := { r with errors := satAdd 255 r.errors 1 }

/-- TRANSFER_FAIL names the station (R131, R185). -/
def countFail (x : Nat) (s : State) : State :=
  { s with xu := recordFault .transferFail (some x) s.clk.second 1 s.xu }

/-- Is a page block waiting for its answer? -/
def blockPending (t : Txn) : Bool :=
  match t.transfer with
  | some (_, k + 1) => decide (0 < k + 1)
  | _ => false

/-- The frame drew no valid answer: the transaction ends with the station missed, and a block's transfer fails (R129,
R130, R131). -/
def noAnswer (n idle : Nat) (t : Txn) (s : State) : State :=
  let r := lineRec s.lcs t.station
  if blockPending t then finishTxn n t.station idle (failedRec (outcomeMissed r)) (countFail t.station s)
  else finishTxn n t.station idle (outcomeMissed r) s

/-- The idle time still to run after an answer that failed a check: none when it ended at an idle gap of 30 µs, the whole
of it when it ended at its CRC; which of the two is a free value (R124, R126, log 38). -/
def brokenIdle (s : State) (n : Nat) : Nat := if Config.endedAtGap n s.periods then 0 else idlePeriods

/-- An answer that fails a check is discarded and counted, and counts as no answer (R126). DESIGN CHOICE (log 50): of the
two faults of a block's answer, LINE_CRC and TRANSFER_FAIL, the spec does not order the entries; TRANSFER_FAIL is entered
last and stays in the last-fault record. -/
def discardAnswer (n idle : Nat) (t : Txn) (s : State) : State :=
  noAnswer n idle t { s with xu := recordFault .lineCrc (some t.station) s.clk.second 1 s.xu }

/-- HELD_OFF (R130, R131): heard; a head is refused without error, a block fails its transfer. -/
def heldOffAnswer (n : Nat) (t : Txn) (s : State) : State :=
  let r := answered s.clk.second (lineRec s.lcs t.station)
  if blockPending t then finishTxn n t.station idlePeriods (failedRec r) (countFail t.station s)
  else finishTxn n t.station idlePeriods r s

/-! ## Page transfers (R130 to R133, R146, R149) -/

/-- Is the transfer abandoned before its next block (R133)? -/
def abandons (s : State) (x : Nat) (p : SentPage) : Bool :=
  !tblHas s.sms.stations x || (desiresMuster s x && decide (desiredSerial s.pco x ≠ p.serial))

/-- A completed transfer: the waiting record, and a cabin's full count (R132, R149). -/
def completedRec (p : SentPage) (r : LineRec) : LineRec :=
  onDoor (doorCompleted p.full)
    { r with waiting := some { serial := p.serial, kind := bodyKind p.page.body, musterSerial := p.page.musterSerial } }

/-- A TAKEN head: the refresh countdown is loaded and after-muster follows the page (R146, R147). -/
def headTakenRec (interval : Nat) (second : Word32) (p : SentPage) (r : LineRec) : LineRec :=
  onDoor (doorHeadTaken interval p.page.musterSerial) (answered second r)

/-- After block `k` was taken (0 for the head): the transfer completes, is abandoned, or goes on to the next block
(R130 to R133). `r` is the station's record with the answer taken. DESIGN CHOICE (log 56): the test of R133 is made here, and
the 30 µs of idle line before the block run after it. -/
def afterTaken (n x : Nat) (p : SentPage) (k : Nat) (r : LineRec) (s : State) : State :=
  if blockCount p.page.body ≤ k then finishTxn n x idlePeriods (completedRec p r) s
  else if abandons s x p then finishTxn n x idlePeriods r s
  else
    withRecord x r
      { s with
        lcs := setLine n
          { lineAt s.lcs n with txn := some (startNextFrame { station := x, transfer := some (p, k + 1), left := 0 }) }
          s.lcs }

/-- TAKEN to the head of a page being sent (R130). -/
def headTaken (n x : Nat) (p : SentPage) (s : State) : State :=
  afterTaken n x p 0 (headTakenRec s.sms.settings.refreshInterval s.clk.second p (lineRec s.lcs x)) s

/-- TAKEN to block `k` of a page being sent (R131). -/
def blockTaken (n x : Nat) (p : SentPage) (k : Nat) (s : State) : State :=
  afterTaken n x p k (answered s.clk.second (lineRec s.lcs x)) s

/-! ## STATE answers (R134, R135, R136, R150) -/

/-- The fields of a STATE answer (R127, R196); flag bits 4 to 7 are ignored (R192). -/
structure StateFields where
  flags : Byte
  serial : Word16
  service : Byte
  assist : Byte
  deriving DecidableEq, Repr

/-- BUSY, flag bit 0 (R196). -/
def StateFields.busy (a : StateFields) : Bool := a.flags.getLsbD 0

/-- FRESH, flag bit 1 (R196). -/
def StateFields.fresh (a : StateFields) : Bool := a.flags.getLsbD 1

/-- BUSY, DND and FAULT are copied (R134, R135, R136, R196). -/
def copyFlags (a : StateFields) (r : LineRec) : LineRec :=
  { r with busy := a.busy, dnd := a.flags.getLsbD 2, fault := a.flags.getLsbD 3 }

/-- The waiting page is confirmed (R134 case 2, R135). -/
def confirmWaiting (w : Waiting) (r : LineRec) : LineRec :=
  { r with confSerial := w.serial, confKind := some w.kind, confMuster := w.musterSerial, waiting := none }

/-- No page is confirmed: serial 0, kind NONE, muster serial 0 (R135, R136). -/
def confirmNone (serial : Word16) (r : LineRec) : LineRec :=
  { r with confSerial := serial, confKind := none, confMuster := 0 }

/-- The reported serial is that of the waiting record. -/
def matchesWaiting (serial : Word16) (r : LineRec) : Option Waiting := r.waiting.filter fun w => decide (w.serial = serial)

/-- The comparison of R134, first case that applies. -/
def confirmedBy (serial : Word16) (r : LineRec) : LineRec :=
  if serial = r.confSerial then r
  else
    match matchesWaiting serial r with
    | some w => confirmWaiting w r
    | none => confirmNone serial r

/-- The last test of R134: a station that has finished redrawing without showing the page it took. -/
def dropUnshown (a : StateFields) (r : LineRec) : LineRec :=
  match r.waiting with
  | some w => if !a.busy && decide (a.serial ≠ w.serial) then { r with waiting := none } else r
  | none => r

/-- The confirmed page at a baseline STATE (R135). -/
def baselineConfirm (serial : Word16) (r : LineRec) : LineRec :=
  match matchesWaiting serial r with
  | some w => confirmWaiting w r
  | none => confirmNone 0 r

/-- What a STATE leaves: the line record, presses lost, and whether an attention event is handed on. -/
structure StateEffect where
  record : LineRec
  lost : Nat
  event : Bool
  deriving DecidableEq, Repr

/-- A STATE without presses counted: the counters become the last counters of a cabin (R150). -/
def baselineEffect (a : StateFields) (r : LineRec) : StateEffect :=
  { record := onDoor (doorBaseline a.service a.assist) r, lost := 0, event := false }

/-- A STATE whose presses are counted, at a cabin (R150, R151, R154). -/
def pressEffect (masked : Bool) (a : StateFields) (r : LineRec) : StateEffect :=
  match r.door with
  | none => { record := r, lost := 0, event := false }
  | some d =>
    let p := doorPresses masked a.service a.assist d
    { record := { r with door := some p.door }, lost := p.lost, event := p.event }

/-- A valid STATE on the line record: FRESH (R136), the baseline (R135), or any other (R134), then the counters (R150). -/
def stateEffect (masked : Bool) (a : StateFields) (r : LineRec) : StateEffect :=
  let q := copyFlags a r
  if a.fresh then baselineEffect a { confirmNone 0 q with waiting := none, baseline := true }
  else if !q.baseline then baselineEffect a { baselineConfirm a.serial q with baseline := true }
  else pressEffect masked a (dropUnshown a (confirmedBy a.serial q))

/-- Lost presses and an attention event reach the Exchange Unit (R151, R154). -/
def stateXu (x : Nat) (second : Word32) (e : StateEffect) (u : XuState) : XuState :=
  let v := if 0 < e.lost then recordFault .lostPresses (some x) second e.lost u else u
  if e.event then causeDue .attention v else v

/-- A valid STATE ends a poll with the station heard (R129, R134 to R136). -/
def stateTaken (n x : Nat) (a : StateFields) (s : State) : State :=
  let e := stateEffect (decide (s.msc.state ≠ .standby)) a (answered s.clk.second (lineRec s.lcs x))
  let t := finishTxn n x idlePeriods e.record { s with xu := stateXu x s.clk.second e s.xu }
  if a.fresh then composeMarked [x] t else t

/-! ## Answers to the transaction in flight -/

/-- The transaction of a line while it can be answered: in its reply window, or with an answer still coming in (R126). -/
def awaiting (s : State) (n : Nat) : Option Txn := (lineAt s.lcs n).txn.filter windowOpen

end Sys2Proof.Machine
end

