-- ==== Sys2Proof/Machine/Operands.lean ====
section
/-! DEFINITION. What the operands of commands say: the fields of register writes (R175 to R179) and of the structures that
surveys read (R17, R152, R193). Reserved bits and bytes are ignored (R175, R191). -/

namespace Sys2Proof.Machine

/-! ## Register writes (R175, R177, R178) -/

/-- The base an XBASE_LO write puts in force: the pending high word, and bits 31 to 12 of the value (R177). -/
def writtenBase (pendingHi value : Word32) : Word64 := pendingHi ++ (value &&& 0xFFFFF000#32)

/-- The span an XBASE_LO write puts in force: bits 4 to 0, held as 16 above that (R177). -/
def writtenSpan (value : Word32) : Nat := min 16 (value.extractLsb' 0 5).toNat

/-- The interval a SURVEY write sets: bits 9 to 0, clamped to 10 to 1000 ms (R178). -/
def writtenInterval (value : Word32) : Nat := clampNat 10 1000 (value.extractLsb' 0 10).toNat

/-- The causes a CAUSE write clears: bits 0 to 6 written as 1 (R187). -/
def clearedCauses (value : Word32) : BitVec 7 := value.extractLsb' 0 7

/-! ## Structures a survey reads (R180, R193) -/

/-- The closure map of the live words; bit 0 is held as 0 (R17). -/
def closureWord (bs : List Byte) : Word64 := BitVec.ofNat 64 (u64 bs 0) &&& ~~~1#64

/-- The exterior-closed flag of the live words (R193). -/
def exteriorFlag (bs : List Byte) : Bool := (byteAt bs 8).getLsbD 0

/-- The service_ack a station's acknowledge record holds (R193). -/
def serviceAckAt (bs : List Byte) (x : Nat) : Byte := byteAt bs (4 * x)

/-- The assist_ack a station's acknowledge record holds (R193). -/
def assistAckAt (bs : List Byte) (x : Nat) : Byte := byteAt bs (4 * x + 1)

end Sys2Proof.Machine
end

