-- ==== Sys2Proof/Machine/Ops.lean ====
section
/-! DEFINITION. The operations of the commands that are not the Muster Controller's, the lines' or the editions': resets
(R175, R190), register writes (R177, R178, R189), the steps of a survey (R17, R152, R181, R182, R186), reports (R183),
the minute event (R45) and rotation countdowns (R112, R118). -/

namespace Sys2Proof.Machine

/-! ## Resets (R43, R44, R49, R64, R89, R108, R144, R175, R190) -/

/-- The Exchange Unit after either reset; MSIs sent and MSI delivery are the outside's (R190, log 7). -/
def clearedXu (x : XuState) : XuState := { resetXu with msiDelivery := x.msiDelivery, msiSent := x.msiSent }

/-- The latest end of a function reset: 1 ms after it began (R175). -/
def functionResetPeriods : Nat := Config.periodsPerMs

/-- A power-on reset begins (R190). -/
def powerOn (s : State) : State :=
  { s with
    phase := .powerOn, resetLeft := 0, clk := resetClock, sms := resetSms, rsv := resetRsv, pgu := resetPgu
    msc := resetMsc, pco := resetPco, lcs := resetLcs, xu := clearedXu s.xu }

/-- A function reset begins: the voyage clock counts on, and the offset is retained (R44, R49, R190). -/
def functionBegin (s : State) : State :=
  { s with
    phase := .function, resetLeft := functionResetPeriods, sms := resetSms, rsv := resetRsv
    pgu := { resetPgu with offset := s.pgu.offset, retained := true }
    msc := resetMsc, pco := resetPco, lcs := resetLcs, xu := clearedXu s.xu }

/-- May a function reset begin here (R175)? A CONTROL write is discarded while a reset holds the part. The spec is silent
on an FLR in a reset: in a power-on reset it is ignored, and in a function reset it begins that reset again with a fresh
1 ms (the model's choice, log 41). -/
def functionResetTaken (source : ResetSource) (phase : ResetPhase) : Bool :=
  match source, phase with
  | _, .operating => true
  | .flr, .function => true
  | _, _ => false

/-- Does the part work (R175)? -/
def operating (s : State) : Bool := decide (s.phase = .operating)

/-! ## The exchange area base (R177, R183, R189) -/

/-- Was a halt's report write among those dropped (R188)? -/
def haltDropped (x : XuState) : Bool :=
  x.reportDue.contains .halt || decide ((x.reportWrite.map ReportWrite.reason) = some .halt)

/-- The causes whose report write can no longer come (R187). -/
def strandedCauses (x : XuState) : BitVec 7 :=
  x.waiting ||| ((x.reportWrite.map ReportWrite.covers).getD 0) ||| if haltDropped x then causeBit .halted else 0

/-- The report and status writes not yet issued are dropped, and the causes that waited for them are latched at once
(R183, R187). -/
def dropWrites (x : XuState) : XuState :=
  let y := latchBits (strandedCauses x) { x with reportWrite := none, reportDue := [], waiting := 0 }
  match y.survey with
  | some (.status _ _ _) => endSurvey y
  | _ => y

/-- The base is made invalid: while RUNNING the countdown stops and the fault is NO_BASE (R189). -/
def baseLost (second : Word32) (x : XuState) : XuState :=
  let y := dropWrites x
  if x.runState = .running then noBase second { y with countdown := none } else y

/-- A write of XBASE_LO (R177, R189): the base in force changes at once, a changed area is marked whole, and while
RUNNING a valid base that was not valid starts the surveys. -/
def xbaseXu (second value : Word32) (x : XuState) : XuState :=
  let y := { x with base := writtenBase x.pendingHi value, span := writtenSpan value }
  let z := if y.base = x.base ∧ y.span = x.span then y else markAll y
  if baseValid y then
    if baseValid x = false ∧ x.runState = .running then startSurveys z else z
  else if baseValid x then baseLost second z
  else z

/-! ## Surveys (R178, R181, R182) -/

/-- A survey begins and the countdown is reloaded with the interval (R178, R181). -/
def reloadSurvey (x : XuState) : XuState := { beginSurvey x with countdown := some (surveyPeriods x) }

/-- A write of SURVEY (R178). -/
def surveyXu (value : Word32) (x : XuState) : XuState :=
  let y := { x with interval := writtenInterval value }
  if y.runState = .running ∧ baseValid y = true then reloadSurvey y else y

/-- Step 2 of a survey begins: the read of the live words (R181). -/
def readLive (x : XuState) : XuState :=
  { x with survey := some (.live (inSpan x.span liveOffset 12) busPeriods), surveyBase := x.base }

/-- Step 3 of a survey begins: the read of the acknowledge array (R181). -/
def readAcks (x : XuState) : XuState :=
  { x with survey := some (.acks (inSpan x.span ackOffset 1984) busPeriods), surveyBase := x.base }

/-- The publish word was read: staging may begin, and step 2 follows (R160, R181). -/
def publishTaken (bs : List Byte) (x : XuState) : XuState := readLive (takePublish bs x)

/-- A change of the live words raises the epoch, with a STALE notice for every slot that holds a vector (R16, R17, R28). -/
def graphMoved (s : State) : State := pairNotices (vectorPairs s.rsv.slots) (raiseEpoch s)

/-- The closure map is delivered (R17). -/
def deliverClosure (w : Word64) (s : State) : State :=
  let t := if w = s.sms.closure then s else graphMoved { s with sms := { s.sms with closure := w } }
  { s with sms := t.sms, rsv := t.rsv, pco := t.pco, xu := t.xu }

/-- The exterior-closed flag is delivered (R17). -/
def deliverExterior (b : Bool) (s : State) : State :=
  let t := if b = s.sms.exterior then s else graphMoved { s with sms := { s.sms with exterior := b } }
  { s with sms := t.sms, rsv := t.rsv, pco := t.pco, xu := t.xu }

/-- The live words were read: the closure map and then the flag are delivered, and step 3 follows (R17, R181). -/
def liveTaken (bs : List Byte) (s : State) : State :=
  let t := deliverExterior (exteriorFlag bs) (deliverClosure (closureWord bs) s)
  { t with xu := readAcks t.xu }

/-- Each configured cabin takes its acknowledgement pair (R152); `masked` is whether service requests are masked. -/
def acksLines (masked : Bool) (bs : List Byte) (stations : Tbl StationRec) (l : LcsState) : LcsState :=
  { l with
    recs := tblMap (fun x r =>
      if tblHas stations x then onDoor (doorAcks masked (serviceAckAt bs x) (assistAckAt bs x)) r else r) l.recs }

/-- Does the pair of some configured cabin hand on an attention event (R154)? -/
def acksEvent (masked : Bool) (bs : List Byte) (stations : Tbl StationRec) (l : LcsState) : Bool :=
  l.recs.any fun e =>
    tblHas stations e.1
      && (e.2.door.map fun d => pendingRose masked d (ackedDoor (serviceAckAt bs e.1) (assistAckAt bs e.1) d)).getD false

/-- The acknowledge array was read, and step 4 follows (R152, R154, R181). -/
def acksTaken (bs : List Byte) (s : State) : State :=
  let masked := decide (s.msc.state ≠ .standby)
  surveyWrites 0
    { s with
      lcs := acksLines masked bs s.sms.stations s.lcs
      xu := if acksEvent masked bs s.sms.stations s.lcs then causeDue .attention s.xu else s.xu }

/-- A survey read failed: it is counted, and the survey goes on with its next step (R182). -/
def surveyReadFailed (v : Survey) (s : State) : State :=
  let x := recordFault .fetchFailed none s.clk.second 1 s.xu
  match v with
  | .publish _ _ => { s with xu := readLive x }
  | .live _ _ => { s with xu := readAcks x }
  | .acks _ _ => surveyWrites 0 { s with xu := x }
  | .status _ _ _ => s
  | .report => s

/-- Is a survey's step a read that was issued, so that data can come (R182)? -/
def surveyReads : Survey → Bool
  | .publish _ _ => true
  | .live _ _ => true
  | .acks _ _ => true
  | .status _ _ _ => false
  | .report => false

/-! ## Status and report writes (R183, R186) -/

/-- A status record was written: its content is held as written, and the next follows (R186). -/
def statusDone (x : Nat) (content : StatusRec) (s : State) : State :=
  surveyWrites (x + 1)
    { s with xu := { s.xu with status := tblPut s.xu.status x { statusHold s.xu x with written := some content } } }

/-- A status write failed: it is counted, the record stays marked, and the next follows (R183, R186). -/
def statusFailed (x : Nat) (s : State) : State :=
  surveyWrites (x + 1) { s with xu := markStatus x true (recordFault .reportWrite none s.clk.second 1 s.xu) }

/-- A report write succeeded: its content is the block last written, and its causes are latched (R183, R187). -/
def reportDone (w : ReportWrite) (x : XuState) : XuState :=
  reportEnded w (latchBits w.covers { x with reportWrite := none, reportLast := some w.fields })

/-- A report write failed: it is counted, the block is written again at the next survey, and its causes wait on
(R183). -/
def reportFailed (second : Word32) (w : ReportWrite) (x : XuState) : XuState :=
  reportEnded w
    (recordFault .reportWrite none second 1
      { x with reportWrite := none, reportMark := true, waiting := x.waiting ||| w.covers })

/-! ## Minute events and voyage seconds (R44, R45, R54, R116) -/

/-- A voyage second: the clock rises by one, and a multiple of 60 brings about a minute event (R44, R45). -/
def secondTaken (c : ClockState) : ClockState :=
  let second := c.second + 1
  { second, prescale := c.prescale - Config.periodsPerSecond
    minuteDue := c.minuteDue || decide (second.toNat % 60 = 0) }

/-- The state after an evaluation's and the interjections' own changes, before claims and notices (R54, R116). -/
def minuteState (s : State) : State :=
  let t :=
    { s with
      clk := { s.clk with minuteDue := false }
      pgu := evalPgu s.sms (voyageMinute s.clk) s.pgu }
  { t with pco := minuteRots t }

/-- A minute event (R45): one evaluation, one claim operation, and the notices that follow (R34, R50, R62, R95). -/
def minuteTaken (s : State) : State :=
  let t := claimOp (minuteState s)
  pageBlocks (markMoved s.pco.rots (listNotices s.pgu [] (timeNotice s.pgu t))) t

/-! ## Rotation countdowns (R112, R118) -/

/-- Put a station's rotation state and mark the station: its position changed (R95, R110). -/
def moveRot (x : Nat) (r : RotState) (s : State) : State :=
  composeMarked [x] { s with pco := { s.pco with rots := tblPut s.pco.rots x r } }

/-- The rotation state whose STEP countdown has run out at a station, with its step, in STANDBY (R112, R121). -/
def expiredStep (s : State) (x : Nat) : Option (RotState × Nat) :=
  match tblGet s.pco.rots x with
  | some r =>
    match r.position with
    | .step n => if s.msc.state = .standby ∧ r.countdown = some 0 then some (r, n) else none
    | _ => none
  | none => none

/-- The rotation state whose INTERJECTION countdown has run out at a station, in STANDBY (R118, R121). -/
def expiredInterj (s : State) (x : Nat) : Option RotState :=
  match tblGet s.pco.rots x with
  | some r =>
    match r.position with
    | .interj _ => if s.msc.state = .standby ∧ r.countdown = some 0 then some r else none
    | _ => none
  | none => none

/-! ## Solves (R38, R39, R83) -/

/-- The solve of a pair completes: the slot is READY, the Page Composer gets its notice, and for a MUSTER slot the
effective stations are computed afresh (R38, R39, R83). The spec does not order the two: the model composes the pages of
the READY notice with the map as it stood, and then takes the notices of changed entries (log 10). -/
def solveTaken (p : Pair) (s : State) : State :=
  let t := pairNotices [p] (finishSolve s)
  let u := if p.regime = .muster then mapNotices t.msc (recomputeMap t) else t
  { s with rsv := t.rsv, msc := u.msc, pco := u.pco, xu := u.xu }

/-! ## Refresh countdowns (R146) -/

/-- Has a cabin's refresh countdown run out? -/
def refreshRunOut (s : State) (x : Nat) : Bool :=
  decide ((lineRec s.lcs x).door.bind DoorRec.refresh = some 0)

/-- The refresh countdown becomes expired (R146). -/
def expireRefresh (x : Nat) (l : LcsState) : LcsState :=
  setLineRec x (onDoor (fun d => { d with refresh := none }) (lineRec l x)) l

/-! ## The qualifiers of the ship inputs (R65, R86) -/

/-- How long a pin holds a level before the qualifier takes it: 20 ms (R65). -/
def qualifyPeriods : Nat := 20 * Config.periodsPerMs

/-- Has the pin held this level for 20 ms without a break since the reset (R65)? -/
def pinHeld (level : Bool) (p : PinHold) : Bool := decide (p.level = level) && decide (qualifyPeriods ≤ p.held)

/-! ## The answer to a command -/

/-- What a command answers: `t` with the report writes it made due begun (R183), where the part works and the command's
event can come about (`can`); else the state as it was (R175, log 2). -/
def answer (can : Bool) (t s : State) : Host.Outcome State Fault Refusal :=
  .next (if operating s && can then flush t else s)

end Sys2Proof.Machine
end

