-- ==== Sys2Proof/Machine/EditionCmds.lean ====
section
/-! DEFINITION. The meanings of the staging's reads and of the end of validation (R161 to R168). A read whose bytes lie
beyond the captured span is not issued, so it cannot complete (R165). -/

namespace Sys2Proof.Machine

/-- NOTICE_HEADER_READ (R161). -/
def execNoticeHeaderRead (bytes : List Byte) (s : State) : Host.Outcome State Fault Refusal :=
  match s.xu.stage with
  | some g =>
    answer (decide (g.phase = .header) && readIssued g) (applyProgress g.number (headerTaken bytes g) s) s
  | none => .next s

/-- DIRECTORY_READ (R163). -/
def execDirectoryRead (bytes : List Byte) (s : State) : Host.Outcome State Fault Refusal :=
  match s.xu.stage with
  | some g =>
    answer (decide (g.phase = .directory) && readIssued g) (applyProgress g.number (directoryTaken bytes g) s) s
  | none => .next s

/-- NOTICE_ENTRIES_READ (R161, R162). -/
def execNoticeEntriesRead (bytes : List Byte) (s : State) : Host.Outcome State Fault Refusal :=
  match s.xu.stage with
  | some g =>
    answer (decide (g.phase = .entries) && readIssued g)
      (applyProgress g.number (takeEntries g (parseEntries bytes g.count)) s) s
  | none => .next s

/-- RECORD_READ (R162, R165). -/
def execRecordRead (bytes : List Byte) (s : State) : Host.Outcome State Fault Refusal :=
  match s.xu.stage with
  | some g =>
    match g.phase with
    | .record entry leaf sub index last =>
      answer (readIssued g) (applyProgress g.number (takeRecord g entry leaf sub index last bytes) s) s
    | _ => .next s
  | none => .next s

/-- PUBLISH_WORD_REREAD (R166). -/
def execPublishWordReread (bytes : List Byte) (s : State) : Host.Outcome State Fault Refusal :=
  match s.xu.stage with
  | some g =>
    answer (decide (g.phase = .reread) && readIssued g) (applyProgress g.number (rereadTaken bytes g) s) s
  | none => .next s

/-- VALIDATION_DONE: the edition is committed or rejected (R168, R169, R171). -/
def execValidationDone (s : State) : Host.Outcome State Fault Refusal :=
  match s.xu.stage with
  | some g => answer (decide (g.phase = .validating)) (finishValidation g s) s
  | none => .next s

end Sys2Proof.Machine
end

