-- ==== Sys2Proof/Machine/LineCmds.lean ====
section
/-! DEFINITION. The meanings of the commands of the eight lines (R126 to R141). An answer is taken while a transaction is
in flight and its reply window is open, or closed with the answer still coming in (R126). -/

namespace Sys2Proof.Machine

/-- TURN: a Line Controller chooses a turn and begins a poll or a page transfer (R139). -/
def execTurn (line : Nat) (s : State) : Host.Outcome State Fault Refusal :=
  answer (decide (line < s.lcs.lines.length) && turnReady (lineAt s.lcs line)) (takeTurn line s) s

/-- SILENT_CYCLE_EXPIRY: the 5 ms of silence end, and their cycle with them (R140). -/
def execSilentCycleExpiry (line : Nat) (s : State) : Host.Outcome State Fault Refusal :=
  answer (decide (line < s.lcs.lines.length) && decide ((lineAt s.lcs line).silence = some 0))
    { s with lcs := setLine line (silenceOver (lineAt s.lcs line)) s.lcs } s

/-- STATE_ANSWER: to a CALL it is taken (R134 to R136); to a page frame it is of a kind not allowed (R126). -/
def execStateAnswer (line : Nat) (flags : Byte) (serial : Word16) (service assist : Byte) (s : State) :
    Host.Outcome State Fault Refusal :=
  answer (awaiting s line).isSome
    (match awaiting s line with
     | some t =>
       match t.transfer with
       | none => stateTaken line t.station { flags, serial, service, assist } s
       | some _ => discardAnswer line idlePeriods t s
     | none => s) s

/-- TAKEN_TO_PAGE_HEAD: the transfer completes at its head, is abandoned, or goes on to block 1 (R130); a poll allows no
TAKEN (R129). -/
def execTakenToPageHead (line : Nat) (s : State) : Host.Outcome State Fault Refusal :=
  answer (awaiting s line).isSome
    (match awaiting s line with
     | some t =>
       match t.transfer with
       | none => discardAnswer line idlePeriods t s
       | some (p, 0) => headTaken line t.station p s
       | some (_, _ + 1) => s
     | none => s) s

/-- TAKEN_TO_PAGE_BLOCK: the next block, the completion, or the abandonment (R131, R132, R133); a poll allows no TAKEN
(R129). -/
def execTakenToPageBlock (line : Nat) (s : State) : Host.Outcome State Fault Refusal :=
  answer (awaiting s line).isSome
    (match awaiting s line with
     | some t =>
       match t.transfer with
       | none => discardAnswer line idlePeriods t s
       | some (_, 0) => s
       | some (p, k + 1) => blockTaken line t.station p (k + 1) s
     | none => s) s

/-- HELD_OFF: a head is refused, a block fails its transfer (R130, R131); a poll allows no HELD_OFF (R129). -/
def execHeldOff (line : Nat) (s : State) : Host.Outcome State Fault Refusal :=
  answer (awaiting s line).isSome
    (match awaiting s line with
     | some t =>
       match t.transfer with
       | none => discardAnswer line idlePeriods t s
       | some _ => heldOffAnswer line t s
     | none => s) s

/-- ANSWER_DISCARDED: an answer fails a check of R126; it is counted and counts as no answer. -/
def execAnswerDiscarded (line : Nat) (s : State) : Host.Outcome State Fault Refusal :=
  answer (awaiting s line).isSome
    (match awaiting s line with
     | some t => discardAnswer line (brokenIdle s line) t s
     | none => s) s

/-- REPLY_WINDOW_TIMEOUT: the window closes with no start byte received; the frame has no answer (R126). -/
def execReplyWindowTimeout (line : Nat) (s : State) : Host.Outcome State Fault Refusal :=
  answer ((lineAt s.lcs line).txn.any windowClosed)
    (match (lineAt s.lcs line).txn with
     | some t => noAnswer line idlePeriods t s
     | none => s) s

end Sys2Proof.Machine
end

