-- ==== Sys2Proof/Machine/MusterCmds.lean ====
section
/-! DEFINITION. The meanings of the muster orders, of the two ship inputs and of the muster timers (R65 to R87). -/

namespace Sys2Proof.Machine

/-- CALL_REAL (R69). -/
def execCallReal (s : State) : Host.Outcome State Fault Refusal := answer true (orderCallReal s) s

/-- CALL_DRILL (R69). -/
def execCallDrill (s : State) : Host.Outcome State Fault Refusal := answer true (orderCallDrill s) s

/-- STAND_DOWN (R69, R74). -/
def execStandDown (s : State) : Host.Outcome State Fault Refusal := answer true (orderStandDown s) s

/-- BAD_ORDER: any other order code changes the last order outcome alone (R69, R179). -/
def execBadOrder (_code : BitVec 4) (s : State) : Host.Outcome State Fault Refusal :=
  answer true (withOutcome .badOrder s) s

/-- ALARM_QUALIFIED_TRANSITION (R65), the pin having held the new level for 20 ms: under LEVEL the test of R66, under EDGE
a rising transition is one REAL call (R67). -/
def execAlarmQualifiedTransition (level : Bool) (s : State) : Host.Outcome State Fault Refusal :=
  answer (decide (s.msc.alarm = some (!level)) && pinHeld level s.msc.alarmPin)
    (let t := { s with msc := { s.msc with alarm := some level } }
     match s.sms.settings.alarmSense with
     | .level => levelTest t
     | .edge => musterBlocks (if level then realCall t else t) t) s

/-- ALARM_INITIAL_LEVEL: the first level after a reset is no transition; under LEVEL it is tested (R65, R66, R67). -/
def execAlarmInitialLevel (level : Bool) (s : State) : Host.Outcome State Fault Refusal :=
  answer (decide (s.msc.alarm = none) && pinHeld level s.msc.alarmPin)
    (levelTest { s with msc := { s.msc with alarm := some level } }) s

/-- RESERVE_QUALIFIED_RISE: the reserve regime begins (R86). -/
def execReserveQualifiedRise (s : State) : Host.Outcome State Fault Refusal :=
  answer (decide (s.msc.reserveLevel = some false) && pinHeld true s.msc.reservePin)
    (reserveBegin { s with msc := { s.msc with reserveLevel := some true } }) s

/-- RESERVE_QUALIFIED_FALL: the reserve regime ends (R87). -/
def execReserveQualifiedFall (s : State) : Host.Outcome State Fault Refusal :=
  answer (decide (s.msc.reserveLevel = some true) && pinHeld false s.msc.reservePin)
    (reserveFinish { s with msc := { s.msc with reserveLevel := some false } }) s

/-- RESERVE_INITIAL_LEVEL: the regime begins at an initial level that is asserted (R86). -/
def execReserveInitialLevel (level : Bool) (s : State) : Host.Outcome State Fault Refusal :=
  answer (decide (s.msc.reserveLevel = none) && pinHeld level s.msc.reservePin)
    (let t := { s with msc := { s.msc with reserveLevel := some level } }
     musterBlocks (if level then reserveBegin t else t) t) s

/-- CALLED_TIMER_EXPIRY: CALLED ends in MUSTERING 60 s after its entry (R72). -/
def execCalledTimerExpiry (s : State) : Host.Outcome State Fault Refusal :=
  answer (decide (s.msc.calledTimer = some 0) && decide (s.msc.state = .called)) (endCalled s) s

/-- STAND_DOWN_HOLD_EXPIRY: STANDING_DOWN ends in STANDBY (R75). -/
def execStandDownHoldExpiry (s : State) : Host.Outcome State Fault Refusal :=
  answer (decide (s.msc.holdTimer = some 0) && decide (s.msc.state = .standingDown)) (returnToStandby s) s

end Sys2Proof.Machine
end

