-- ==== Sys2Proof/Machine/RegisterCmds.lean ====
section
/-! DEFINITION. The meanings of the register writes (R175 to R178, R187 to R189). While a reset holds the part a write is
discarded (R175). -/

namespace Sys2Proof.Machine

/-- RUN_REQUEST: a CONTROL write with RUN 1 (R188). -/
def execRunRequest (s : State) : Host.Outcome State Fault Refusal := answer true (runRequest s) s

/-- HALT_REQUEST: a CONTROL write with RUN 0 (R188). -/
def execHaltRequest (s : State) : Host.Outcome State Fault Refusal := answer true (haltRequest s) s

/-- CAUSE_ENABLES_WRITE: the seven enables of a CONTROL write take the written values at once (R176, R187). -/
def execCauseEnablesWrite (enables : BitVec 7) (s : State) : Host.Outcome State Fault Refusal :=
  answer true { s with xu := withCauses s.xu.causes enables s.xu } s

/-- CAUSE_CLEAR: a write of CAUSE clears every bit written as 1 (R187). -/
def execCauseClear (value : Word32) (s : State) : Host.Outcome State Fault Refusal :=
  answer true { s with xu := withCauses (s.xu.causes &&& ~~~clearedCauses value) s.xu.enables s.xu } s

/-- XBASE_HI_WRITE: the value is held as the pending high word (R177). -/
def execXbaseHiWrite (value : Word32) (s : State) : Host.Outcome State Fault Refusal :=
  answer true { s with xu := { s.xu with pendingHi := value } } s

/-- XBASE_LO_WRITE: the base and span in force change at once (R177, R189). -/
def execXbaseLoWrite (value : Word32) (s : State) : Host.Outcome State Fault Refusal :=
  answer true { s with xu := xbaseXu s.clk.second value s.xu } s

/-- SURVEY_WRITE: the interval is set, and while running with a valid base a survey begins (R178). -/
def execSurveyWrite (value : Word32) (s : State) : Host.Outcome State Fault Refusal :=
  answer true { s with xu := surveyXu value s.xu } s

/-- UNMAPPED_ACCESS: a write at an unassigned offset or of another size has no effect (R175). -/
def execUnmappedAccess (_offset _size : Nat) (_value : Word64) (s : State) : Host.Outcome State Fault Refusal := .next s

end Sys2Proof.Machine
end

