-- ==== Sys2Proof/Machine/ResetCmds.lean ====
section
/-! DEFINITION. The meanings of the resets and of their ends (R175, R190). A reset issues no bus access (R190), so none of
them begins a report write. -/

namespace Sys2Proof.Machine

/-- POWER_ON_RESET: RESET_N or PERST# begins a power-on reset, whatever the part does (R190). -/
def execPowerOnReset (s : State) : Host.Outcome State Fault Refusal := .next (powerOn s)

/-- POWER_ON_RESET_END: the reset is released (R175). -/
def execPowerOnResetEnd (s : State) : Host.Outcome State Fault Refusal :=
  .next (if s.phase = .powerOn then { s with phase := .operating } else s)

/-- FUNCTION_RESET: a CONTROL write with RESET set, or an FLR (R176, R190). -/
def execFunctionReset (source : ResetSource) (s : State) : Host.Outcome State Fault Refusal :=
  .next (if functionResetTaken source s.phase then functionBegin s else s)

/-- FUNCTION_RESET_END: the function reset ends (R175). -/
def execFunctionResetEnd (s : State) : Host.Outcome State Fault Refusal :=
  .next (if s.phase = .function then { s with phase := .operating, resetLeft := 0 } else s)

end Sys2Proof.Machine
end

