-- ==== Sys2Proof/Machine/SurveyCmds.lean ====
section
/-! DEFINITION. The meanings of the survey's reads and writes, of the report writes and of the end of a halt (R181 to
R188). A read whose bytes lie beyond the span is not issued, so it cannot complete (R182). -/

namespace Sys2Proof.Machine

/-- PUBLISH_WORD_READ: step 1 of a survey completes (R160, R181). -/
def execPublishWordRead (bytes : List Byte) (s : State) : Host.Outcome State Fault Refusal :=
  answer (match s.xu.survey with
      | some (.publish issued _) => issued
      | _ => false)
    { s with xu := publishTaken bytes s.xu } s

/-- LIVE_WORDS_READ: step 2 of a survey completes (R17, R181). -/
def execLiveWordsRead (bytes : List Byte) (s : State) : Host.Outcome State Fault Refusal :=
  answer (match s.xu.survey with
      | some (.live issued _) => issued
      | _ => false)
    (liveTaken bytes s) s

/-- ACK_ARRAY_READ: step 3 of a survey completes (R152, R181). -/
def execAckArrayRead (bytes : List Byte) (s : State) : Host.Outcome State Fault Refusal :=
  answer (match s.xu.survey with
      | some (.acks issued _) => issued
      | _ => false)
    (acksTaken bytes s) s

/-- BUS_READ_FAILED: the read outstanding on one side of the Exchange Unit fails (R165, R182). -/
def execBusReadFailed (side : ReadSide) (s : State) : Host.Outcome State Fault Refusal :=
  match side with
  | .survey =>
    answer ((s.xu.survey.map surveyReads).getD false)
      (match s.xu.survey with
       | some v => surveyReadFailed v s
       | none => s) s
  | .staging =>
    answer ((s.xu.stage.map awaitsRead).getD false)
      (match s.xu.stage with
       | some g => stagingFailed g s
       | none => s) s

/-- STATUS_RECORD_WRITTEN: the status record write in progress is issued in time (R186). -/
def execStatusRecordWritten (s : State) : Host.Outcome State Fault Refusal :=
  match s.xu.survey with
  | some (.status x content _) => answer true (statusDone x content s) s
  | _ => .next s

/-- STATUS_WRITE_FAILED: the status record write in progress is not issued in time (R186). -/
def execStatusWriteFailed (s : State) : Host.Outcome State Fault Refusal :=
  match s.xu.survey with
  | some (.status x _ _) => answer true (statusFailed x s) s
  | _ => .next s

/-- REPORT_WRITE_DONE: the report write in progress is issued in time (R183). -/
def execReportWriteDone (s : State) : Host.Outcome State Fault Refusal :=
  match s.xu.reportWrite with
  | some w => answer true { s with xu := reportDone w s.xu } s
  | none => .next s

/-- REPORT_WRITE_FAILED: the report write in progress is not issued in time (R183). -/
def execReportWriteFailed (s : State) : Host.Outcome State Fault Refusal :=
  match s.xu.reportWrite with
  | some w => answer true { s with xu := reportFailed s.clk.second w s.xu } s
  | none => .next s

/-- HALT_COMPLETE: everything a halt waits for has ended (R188). -/
def execHaltComplete (s : State) : Host.Outcome State Fault Refusal := answer (haltReady s) (completeHalt s) s

end Sys2Proof.Machine
end

