-- ==== Sys2Proof/Machine/TimeCmds.lean ====
section
/-! DEFINITION. The meanings of the commands of time: voyage seconds, minute events, rotation, refresh and survey
countdowns, and the completion of a solve. -/

namespace Sys2Proof.Machine

/-- VOYAGE_SECOND: 25,000,000 reference periods have passed (R44). The clock counts through a function reset, and not
while a power-on reset holds it at 0. -/
def execVoyageSecond (s : State) : Host.Outcome State Fault Refusal :=
  .next (if decide (Config.periodsPerSecond ≤ s.clk.prescale) && decide (s.phase ≠ .powerOn) then
    { s with clk := secondTaken s.clk } else s)

/-- MINUTE_EVENT: the voyage minute has changed through the clock's own counting (R45). -/
def execMinuteEvent (s : State) : Host.Outcome State Fault Refusal :=
  .next (if s.clk.minuteDue && decide (s.phase ≠ .powerOn) then flush (minuteTaken s) else s)

/-- SURVEY_COUNTDOWN_EXPIRY: the countdown is reloaded and a survey begins (R181). -/
def execSurveyCountdownExpiry (s : State) : Host.Outcome State Fault Refusal :=
  answer (decide (s.xu.countdown = some 0)) { s with xu := reloadSurvey s.xu } s

/-- STEP_COUNTDOWN_EXPIRY: a step boundary of a STEP position (R112, R118). -/
def execStepCountdownExpiry (station : Nat) (s : State) : Host.Outcome State Fault Refusal :=
  answer (expiredStep s station).isSome
    (match expiredStep s station with
     | some (r, n) =>
       moveRot station (stepBoundary s.pco.rotations s.pco.interjections (voyageMinute s.clk) n r) s
     | none => s) s

/-- INTERJECTION_COUNTDOWN_EXPIRY: a step boundary of an INTERJECTION position (R118). -/
def execInterjectionCountdownExpiry (station : Nat) (s : State) : Host.Outcome State Fault Refusal :=
  answer (expiredInterj s station).isSome
    (match expiredInterj s station with
     | some r => moveRot station (interjBoundary s.pco.interjections (voyageMinute s.clk) r) s
     | none => s) s

/-- REFRESH_COUNTDOWN_EXPIRY: a cabin's refresh countdown becomes expired (R146). -/
def execRefreshCountdownExpiry (station : Nat) (s : State) : Host.Outcome State Fault Refusal :=
  answer (refreshRunOut s station) { s with lcs := expireRefresh station s.lcs } s

/-- SOLVE_COMPLETE: the slot that is SOLVING becomes READY (R38). -/
def execSolveComplete (s : State) : Host.Outcome State Fault Refusal :=
  answer (solvingPair s.rsv.slots).isSome
    (match solvingPair s.rsv.slots with
     | some p => solveTaken p s
     | none => s) s

end Sys2Proof.Machine
end

