-- ==== Sys2Proof/Machine/Dispatch.lean ====
section
/-! DEFINITION. One arm per command; each is one direct call of its meaning. -/

namespace Sys2Proof.Machine

/-- The effect of a command on everything but the queue. -/
def exec (i : Instr) (s : State) : Host.Outcome State Fault Refusal :=
  match i with
  | .powerOnReset => Sys2Proof.Machine.execPowerOnReset s
  | .functionReset source => Sys2Proof.Machine.execFunctionReset source s
  | .functionResetEnd => Sys2Proof.Machine.execFunctionResetEnd s
  | .runRequest => Sys2Proof.Machine.execRunRequest s
  | .haltRequest => Sys2Proof.Machine.execHaltRequest s
  | .causeEnablesWrite enables => Sys2Proof.Machine.execCauseEnablesWrite enables s
  | .causeClear value => Sys2Proof.Machine.execCauseClear value s
  | .xbaseHiWrite value => Sys2Proof.Machine.execXbaseHiWrite value s
  | .xbaseLoWrite value => Sys2Proof.Machine.execXbaseLoWrite value s
  | .surveyWrite value => Sys2Proof.Machine.execSurveyWrite value s
  | .callReal => Sys2Proof.Machine.execCallReal s
  | .callDrill => Sys2Proof.Machine.execCallDrill s
  | .standDown => Sys2Proof.Machine.execStandDown s
  | .badOrder code => Sys2Proof.Machine.execBadOrder code s
  | .unmappedAccess offset size value => Sys2Proof.Machine.execUnmappedAccess offset size value s
  | .alarmQualifiedTransition level => Sys2Proof.Machine.execAlarmQualifiedTransition level s
  | .alarmInitialLevel level => Sys2Proof.Machine.execAlarmInitialLevel level s
  | .reserveQualifiedRise => Sys2Proof.Machine.execReserveQualifiedRise s
  | .reserveQualifiedFall => Sys2Proof.Machine.execReserveQualifiedFall s
  | .reserveInitialLevel level => Sys2Proof.Machine.execReserveInitialLevel level s
  | .minuteEvent => Sys2Proof.Machine.execMinuteEvent s
  | .calledTimerExpiry => Sys2Proof.Machine.execCalledTimerExpiry s
  | .standDownHoldExpiry => Sys2Proof.Machine.execStandDownHoldExpiry s
  | .surveyCountdownExpiry => Sys2Proof.Machine.execSurveyCountdownExpiry s
  | .stepCountdownExpiry station => Sys2Proof.Machine.execStepCountdownExpiry station s
  | .interjectionCountdownExpiry station => Sys2Proof.Machine.execInterjectionCountdownExpiry station s
  | .refreshCountdownExpiry station => Sys2Proof.Machine.execRefreshCountdownExpiry station s
  | .solveComplete => Sys2Proof.Machine.execSolveComplete s
  | .turn line => Sys2Proof.Machine.execTurn line s
  | .silentCycleExpiry line => Sys2Proof.Machine.execSilentCycleExpiry line s
  | .stateAnswer line flags serial service assist => Sys2Proof.Machine.execStateAnswer line flags serial service assist s
  | .takenToPageHead line => Sys2Proof.Machine.execTakenToPageHead line s
  | .takenToPageBlock line => Sys2Proof.Machine.execTakenToPageBlock line s
  | .heldOff line => Sys2Proof.Machine.execHeldOff line s
  | .answerDiscarded line => Sys2Proof.Machine.execAnswerDiscarded line s
  | .replyWindowTimeout line => Sys2Proof.Machine.execReplyWindowTimeout line s
  | .publishWordRead bytes => Sys2Proof.Machine.execPublishWordRead bytes s
  | .liveWordsRead bytes => Sys2Proof.Machine.execLiveWordsRead bytes s
  | .ackArrayRead bytes => Sys2Proof.Machine.execAckArrayRead bytes s
  | .statusRecordWritten => Sys2Proof.Machine.execStatusRecordWritten s
  | .statusWriteFailed => Sys2Proof.Machine.execStatusWriteFailed s
  | .reportWriteDone => Sys2Proof.Machine.execReportWriteDone s
  | .reportWriteFailed => Sys2Proof.Machine.execReportWriteFailed s
  | .busReadFailed side => Sys2Proof.Machine.execBusReadFailed side s
  | .noticeHeaderRead bytes => Sys2Proof.Machine.execNoticeHeaderRead bytes s
  | .directoryRead bytes => Sys2Proof.Machine.execDirectoryRead bytes s
  | .noticeEntriesRead bytes => Sys2Proof.Machine.execNoticeEntriesRead bytes s
  | .recordRead bytes => Sys2Proof.Machine.execRecordRead bytes s
  | .publishWordReread bytes => Sys2Proof.Machine.execPublishWordReread bytes s
  | .validationDone => Sys2Proof.Machine.execValidationDone s
  | .haltComplete => Sys2Proof.Machine.execHaltComplete s
  | .powerOnResetEnd => Sys2Proof.Machine.execPowerOnResetEnd s
  | .voyageSecond => Sys2Proof.Machine.execVoyageSecond s

end Sys2Proof.Machine
end

