-- ==== Sys2Proof/Machine/Tick.lean ====
section
/-! DEFINITION. One period of the 25 MHz reference with no command waiting (DESIGN CHOICE, log 1): every timer that runs
counts down one period, and the events that have come about join the queue in a fixed order. Completions of bus
accesses, solves and validations and the answers of stations come from outside; what the pins and the lines bring in the
period is a free value (Config). -/

namespace Sys2Proof.Machine

/-! ## Timers -/

/-- A timer counts down one period; at 0 it has run out and waits to be taken. -/
def count (t : Option Nat) : Option Nat := t.map fun n => n - 1

/-- The voyage clock's prescaler takes one period (R44). -/
def tickClock (c : ClockState) : ClockState := { c with prescale := c.prescale + 1 }

/-- A pin through one period at a level (R65). -/
def tickPin (level : Bool) (p : PinHold) : PinHold :=
  if p.level = level then { p with held := min qualifyPeriods (p.held + 1) } else { level, held := 1 }

/-- The called timer and the hold timer (R70, R74), and the pins as they stand in period `k` (R65, R86, log 8). -/
def tickMsc (k : Nat) (c : MscState) : MscState :=
  { c with
    calledTimer := count c.calledTimer, holdTimer := count c.holdTimer
    alarmPin := tickPin (Config.alarmPin k) c.alarmPin, reservePin := tickPin (Config.reservePin k) c.reservePin }

/-- Rotation and interjection countdowns run in STANDBY (R110, R121). -/
def tickPco (standby : Bool) (p : PcoState) : PcoState :=
  { p with
    rots := if standby then tblMap (fun _ r => { r with countdown := count r.countdown }) p.rots else p.rots }

/-- The transaction of line `n` in period `k` (R124, R126, log 38): a stray byte in the idle time before a frame restarts
that time; at the close of the reply window an answer may have begun; an answer coming in runs out of time. -/
def tickTxn (n k : Nat) (t : Txn) : Txn :=
  if t.left = 0 then { t with coming := count t.coming }
  else if framePeriods t < t.left ∧ Config.strayByte n k = true then { t with left := idlePeriods + framePeriods t }
  else if t.left = 1 then { t with left := 0, coming := if Config.answerBegun n k then some longestAnswer else none }
  else { t with left := t.left - 1 }

/-- A line's transaction, its idle time and its silence in period `k` (R124, R126, R140): with no transaction in flight a
stray byte restarts the idle time (log 38). -/
def tickLine (k n : Nat) (l : LineCtl) : LineCtl :=
  { l with
    txn := l.txn.map (tickTxn n k)
    idle := if l.txn.isNone && Config.strayByte n k then idlePeriods else l.idle - 1
    silence := count l.silence }

/-- The lines, and the refresh countdowns of the cabins (R146). -/
def tickLcs (k : Nat) (l : LcsState) : LcsState :=
  { lines := l.lines.mapIdx (tickLine k)
    recs := tblMap (fun _ r => onDoor (fun d => { d with refresh := count d.refresh }) r) l.recs }

/-- The time a survey's read or write still has (R182, R183). -/
def tickSurvey : Survey → Survey
  | .publish issued left => .publish issued (left - 1)
  | .live issued left => .live issued (left - 1)
  | .acks issued left => .acks issued (left - 1)
  | .status x content left => .status x content (left - 1)
  | .report => .report

/-- The survey countdown, and the time each bus access still has (R181, R182, R183). -/
def tickXu (x : XuState) : XuState :=
  { x with
    countdown := count x.countdown, survey := x.survey.map tickSurvey
    stage := x.stage.map fun g => { g with left := g.left - 1 }
    reportWrite := x.reportWrite.map fun w => { w with left := w.left - 1 } }

/-- Every timer that runs, in each phase: a power-on reset holds them all, a function reset leaves the voyage clock
(R44, R175). -/
def tickTimers (s : State) : State :=
  match s.phase with
  | .powerOn => s
  | .function => { s with clk := tickClock s.clk, resetLeft := s.resetLeft - 1 }
  | .operating =>
    { s with
      clk := tickClock s.clk, msc := tickMsc s.periods s.msc, pco := tickPco (decide (s.msc.state = .standby)) s.pco
      lcs := tickLcs s.periods s.lcs, xu := tickXu s.xu }

/-! ## Events that have come about -/

/-- An event, when its condition holds. -/
def event (b : Bool) (i : Instr) : List Instr := if b then [i] else []

/-- Voyage seconds and minute events (R44, R45). -/
def clockEvents (c : ClockState) : List Instr :=
  event (decide (Config.periodsPerSecond ≤ c.prescale)) .voyageSecond ++ event c.minuteDue .minuteEvent

/-- Rotation countdowns that have run out (R112, R118). -/
def rotEvents (s : State) : List Instr :=
  (tblKeys s.pco.rots).flatMap fun x =>
    event (expiredStep s x).isSome (.stepCountdownExpiry x)
      ++ event (expiredInterj s x).isSome (.interjectionCountdownExpiry x)

/-- Refresh countdowns that have run out (R146). -/
def refreshEvents (s : State) : List Instr :=
  (tblKeys s.lcs.recs).flatMap fun x => event (refreshRunOut s x) (.refreshCountdownExpiry x)

/-- The new levels of the pins that have been held for 20 ms (R65, R86). -/
def pinEvents (c : MscState) : List Instr :=
  (match c.alarm with
    | none => event (pinHeld c.alarmPin.level c.alarmPin) (.alarmInitialLevel c.alarmPin.level)
    | some q => event (pinHeld (!q) c.alarmPin) (.alarmQualifiedTransition !q))
  ++ match c.reserveLevel with
    | none => event (pinHeld c.reservePin.level c.reservePin) (.reserveInitialLevel c.reservePin.level)
    | some false => event (pinHeld true c.reservePin) .reserveQualifiedRise
    | some true => event (pinHeld false c.reservePin) .reserveQualifiedFall

/-- Silences that end, turns that are due, reply windows that closed without an answer, and answers that have had the time
of the longest one (R126, R139, R140, log 38). -/
def lineEvents (s : State) : List Instr :=
  (List.range s.lcs.lines.length).flatMap fun n =>
    event (decide ((lineAt s.lcs n).silence = some 0)) (.silentCycleExpiry n)
      ++ event (turnReady (lineAt s.lcs n)) (.turn n)
      ++ event ((lineAt s.lcs n).txn.any windowClosed) (.replyWindowTimeout n)
      ++ event ((lineAt s.lcs n).txn.any fun t => decide (t.left = 0 ∧ t.coming = some 0)) (.answerDiscarded n)

/-- Has the survey's read failed: it was not issued, or its 50 ms are over (R182)? -/
def surveyReadOver : Survey → Bool
  | .publish issued left => !issued || decide (left = 0)
  | .live issued left => !issued || decide (left = 0)
  | .acks issued left => !issued || decide (left = 0)
  | .status _ _ _ => false
  | .report => false

/-- Are the 50 ms of the status write over (R183)? -/
def statusWriteOver : Survey → Bool
  | .status _ _ left => decide (left = 0)
  | _ => false

/-- Has the staging's read failed (R165)? -/
def stagingReadOver (g : Staging) : Bool := awaitsRead g && (!readIssued g || decide (g.left = 0))

/-- Bus accesses that have failed, and a halt that has nothing left to wait for (R165, R182, R183, R188). -/
def busEvents (s : State) : List Instr :=
  event ((s.xu.survey.map surveyReadOver).getD false) (.busReadFailed .survey)
    ++ event ((s.xu.survey.map statusWriteOver).getD false) .statusWriteFailed
    ++ event ((s.xu.stage.map stagingReadOver).getD false) (.busReadFailed .staging)
    ++ event ((s.xu.reportWrite.map fun w => decide (w.left = 0)).getD false) .reportWriteFailed
    ++ event (haltReady s) .haltComplete

/-- The events that have come about, in the order they join the queue (log 1). -/
def dueEvents (s : State) : List Instr :=
  match s.phase with
  | .powerOn => []
  | .function => clockEvents s.clk ++ event (decide (s.resetLeft = 0)) .functionResetEnd
  | .operating =>
    clockEvents s.clk
      ++ pinEvents s.msc
      ++ event (decide (s.msc.calledTimer = some 0)) .calledTimerExpiry
      ++ event (decide (s.msc.holdTimer = some 0)) .standDownHoldExpiry
      ++ event (decide (s.xu.countdown = some 0)) .surveyCountdownExpiry
      ++ rotEvents s ++ refreshEvents s ++ lineEvents s ++ busEvents s

/-- One reference period. -/
def tick (s : State) : State :=
  let t := { tickTimers s with periods := s.periods + 1 }
  { t with pending := s.pending ++ dueEvents t }

end Sys2Proof.Machine
end

