-- ==== Sys2Proof/Safety.lean ====
section
/-! DEFINITION. What a well-formed state of the part is, in the terms the statements use. Each predicate is one promise the
spec makes about every moment; none of them mentions how the machine is written. -/

namespace Sys2Proof.Safety

open Sys2Proof.Machine

/-- Kind, timers and map follow the muster state (section 4.3, R70, R72, R74, R75, R83). -/
def MusterCoherent (s : State) : Prop :=
  (s.msc.kind = .none ↔ s.msc.state = .standby)
    ∧ (s.msc.calledTimer = none ↔ s.msc.state ≠ .called)
    ∧ (s.msc.holdTimer = none ↔ s.msc.state ≠ .standingDown)
    ∧ (s.msc.map = none ↔ s.msc.state = .standby)

/-- Under LEVEL sensing an asserted alarm has a REAL muster called (R66). -/
def AlarmAnswered (s : State) : Prop :=
  s.sms.settings.alarmSense = .level → s.msc.alarm = some true →
    s.msc.kind = .real ∧ (s.msc.state = .called ∨ s.msc.state = .mustering)

/-- The applied edition is at most the settled one, and an edition in hand is above both (R159, R160). -/
def EditionsOrdered (s : State) : Prop :=
  s.xu.applied ≤ s.xu.settled ∧ ∀ g, s.xu.stage = some g → s.xu.settled < g.number

/-- Every pending count of every cabin lies in 0 to 63 (R151). -/
def PendingBounded (s : State) : Prop :=
  ∀ x d, (lineRec s.lcs x).door = some d → pendingService d ≤ 63 ∧ pendingAssist d ≤ 63

/-- The solver works on one slot at most, and never idles while a slot is QUEUED (R36). -/
def SolverSelects (s : State) : Prop :=
  (s.rsv.slots.filter fun sl => decide (sl.state = .solving)).length ≤ 1
    ∧ ((∃ sl ∈ s.rsv.slots, sl.state = .queued) → ∃ sl ∈ s.rsv.slots, sl.state = .solving)

/-- The part has 64 target slots and 8 lines (R26, R124), and a slot holds a claim unless it is EMPTY (R26). -/
def SlotsHeld (s : State) : Prop :=
  s.rsv.slots.length = Config.slotCount ∧ s.lcs.lines.length = Config.lineCount
    ∧ ∀ sl ∈ s.rsv.slots, sl.state = .empty ↔ sl.holders = []

/-- The held registers and live words keep to their fields: span at most 16 MiB, interval 10 to 1000 ms, a base that is
4 KiB aligned, closure bit 0 clear (R17, R177, R178). -/
def RegistersInRange (s : State) : Prop :=
  s.xu.span ≤ 16 ∧ 10 ≤ s.xu.interval ∧ s.xu.interval ≤ 1000 ∧ s.xu.base.extractLsb' 0 12 = 0#12
    ∧ s.sms.closure.getLsbD 0 = false

/-- Every table an edition may change is in its one canonical form, indices strictly rising (R2, Machine/Table.lean). -/
def TablesCanonical (s : State) : Prop :=
  tblSorted s.sms.nodes ∧ tblSorted s.sms.edges ∧ tblSorted s.sms.stations ∧ tblSorted s.sms.musters
    ∧ tblSorted s.sms.landmarks ∧ tblSorted s.pgu.programme ∧ tblSorted s.pgu.clockChanges
    ∧ tblSorted s.pco.rotations ∧ tblSorted s.pco.notices ∧ tblSorted s.pco.interjections

/-- Every table an edition may change stands as it was, and so does the applied edition (R1, R169). -/
def SameTables (s t : State) : Prop := tablesOf t = tablesOf s ∧ t.xu.applied = s.xu.applied

/-- The page a station is known to show (R134). -/
def confirmedPage (s : State) (x : Nat) : Word16 × Option PageKind × Word16 :=
  let r := lineRec s.lcs x
  (r.confSerial, r.confKind, r.confMuster)

/-- Every counted station has confirmed a page of this muster serial, so a call or escalation with it finds the tally
complete at once (R70, R72, R85). -/
def AllConfirmed (s : State) (serial : Word16) : Prop :=
  ∀ x ∈ countedStations s, (lineRec s.lcs x).confMuster = serial

/-- The cause at bit `k` of an event that follows a report write (R185, R187): latched at once while no base is valid, and
otherwise waiting for a report write, or covered by the one in progress. -/
def CauseTold (k : Nat) (s t : State) : Prop :=
  (baseValid s.xu = false → t.xu.causes.getLsbD k = true)
    ∧ (baseValid s.xu = true →
        t.xu.waiting.getLsbD k = true ∨ ∃ w, t.xu.reportWrite = some w ∧ w.covers.getLsbD k = true)

/-- The cause at bit `k` of an event that has the report block written at once (R76, R86, R87, R172, R183, R187): latched at once
while no base is valid; otherwise a report write is in progress, and it covers the cause, or the cause waits and the
immediate write of the event is due next. -/
def ReportTold (k : Nat) (s t : State) : Prop :=
  (baseValid s.xu = false → t.xu.causes.getLsbD k = true)
    ∧ (baseValid s.xu = true → ∃ w, t.xu.reportWrite = some w
        ∧ (w.covers.getLsbD k = true ∨ t.xu.waiting.getLsbD k = true ∧ WriteReason.immediate ∈ t.xu.reportDue))

/-- A survey is asked for with a valid base while the part runs (R181): it begins, or while one is in progress it is marked
pending; where that survey's report step ends with the command, the pending survey has begun already. -/
def SurveyAsked (x y : XuState) : Prop :=
  (x.survey = none → y.survey = some (.publish true 1250000))
    ∧ (x.survey ≠ none → y.survey = x.survey ∧ y.surveyPending = true
        ∨ x.survey = some .report ∧ y.survey = some (.publish true 1250000))

/-- Every configured station shows the page that its records and the state of the part call for (R95, R96). -/
def PagesShown (t : State) : Prop :=
  ∀ x st, tblGet t.sms.stations x = some st → desiredPage t.pco x = some (candidate t x st).page

/-- The test that follows a recount (R72, R85): in CALLED, with the tally complete, CALLED ends in MUSTERING, the pages are
composed and MUSTER waits for the report write; otherwise the Muster Controller stands as `c`. That under LEVEL an asserted
alarm has its REAL muster is the invariant `AlarmAnswered`. -/
def RecountTaken (c : MscState) (s t : State) : Prop :=
  (c.state ≠ .called → t.msc = c)
    ∧ (c.state = .called → AlarmAnswered s →
        (AllConfirmed t c.serial →
          t.msc = { c with state := .mustering, calledTimer := none } ∧ PagesShown t ∧ ReportTold 2 s t)
        ∧ (¬AllConfirmed t c.serial → t.msc = c))

/-- The order of the waiting list (R32): landmarks, then programme entries by start and index, then interjections. MUSTER
claims, which never wait, go by index (R35). -/
def ClaimBefore (programme : Tbl ProgRec) : Claimant → Claimant → Prop
  | .landmark i, .landmark j => i < j
  | .landmark _, _ => True
  | .programme _, .landmark _ => False
  | .programme i, .programme j => ∀ a b, tblGet programme i = some a → tblGet programme j = some b →
      a.start < b.start ∨ a.start = b.start ∧ i < j
  | .programme _, _ => True
  | .interjection i, .interjection j => i < j
  | .interjection _, .muster _ => True
  | .interjection _, _ => False
  | .muster i, .muster j => i < j
  | .muster _, _ => False

/-- A slot after the withdrawals of an event: EMPTY once its last claim has gone (R31, R34). -/
def keptSlot (desired : List Claim) (sl : Slot) : Slot :=
  if ∃ w ∈ sl.holders, ({ who := w, pair := sl.pair } : Claim) ∈ desired then
    { sl with holders := sl.holders.filter fun w => decide (({ who := w, pair := sl.pair } : Claim) ∈ desired) }
  else emptySlot

/-- The claim changes of an event as one operation (R34, R36): the claims that should not be are withdrawn, a solver that lost its
slot selects, those that should be and are not held are served in order, the solver selects again, and CLAIM_WAIT rises by
the number of claims left waiting that did not wait before. -/
def ClaimsServed (desired : List Claim) (s t : State) : Prop :=
  (∀ kept slots waiting, kept = solverSelect (s.rsv.slots.map (keptSlot desired)) →
      serveClaims (desired.filter fun c => !claimHeld kept c) kept = (slots, waiting) →
      t.rsv = { slots := solverSelect slots, waiting })
    ∧ ∀ n, n = (t.rsv.waiting.filter fun c => decide (c ∉ s.rsv.waiting)).length →
        t.xu.counters.claimWait = if n = 0 then s.xu.counters.claimWait else min 65535 (s.xu.counters.claimWait + n)

/-- Every claim is held on a slot or waits (R29). -/
def ClaimsPlaced (s : State) (claims : List Claim) : Prop :=
  ∀ c ∈ claims, claimHeld s.rsv.slots c = true ∨ c ∈ s.rsv.waiting

/-- Only these claims are held or wait (R29, R34). -/
def OnlyClaims (s : State) (claims : List Claim) : Prop :=
  (∀ sl ∈ s.rsv.slots, ∀ w ∈ sl.holders, ({ who := w, pair := sl.pair } : Claim) ∈ claims) ∧ ∀ c ∈ s.rsv.waiting, c ∈ claims

/-- What an accepted call leaves (R70, R71, R72, R79, R83, R85): the serial rises and the hold ends; CALLED lasts unless every
counted station has already confirmed; from STANDBY the NORMAL claims go, the MUSTER claims are made and the map is built,
and from STANDING_DOWN claims, slots, vectors and map are kept. -/
def CalledFrom (k : MusterKind) (s t : State) : Prop :=
  t.msc.kind = k ∧ t.msc.serial = nextSerial s.msc.serial ∧ t.msc.holdTimer = none
    ∧ (AllConfirmed s (nextSerial s.msc.serial) → t.msc.state = .mustering ∧ t.msc.calledTimer = none)
    ∧ (¬AllConfirmed s (nextSerial s.msc.serial) → t.msc.state = .called ∧ t.msc.calledTimer = some 1500000000)
    ∧ (s.msc.state = .standby → SlotsHeld s →
        t.msc.map = some (freshMap s.sms t.rsv.slots)
          ∧ OnlyClaims t (musterClaims s.sms) ∧ ClaimsPlaced t (musterClaims s.sms) ∧ ClaimsServed (musterClaims s.sms) s t)
    ∧ (s.msc.state = .standingDown → t.msc.map = s.msc.map ∧ t.rsv = s.rsv)
    ∧ t.lcs.recs = s.lcs.recs ∧ t.msc.reserve = s.msc.reserve

/-- What an escalation leaves (R73): kind and serial change, a running called timer restarts, and claims and map stand. -/
def EscalatedFrom (s t : State) : Prop :=
  t.msc.kind = .real ∧ t.msc.serial = nextSerial s.msc.serial
    ∧ (s.msc.state = .mustering → t.msc.state = .mustering ∧ t.msc.calledTimer = s.msc.calledTimer)
    ∧ (s.msc.state = .called → ¬AllConfirmed s (nextSerial s.msc.serial) →
        t.msc.state = .called ∧ t.msc.calledTimer = some 1500000000)
    ∧ (s.msc.state = .called → AllConfirmed s (nextSerial s.msc.serial) →
        t.msc.state = .mustering ∧ t.msc.calledTimer = none)
    ∧ t.msc.map = s.msc.map ∧ t.msc.holdTimer = s.msc.holdTimer ∧ t.rsv = s.rsv ∧ t.xu.runState = s.xu.runState

/-- A source of the page of station `x` is changed by an event (R94): a record, ship time and day, or the station's list. -/
def SourceMoved (s t : State) (x : Nat) : Source → Prop
  | .musterStation i => tblGet s.sms.musters i ≠ tblGet t.sms.musters i
  | .landmark i => tblGet s.sms.landmarks i ≠ tblGet t.sms.landmarks i
  | .node i => tblGet s.sms.nodes i ≠ tblGet t.sms.nodes i
  | .notice i => tblGet s.pco.notices i ≠ tblGet t.pco.notices i
  | .list => tblGet t.pgu.lists x ≠ none ∧ tblGet s.pgu.lists x ≠ tblGet t.pgu.lists x
  | .time => s.pgu.lastTime ≠ t.pgu.lastTime

/-- A station's page draws from a slot that holds a vector: a STALE or RATE notice of that slot marks it (R39, R94). -/
def DrawsVector (s : State) (x : Nat) : Prop :=
  ∃ sl ∈ s.rsv.slots, sl.vector ≠ none ∧ sl.pair ∈ (pageRec s.pco x).draws

/-- What an accepted call asks of the run state (R78, R188, R189). RUNNING stays. HALTING and HALTED resume with a valid base:
the lines are in service, a survey begins and the countdown starts. Without one HALTED stays and HALTING becomes RUNNING
(the model's reading, log 14), with NO_BASE and FAULT. That the last-fault record then shows NO_BASE, and not what the
compositions of the call entered, is the model's choice (log 50: they are entered first), and so it does unless a tally that
is complete at once has more pages composed after it. HALTING latches HALT_REFUSED. MUSTER waits for the call's report write with a valid
base and is latched at once without one, and from HALTED also with one (the model's reading, log 20). -/
def Resumed (s t : State) : Prop :=
  (s.xu.runState = .running → t.xu.runState = .running ∧ t.lcs = s.lcs ∧ t.xu.countdown = s.xu.countdown)
    ∧ (s.xu.runState ≠ .running → baseValid s.xu = true →
        t.xu.runState = .running ∧ t.lcs.lines = s.lcs.lines.map (fun l => { l with service := .inService })
          ∧ SurveyAsked s.xu t.xu ∧ t.xu.countdown = some (s.xu.interval * 25000))
    ∧ (s.xu.runState = .halting → baseValid s.xu = false →
        t.xu.runState = .running ∧ t.lcs.lines = s.lcs.lines.map (fun l => { l with service := .inService }))
    ∧ (s.xu.runState = .halted → baseValid s.xu = false → t.xu.runState = .halted ∧ t.lcs = s.lcs)
    ∧ (s.xu.runState ≠ .running → baseValid s.xu = false →
        t.xu.countdown = s.xu.countdown ∧ (s.xu.survey = none → t.xu.survey = none) ∧ t.xu.causes.getLsbD 4 = true
          ∧ (¬AllConfirmed s (nextSerial s.msc.serial) →
              t.xu.lastFault = { kind := .noBase, subject := none, second := s.clk.second }))
    ∧ (s.xu.runState = .halting → t.xu.causes.getLsbD 6 = true)
    ∧ (s.xu.runState = .halted → t.xu.causes.getLsbD 2 = true) ∧ ReportTold 2 s t

/-- A valid answer of station `x` was taken (R128, R137): heard, misses 0, last heard at this voyage second; and a configured
station is ONLINE, whatever its status was, under any miss_limit from 1 up. -/
def HeardFrom (s t : State) (x : Nat) : Prop :=
  (lineRec t.lcs x).heard = true ∧ (lineRec t.lcs x).misses = 0 ∧ (lineRec t.lcs x).lastHeard = some s.clk.second
    ∧ (tblHas s.sms.stations x = true → 1 ≤ s.sms.settings.missLimit → lineStatus t x = .online)

/-- The host's registers, the editions and the stage stand as they were (R159, R175, R177). -/
def SameRegisters (x y : XuState) : Prop :=
  y.enables = x.enables ∧ y.base = x.base ∧ y.span = x.span ∧ y.pendingHi = x.pendingHi ∧ y.interval = x.interval
    ∧ y.applied = x.applied ∧ y.settled = x.settled ∧ y.settle = x.settle ∧ y.stage = x.stage

/-- A pin that has held this level for 20 ms without a break (R65). -/
def PinAt (level : Bool) (p : PinHold) : Prop := p.level = level ∧ 500000 ≤ p.held

/-- A pin one reference period later (R65): the level goes on being held, up to 20 ms, or the other one begins. -/
def PinLater (p q : PinHold) : Prop :=
  q.level = p.level ∧ q.held = min 500000 (p.held + 1) ∨ q.level ≠ p.level ∧ q.held = 1

/-- A transaction that an answer may still end: its reply window is open, or closed with an answer coming in (R126). -/
def Answerable (tx : Txn) : Prop := tx.left ≤ 75000 ∧ (tx.left ≠ 0 ∨ tx.coming ≠ none)

/-- The reserve regime takes no page away from this station (R96). -/
def Lit (s : State) (st : StationRec) : Prop := ¬(s.msc.reserve = true ∧ st.essential = false)

/-- The rotation position a screen shows (R96). -/
def shownAt (s : State) (x : Nat) : Position := ((tblGet s.pco.rots x).map RotState.position).getD .default

/-- The rotation step a screen stands on (R96, R109). -/
def stepAt (s : State) (x n : Nat) : RotStep :=
  match tblGet s.pco.rots x with
  | some r => (rotSteps s.pco.rotations r.rotation).getD n .empty
  | none => .empty

/-- The rotation position of a screen names this notice: an interjection shown, or a NOTICE step (R96 step 5). -/
def NamesNotice (s : State) (x i : Nat) : Prop :=
  (∃ k j, shownAt s x = .interj k ∧ tblGet s.pco.interjections k = some j ∧ j.notice = i)
    ∨ ∃ n d, shownAt s x = .step n ∧ stepAt s x n = .notice i d

/-- The rotation position of a screen is a LANDMARKS step (R96 step 6). -/
def OnLandmarks (s : State) (x : Nat) : Prop := ∃ n d, shownAt s x = .step n ∧ stepAt s x n = .landmarks d

/-- A screen shows its programme page: rotation 0, a PROGRAMME step, or a LANDMARKS step on a LOBBY (R96 step 7). -/
def OnProgramme (s : State) (x : Nat) (st : StationRec) : Prop :=
  shownAt s x = .default ∨ (∃ n d, shownAt s x = .step n ∧ stepAt s x n = .programme d)
    ∨ st.kind = .lobby ∧ OnLandmarks s x

/-- The deck of a node, as a page carries it (R102, R105). -/
def deckAt (m : SmsState) (n : Nat) : Nat := ((tblGet m.nodes n).map NodeRec.deck).getD 0

/-- A muster station is OUT as a node sees it (R80). -/
def OutAt (musters : Tbl MusterRec) (slots : List Slot) (n k : Nat) : Prop := stationClass musters slots n k = .out

/-- The REACHABLE muster station with the least distance, the lower index at a tie (R81 case 3). -/
def Nearest (musters : Tbl MusterRec) (slots : List Slot) (n k : Nat) : Prop :=
  ∃ d, stationClass musters slots n k = .reachable d
    ∧ ∀ j e, stationClass musters slots n j = .reachable e → d < e ∨ d = e ∧ k ≤ j

/-- With no REACHABLE muster station, the UNKNOWN one with the lowest index (R81 case 4). -/
def FirstUnknown (musters : Tbl MusterRec) (slots : List Slot) (n k : Nat) : Prop :=
  (∀ j e, stationClass musters slots n j ≠ .reachable e) ∧ stationClass musters slots n k = .unknown
    ∧ ∀ j, stationClass musters slots n j = .unknown → k ≤ j

/-- A way from one node to another: each step names an edge and the node its walkable traversal leads to (R22). -/
def Way (m : SmsState) (r : Regime) : Nat → List (Nat × Nat) → Nat → Prop
  | u, [], t => u = t
  | u, (e, v) :: rest, t =>
    (∃ g, tblGet m.edges e = some g ∧ traversalBarred m r g u v = false) ∧ Way m r v rest t

/-- The saturated cost of a way (R21, R22). -/
def wayCost (m : SmsState) (r : Regime) : Nat → List (Nat × Nat) → Nat
  | _, [] => 0
  | u, (e, v) :: rest =>
    min 65534 (((tblGet m.edges e).map fun g => traversalCost m r g u).getD 0 + wayCost m r v rest)

/-- An edge that R23 admits as the next hop of a node. -/
def NextHop (m : SmsState) (r : Regime) (dist : Nat → Nat) (u e : Nat) : Prop :=
  ∃ g v, tblGet m.edges e = some g ∧ traversalBarred m r g u v = false ∧ dist v < dist u
    ∧ min 65534 (traversalCost m r g u + dist v) = dist u

/-- Does an entry in its state qualify for a station's list: by the selector (R58), and for a WAYPOINT by R59, for a LOBBY by
R60? -/
def qualifies (programme : Tbl ProgRec) (states : Tbl EntryState) (st : StationRec) (i : Nat) : Bool :=
  match tblGet programme i, tblGet states i with
  | some e, some q =>
    decide (e.audience &&& st.selMask = st.selValue &&& st.selMask)
      && if st.kind = .waypoint then decide ((q = .soon ∨ q = .running) ∧ e.venue ≠ none)
        else decide (q = .soon ∨ q = .running ∨ q = .pending ∧ e.cancelled = false)
  | _, _ => false

/-- Is an interjection active at the present minute, and does it select this station (R116, R117)? -/
def ActiveOn (s : State) (st : StationRec) (i : Nat) : Prop :=
  ∃ j, tblGet s.pco.interjections i = some j ∧ j.start ≤ s.clk.second.toNat / 60 ∧ s.clk.second.toNat / 60 < j.stop
    ∧ st.kind ≠ .cabin ∧ st.tag &&& j.tagMask = j.tagValue &&& j.tagMask

/-- Interjection `i` has come on show at a screen in place of what `r` showed: its due flag is clear, the minute is held, and
its countdown is its dwell, none for a hold (R118, R120). -/
def ShownAfresh (s : State) (r q : RotState) (i : Nat) : Prop :=
  q.position = .interj i ∧ q.due.getD i false = false
    ∧ q.lastShown = r.lastShown.set i (some (s.clk.second.toNat / 60))
    ∧ ∀ j, tblGet s.pco.interjections i = some j → q.countdown = if j.hold then none else some (j.dwell * 25000000)

/-- A screen has returned from an interjection: to its resume step with the time kept for it, or to its default page (R118). -/
def Returned (resume : Option (Nat × Nat)) (q : RotState) : Prop :=
  q.resume = none ∧ (resume = none → q.position = .default ∧ q.countdown = none)
    ∧ ∀ n c, resume = some (n, c) → q.position = .step n ∧ q.countdown = some c

/-- Is an interjection due at a screen after a minute event (R117)? -/
def DueAtMinute (s : State) (st : StationRec) (r : RotState) (i : Nat) : Prop :=
  ∃ j, tblGet s.pco.interjections i = some j ∧ j.start ≤ s.clk.second.toNat / 60 ∧ s.clk.second.toNat / 60 < j.stop
    ∧ st.kind ≠ .cabin ∧ st.tag &&& j.tagMask = j.tagValue &&& j.tagMask
    ∧ (r.due.getD i false = true ∨ i ∉ s.pco.active
      ∨ r.position ≠ .interj i ∧ 0 < j.period
        ∧ ∃ k, r.lastShown.getD i none = some k
          ∧ (k + j.period ≤ s.clk.second.toNat / 60 ∨ s.clk.second.toNat / 60 < k))

/-- Is an interjection due at a screen after a commit that leaves the station configured (R117, R119)? -/
def DueAtCommit (s t : State) (old st : StationRec) (r : RotState) (i : Nat) : Prop :=
  ActiveOn t st i
    ∧ (r.due.getD i false = true ∨ i ∉ s.pco.active ∨ tblGet s.pco.interjections i ≠ tblGet t.pco.interjections i
      ∨ ∃ j, tblGet t.pco.interjections i = some j
          ∧ (¬(old.kind ≠ .cabin ∧ old.tag &&& j.tagMask = j.tagValue &&& j.tagMask)
            ∨ r.position ≠ .interj i ∧ 0 < j.period
              ∧ ∃ k, r.lastShown.getD i none = some k
                ∧ (k + j.period ≤ t.clk.second.toNat / 60 ∨ t.clk.second.toNat / 60 < k)))

/-- The staged records of a leaf stand in a table in their held form, and every other record stays (R167). -/
def Replaced {α : Type} (staged : List Staged) (leaf : Nat) (parse : List Byte → α) (before after : Tbl α) : Prop :=
  ∀ i, (∀ r ∈ staged, r.leaf = leaf → tableIndex r = i → tblGet after i = (liveBytes r).map parse)
    ∧ ((∀ r ∈ staged, r.leaf = leaf → tableIndex r ≠ i) → tblGet after i = tblGet before i)

/-- Every table of a set is in its canonical form (R2). -/
def SetCanonical (t : TableSet) : Prop :=
  tblSorted t.nodes ∧ tblSorted t.edges ∧ tblSorted t.stations ∧ tblSorted t.musters ∧ tblSorted t.landmarks
    ∧ tblSorted t.programme ∧ tblSorted t.rotations ∧ tblSorted t.notices ∧ tblSorted t.interjections
    ∧ tblSorted t.clockChanges

/-- What the reserve regime sheds: a station that is not essential and shows its BLANK page (R142). -/
def ShedsBlank (s : State) (x : Nat) (st : StationRec) (confirmed : Word16) : Prop :=
  s.msc.reserve = true ∧ st.essential = false ∧ confirmed = desiredSerial s.pco x
    ∧ (desiredPage s.pco x).map Page.body = some .blank

/-- A valid answer of a kind that its frame does not allow: a STATE to a page frame, or a TAKEN or HELD_OFF to a poll
(R126, R129, R130, R131). -/
def WrongKind (c : Instr) (n : Nat) (tx : Txn) : Prop :=
  tx.transfer = none ∧ (c = .takenToPageHead n ∨ c = .takenToPageBlock n ∨ c = .heldOff n)
    ∨ tx.transfer ≠ none ∧ ∃ flags serial service assist, c = .stateAnswer n flags serial service assist

/-! ## Held records inside their ranges (R3 to R15, R47, R51, R109, R114, R115) -/

/-- An edge joins two nodes of the table, has a length of 1 to 4000 dm and a group up to 63, and a rise if it is a STAIR (R4). -/
def EdgeInRange (e : EdgeRec) : Prop :=
  e.nodeA < 1024 ∧ e.nodeB < 1024 ∧ e.nodeA ≠ e.nodeB ∧ 1 ≤ e.length ∧ e.length ≤ 4000 ∧ e.group ≤ 63
    ∧ (e.kind = .stair ↔ e.rise ≠ .level)

/-- Weights of 0 to 15 and a lift fixed cost of at most 2000 (R15). -/
def WeightsInRange (w : Weights) : Prop := (∀ k, kindWeight w k ≤ 15) ∧ w.liftFixed ≤ 2000

/-- Every field of Settings inside its range (R15). -/
def SettingsInRange (c : Settings) : Prop :=
  WeightsInRange c.normal ∧ WeightsInRange c.muster ∧ 300 ≤ c.walkRate ∧ c.walkRate ≤ 1500
    ∧ -720 ≤ c.initialOffset ∧ c.initialOffset ≤ 840 ∧ 5 ≤ c.lead ∧ c.lead ≤ 180 ∧ c.linger ≤ 30
    ∧ 2 ≤ c.missLimit ∧ c.missLimit ≤ 15 ∧ 5 ≤ c.refreshInterval ∧ c.refreshInterval ≤ 600
    ∧ 2 ≤ c.fullRefreshPeriod ∧ c.fullRefreshPeriod ≤ 32

/-- A station's references inside their tables, its counts at most those of the record, and the fields that do not apply to
its kind empty (R10 to R13). -/
def StationInRange (st : StationRec) : Prop :=
  st.node < 1024 ∧ st.label.length = 8 ∧ st.exits.length ≤ 8 ∧ (∀ e ∈ st.exits, e.1 < 4096)
    ∧ st.assigned < 16 ∧ st.rotation < 32 ∧ st.landmarks.length ≤ 4 ∧ (∀ l ∈ st.landmarks, l < 24)
    ∧ st.served.length ≤ 2 ∧ (∀ k ∈ st.served, k < 16)
    ∧ (st.kind = .cabin → st.rotation = 0 ∧ st.landmarks = [] ∧ st.served = [])
    ∧ (st.kind ≠ .cabin → st.assigned = 0) ∧ (st.kind = .lobby → st.landmarks = [])

/-- A muster station at index `i`: its node and alternate inside their tables, the alternate not itself (R7). -/
def MusterInRange (i : Nat) (k : MusterRec) : Prop :=
  k.node < 1024 ∧ k.label.length = 16 ∧ ∀ a, k.alternate = some a → a < 16 ∧ a ≠ i

/-- A programme entry within the voyage clock, of 1 to 1440 minutes (R51). -/
def EntryInRange (e : ProgRec) : Prop :=
  e.start ≤ 71582788 ∧ 1 ≤ e.duration ∧ e.duration ≤ 1440 ∧ (∀ v, e.venue = some v → v < 1024)
    ∧ e.venueLabel.length = 16 ∧ e.title.length = 32

/-- A step at index `k`: a dwell of 2 to 120 s, a notice of the table, and a LOOP backwards, 1 to 15 times (R109). -/
def StepInRange (k : Nat) (st : RotStep) : Prop :=
  (∀ d, stepDwell st = some d → 2 ≤ d ∧ d ≤ 120) ∧ (∀ n d, st = .notice n d → n < 32)
    ∧ ∀ t c, st = .loop t c → t < k ∧ 1 ≤ c ∧ c ≤ 15

/-- A rotation of eight steps, at least one of them with a dwell; rotation 0 is never in use (R109). -/
def RotationInRange (i : Nat) (q : RotationRec) : Prop :=
  i ≠ 0 ∧ q.steps.length = 8 ∧ (∀ k st, q.steps[k]? = some st → StepInRange k st)
    ∧ ∃ st ∈ q.steps, (stepDwell st).isSome = true

/-- An interjection with its start before its end, both within the voyage clock, a period up to 240 minutes and a dwell of 2
to 120 s (R115). -/
def InterjInRange (j : InterjRec) : Prop :=
  j.notice < 32 ∧ j.start < j.stop ∧ j.stop ≤ 71582788 ∧ j.period ≤ 240 ∧ 2 ≤ j.dwell ∧ j.dwell ≤ 120

/-- Every held record lies inside the ranges that its rule gives (R3 to R15, R47, R51, R109, R114, R115). -/
def RecordsInRange (s : State) : Prop :=
  (∀ i n, tblGet s.sms.nodes i = some n → 1 ≤ n.deck ∧ n.deck ≤ 20)
    ∧ (∀ i e, tblGet s.sms.edges i = some e → EdgeInRange e)
    ∧ (∀ i st, tblGet s.sms.stations i = some st → StationInRange st)
    ∧ (∀ i k, tblGet s.sms.musters i = some k → MusterInRange i k)
    ∧ (∀ i l, tblGet s.sms.landmarks i = some l → l.node < 1024 ∧ l.label.length = 16)
    ∧ SettingsInRange s.sms.settings
    ∧ (∀ i e, tblGet s.pgu.programme i = some e → EntryInRange e)
    ∧ (∀ i c, tblGet s.pgu.clockChanges i = some c →
        c.atMinute ≤ 71582788 ∧ -720 ≤ c.newOffset ∧ c.newOffset ≤ 840)
    ∧ (∀ i q, tblGet s.pco.rotations i = some q → RotationInRange i q)
    ∧ (∀ i n, tblGet s.pco.notices i = some n →
        n.lines.length = 4 ∧ (∀ l ∈ n.lines, l.length = 40) ∧ ∀ d, n.dest = some d → d < 1024)
    ∧ ∀ i j, tblGet s.pco.interjections i = some j → InterjInRange j

/-! ## What a commit does to a station (R138, R112, R113) -/

/-- A commit configures a station, empties it, or changes its kind (R138). -/
def KindChanged (s t : State) (x : Nat) : Prop :=
  (tblGet s.sms.stations x).map StationRec.kind ≠ (tblGet t.sms.stations x).map StationRec.kind

/-- A commit restarts a screen's rotation: its rotation field, its kind or the rotation's record changed (R113). -/
def Restarts (s t : State) (old st : StationRec) : Prop :=
  old.rotation ≠ st.rotation ∨ old.kind ≠ st.kind
    ∨ tblGet s.pco.rotations st.rotation ≠ tblGet t.pco.rotations st.rotation

/-- The loop counters a rotation starts with: each LOOP step's count, 0 at the others (R112). -/
def FullCounters (steps : List RotStep) (loops : List Nat) : Prop :=
  loops.length = 8 ∧ ∀ k, k < 8 → loops.getD k 0 = match steps.getD k .empty with
    | .loop _ count => count
    | _ => 0

/-- A screen's rotation has started: rotation 0 at its default page, unless an active interjection is shown at once; any other
at the step that the walk from step 0 lands on, with that step's dwell (R111, R112, R118). -/
def RotStarted (t : State) (st : StationRec) (steps : List RotStep) (q : RotState) : Prop :=
  q.rotation = st.rotation ∧ q.resume = none
    ∧ (st.rotation = 0 → q.position = .default ∧ q.countdown = none ∨ ∃ i, q.position = .interj i ∧ ActiveOn t st i)
    ∧ (st.rotation ≠ 0 → ∀ full m loops, FullCounters steps full → walk steps walkFuel 0 full = (m, loops) →
        q.position = .step m ∧ q.countdown = some (dwellOf steps m) ∧ q.loops = loops)

/-! ## Bytes (R191, R197) -/

/-- A text field of `n` bytes at an offset carries this text, zero bytes after its end (R107, R192). -/
def TextAt (bs : List Byte) (off n : Nat) (t : Text) : Prop := ∀ i, i < n → byteAt bs (off + i) = byteAt t i

/-- A held text of `n` bytes is the one at an offset of a record (R191). -/
def TextHeld (bs : List Byte) (off n : Nat) (t : Text) : Prop :=
  t.length = n ∧ ∀ i, i < n → byteAt t i = byteAt bs (off + i)

/-- An arrow byte and its minutes byte: 0xFF for absent minutes, and both 0xFF without a route part (R197). -/
def ArrowAt (bs : List Byte) (off : Nat) (a : Option (Arrow × Option Nat)) : Prop :=
  u8 bs off = (a.map fun r => arrowCode r.1).getD 255 ∧ u8 bs (off + 1) = (a.bind Prod.snd).getD 255 % 256

/-- An answer of this kind with `n` bytes of payload, whole, from this address, its CRC correct (R125, R126, R127). -/
def ValidAnswer (bs : List Byte) (address kind n : Nat) : Prop :=
  bs.length = n + 6 ∧ u8 bs 0 = 0xD3 ∧ u8 bs 1 = address ∧ u8 bs 2 = kind ∧ u8 bs 3 = n
    ∧ u16 bs (4 + n) = (crc16 ((bs.drop 1).take (3 + n))).toNat

/-- Is a command a reset (R190)? -/
def isReset : Instr → Bool
  | .powerOnReset => true
  | .functionReset _ => true
  | _ => false

/-- Does a command act while a reset holds the part: a reset, its end, or the voyage clock (R44, R175)? -/
def actsInReset : Instr → Bool
  | .powerOnReset => true
  | .powerOnResetEnd => true
  | .functionReset _ => true
  | .functionResetEnd => true
  | .voyageSecond => true
  | .minuteEvent => true
  | _ => false

end Sys2Proof.Safety
end

