-- ==== Sys2Proof/WellFormed.lean ====
section
/-! DEFINITION. Which commands are well formed: operands inside the ranges the spec gives them. -/

namespace Sys2Proof

/-- A Deckline line number (R124). -/
abbrev lineInRange (line : Nat) : Bool := decide (line < 8)

/-- A station number (R9). -/
abbrev stationInRange (station : Nat) : Bool := decide (station < 496)

/-- The offsets of BAR0 that hold a register (R175). -/
abbrev registerOffset (offset : Nat) : Bool :=
  decide (offset = 0x00) || decide (offset = 0x04) || decide (offset = 0x08) || decide (offset = 0x0C)
    || decide (offset = 0x10) || decide (offset = 0x14)

/-- The operands of a command lie in the ranges its rule gives: lines and stations exist, an order called bad is none
of the three orders (R179), an access called unmapped is at no register or not of 32 bits (R175), and a bus read returns
as many bytes as the structure read has (R193, R194). -/
def Instr.wf : Instr → Bool
  | .badOrder code => code != 1 && code != 2 && code != 3
  | .unmappedAccess offset size _ => !(registerOffset offset && decide (size = 4))
  | .stepCountdownExpiry x => stationInRange x
  | .interjectionCountdownExpiry x => stationInRange x
  | .refreshCountdownExpiry x => stationInRange x
  | .turn l => lineInRange l
  | .silentCycleExpiry l => lineInRange l
  | .stateAnswer l _ _ _ _ => lineInRange l
  | .takenToPageHead l => lineInRange l
  | .takenToPageBlock l => lineInRange l
  | .heldOff l => lineInRange l
  | .answerDiscarded l => lineInRange l
  | .replyWindowTimeout l => lineInRange l
  | .publishWordRead bs => bs.length == 8
  | .liveWordsRead bs => bs.length == 12
  | .ackArrayRead bs => bs.length == 1984
  | .noticeHeaderRead bs => bs.length == 8
  | .directoryRead bs => bs.length == 304
  | .noticeEntriesRead bs => decide (bs.length ≤ 768) && bs.length % 8 == 0
  | .recordRead bs => [4, 16, 64, 24, 20, 68, 164, 8, 32].contains bs.length
  | .publishWordReread bs => bs.length == 8
  | .powerOnReset => true
  | .functionReset _ => true
  | .functionResetEnd => true
  | .runRequest => true
  | .haltRequest => true
  | .causeEnablesWrite _ => true
  | .causeClear _ => true
  | .xbaseHiWrite _ => true
  | .xbaseLoWrite _ => true
  | .surveyWrite _ => true
  | .callReal => true
  | .callDrill => true
  | .standDown => true
  | .alarmQualifiedTransition _ => true
  | .alarmInitialLevel _ => true
  | .reserveQualifiedRise => true
  | .reserveQualifiedFall => true
  | .reserveInitialLevel _ => true
  | .minuteEvent => true
  | .calledTimerExpiry => true
  | .standDownHoldExpiry => true
  | .surveyCountdownExpiry => true
  | .solveComplete => true
  | .statusRecordWritten => true
  | .statusWriteFailed => true
  | .reportWriteDone => true
  | .reportWriteFailed => true
  | .busReadFailed _ => true
  | .validationDone => true
  | .haltComplete => true
  | .powerOnResetEnd => true
  | .voyageSecond => true

end Sys2Proof
end

