-- ==== Sys2Proof/Certificates/Slice0/Obligations.lean ====
section
/-! DEFINITION. The statements for the provers: what the rules R1 to R198 say that the commands and the whole machine do. -/

open Sys2Proof Sys2Proof.Machine Sys2Proof.Safety

/-! ## The queue and time -/

/-- A step takes the command at the front of the queue and runs it on the state with the queue's rest; the queue is the
model's (log 3). -/
def Obligations.StepRunsFront : Prop :=
  ∀ (c : Instr) (rest : List Instr) (s : State), s.pending = c :: rest → step s = exec c { s with pending := rest }

/-- Every command answers a next state, whatever the state, and leaves the queue as it was: no failure the spec
describes stops the part (R185). That a command whose event cannot come about answers the state as it is, and that there
is a queue at all, are the model's choices (log 2, log 3). -/
def Obligations.EveryCommandAnswers : Prop :=
  ∀ (c : Instr) (s : State), ∃ t, exec c s = .next t ∧ t.pending = s.pending

/-- With no command waiting one reference period passes: the model's choice, log 1. Every timer moves by one period, and
what has come about joins the queue. The prescaler (R44) with the voyage second, and a minute event due; the muster timers
(R72, R75); the pins, each holding its level one period longer or beginning the other one, which is a free value (log 8, log
40), and a level held for 20 ms (R65, R86); the survey countdown (R181); what is left of the 50 ms of each bus access (R165,
R182, R183), a read that was not issued failing at once; step and interjection countdowns, in STANDBY alone (R112, R118,
R121); refresh countdowns (R146); the silence of a line (R140), and a turn of a line that is idle, in service and not in its
silence (R139; that the silence holds back every turn is log 54); a transaction in flight, one period nearer to the close of
its reply window, or its idle time begun again by a stray byte before the frame, which is a free value (R124, R126, log 38);
the close of the window, with an answer begun in it or without one (R126, log 38), and the end of an answer that had the
longest time (log 38); and a halt with nothing left to wait for (R188). Nothing else changes. A function reset holds all but
the voyage clock and ends within 1 ms (R44, R175); a power-on reset holds all (R44). -/
def Obligations.IdleStepIsOnePeriod : Prop :=
  (∀ s : State, s.pending = [] → s.phase = .operating →
    ∃ t, step s = .next t ∧ t.periods = s.periods + 1
      ∧ t.clk = { s.clk with prescale := s.clk.prescale + 1 }
      ∧ (25000000 ≤ t.clk.prescale → Instr.voyageSecond ∈ t.pending)
      ∧ (s.clk.minuteDue = true → Instr.minuteEvent ∈ t.pending)
      ∧ t.msc = { s.msc with
          calledTimer := s.msc.calledTimer.map (fun n => n - 1), holdTimer := s.msc.holdTimer.map (fun n => n - 1)
          alarmPin := t.msc.alarmPin, reservePin := t.msc.reservePin }
      ∧ (t.msc.calledTimer = some 0 → Instr.calledTimerExpiry ∈ t.pending)
      ∧ (t.msc.holdTimer = some 0 → Instr.standDownHoldExpiry ∈ t.pending)
      ∧ PinLater s.msc.alarmPin t.msc.alarmPin ∧ PinLater s.msc.reservePin t.msc.reservePin
      ∧ (∀ b, PinAt b t.msc.alarmPin →
          (s.msc.alarm = none → Instr.alarmInitialLevel b ∈ t.pending)
          ∧ (s.msc.alarm = some (!b) → Instr.alarmQualifiedTransition b ∈ t.pending))
      ∧ (∀ b, PinAt b t.msc.reservePin →
          (s.msc.reserveLevel = none → Instr.reserveInitialLevel b ∈ t.pending)
          ∧ (s.msc.reserveLevel = some (!b) →
              (if b then Instr.reserveQualifiedRise else Instr.reserveQualifiedFall) ∈ t.pending))
      ∧ { t.xu with
          countdown := s.xu.countdown, survey := s.xu.survey, stage := s.xu.stage, reportWrite := s.xu.reportWrite } = s.xu
      ∧ t.xu.countdown = s.xu.countdown.map (fun n => n - 1)
      ∧ (t.xu.countdown = some 0 → Instr.surveyCountdownExpiry ∈ t.pending)
      ∧ (∀ b l, s.xu.survey = some (.publish b l) → t.xu.survey = some (.publish b (l - 1))
          ∧ (b = false ∨ l ≤ 1 → Instr.busReadFailed .survey ∈ t.pending))
      ∧ (∀ b l, s.xu.survey = some (.live b l) → t.xu.survey = some (.live b (l - 1))
          ∧ (b = false ∨ l ≤ 1 → Instr.busReadFailed .survey ∈ t.pending))
      ∧ (∀ b l, s.xu.survey = some (.acks b l) → t.xu.survey = some (.acks b (l - 1))
          ∧ (b = false ∨ l ≤ 1 → Instr.busReadFailed .survey ∈ t.pending))
      ∧ (∀ x r l, s.xu.survey = some (.status x r l) → t.xu.survey = some (.status x r (l - 1))
          ∧ (l ≤ 1 → Instr.statusWriteFailed ∈ t.pending))
      ∧ (s.xu.survey = none ∨ s.xu.survey = some .report → t.xu.survey = s.xu.survey)
      ∧ (s.xu.stage = none → t.xu.stage = none)
      ∧ (∀ g, s.xu.stage = some g → t.xu.stage = some { g with left := g.left - 1 }
          ∧ (g.phase ≠ .validating → readIssued g = false ∨ g.left ≤ 1 → Instr.busReadFailed .staging ∈ t.pending))
      ∧ (s.xu.reportWrite = none → t.xu.reportWrite = none)
      ∧ (∀ w, s.xu.reportWrite = some w → t.xu.reportWrite = some { w with left := w.left - 1 }
          ∧ (w.left ≤ 1 → Instr.reportWriteFailed ∈ t.pending))
      ∧ (s.xu.runState = .halting → s.xu.stage = none → s.xu.survey = none →
          (∀ l ∈ s.lcs.lines, l.service = .silent) → Instr.haltComplete ∈ t.pending)
      ∧ t.pco = { s.pco with rots := t.pco.rots }
      ∧ (∀ x r, tblGet s.pco.rots x = some r →
          tblGet t.pco.rots x = some { r with
            countdown := if s.msc.state = .standby then r.countdown.map (fun n => n - 1) else r.countdown }
          ∧ ∀ n, s.msc.state = .standby → r.countdown = some n → n ≤ 1 →
              (∀ k, r.position = .step k → Instr.stepCountdownExpiry x ∈ t.pending)
              ∧ ∀ i, r.position = .interj i → Instr.interjectionCountdownExpiry x ∈ t.pending)
      ∧ (∀ x, tblGet s.pco.rots x = none → tblGet t.pco.rots x = none)
      ∧ (∀ x, lineRec t.lcs x = { lineRec s.lcs x with
            door := (lineRec s.lcs x).door.map fun d => { d with refresh := d.refresh.map fun n => n - 1 } }
          ∧ ∀ d n, (lineRec s.lcs x).door = some d → d.refresh = some n → n ≤ 1 →
              Instr.refreshCountdownExpiry x ∈ t.pending)
      ∧ t.lcs.lines.length = s.lcs.lines.length
      ∧ (∀ n a, s.lcs.lines[n]? = some a → ∃ b, t.lcs.lines[n]? = some b
          ∧ { b with txn := a.txn, idle := a.idle, silence := a.silence } = a
          ∧ b.silence = a.silence.map (fun n => n - 1) ∧ (b.silence = some 0 → Instr.silentCycleExpiry n ∈ t.pending)
          ∧ (b.service = .inService → b.txn = none → b.idle = 0 → b.silence = none → Instr.turn n ∈ t.pending)
          ∧ (a.txn = none → b.txn = none ∧ (b.idle = a.idle - 1 ∨ b.idle = 750))
          ∧ (a.txn ≠ none → b.idle = a.idle - 1)
          ∧ ∀ x, a.txn = some x → ∃ y, b.txn = some y ∧ y.station = x.station ∧ y.transfer = x.transfer
              ∧ (2 ≤ x.left → y.coming = x.coming
                  ∧ (y.left = x.left - 1
                    ∨ 250 * (txnFrame x).length + 75000 < x.left ∧ y.left = 750 + 250 * (txnFrame x).length + 75000))
              ∧ (x.left = 1 → y.left = 0 ∧ (y.coming = none ∨ y.coming = some 261000)
                  ∧ (y.coming = none → Instr.replyWindowTimeout n ∈ t.pending))
              ∧ (x.left = 0 → y.left = 0 ∧ y.coming = x.coming.map (fun k => k - 1)
                  ∧ (x.coming = some 1 → Instr.answerDiscarded n ∈ t.pending)))
      ∧ t.phase = s.phase ∧ t.resetLeft = s.resetLeft ∧ t.sms = s.sms ∧ t.rsv = s.rsv ∧ t.pgu = s.pgu)
  ∧ (∀ s : State, s.pending = [] → s.phase = .function →
    ∃ t, step s = .next t ∧ t.clk = { s.clk with prescale := s.clk.prescale + 1 } ∧ t.resetLeft = s.resetLeft - 1
      ∧ (25000000 ≤ t.clk.prescale → Instr.voyageSecond ∈ t.pending)
      ∧ (s.clk.minuteDue = true → Instr.minuteEvent ∈ t.pending)
      ∧ (s.resetLeft ≤ 1 → Instr.functionResetEnd ∈ t.pending)
      ∧ t.periods = s.periods + 1
      ∧ { t with clk := s.clk, resetLeft := s.resetLeft, periods := s.periods, pending := s.pending } = s)
  ∧ ∀ s : State, s.pending = [] → s.phase = .powerOn → step s = .next { s with periods := s.periods + 1 }

/-! ## Resets -/

/-- A power-on reset, in every state: each block at its reset values (R15, R16, R17, R26, R43, R44, R64, R89, R108, R144,
R190), and no MSI. The hold counters of the pins and the count of MSIs sent are the model's own fields (logs 8 and 7); that
vector_epoch is 0 is its choice, log 39. -/
def Obligations.PowerOnResetClears : Prop :=
  ∀ s : State, ∃ t, exec .powerOnReset s = .next t ∧ t.phase = .powerOn
    ∧ t.clk.second = 0
    ∧ (t.sms.nodes = [] ∧ t.sms.edges = [] ∧ t.sms.stations = [] ∧ t.sms.musters = [] ∧ t.sms.landmarks = []
        ∧ t.sms.settings = defaultSettings ∧ t.sms.epoch = 0 ∧ t.sms.closure = 0 ∧ t.sms.exterior = false)
    ∧ (t.rsv.slots.length = 64 ∧ (∀ sl ∈ t.rsv.slots, sl.state = .empty ∧ sl.holders = [] ∧ sl.vector = none ∧ sl.vectorEpoch = 0)
        ∧ t.rsv.waiting = [])
    ∧ (t.pgu.clockChanges = [] ∧ t.pgu.programme = [] ∧ t.pgu.view = [] ∧ t.pgu.states = [] ∧ t.pgu.lists = []
        ∧ t.pgu.offset = 0 ∧ t.pgu.retained = false ∧ t.pgu.lastTime = none)
    ∧ (t.msc.state = .standby ∧ t.msc.kind = .none ∧ t.msc.serial = 0 ∧ t.msc.outcome = .none
        ∧ t.msc.calledTimer = none ∧ t.msc.holdTimer = none ∧ t.msc.alarm = none ∧ t.msc.reserveLevel = none
        ∧ t.msc.alarmPin.held = 0 ∧ t.msc.reservePin.held = 0
        ∧ t.msc.reserve = false ∧ t.msc.map = none ∧ tally t = 0)
    ∧ (t.pco.rotations = [] ∧ t.pco.notices = [] ∧ t.pco.interjections = [] ∧ t.pco.rots = []
        ∧ ∀ x, desiredPage t.pco x = none ∧ (pageRec t.pco x).serial = 0)
    ∧ ((∀ l ∈ t.lcs.lines, l.service = .silent ∧ l.txn = none ∧ l.musterPos = 0 ∧ l.cyclePos = 0 ∧ l.cycleCount = 0)
        ∧ ∀ x, lineRec t.lcs x = emptyLineRec ∧ lineStatus t x = .absent)
    ∧ (t.xu.runState = .halted ∧ t.xu.enables = 0 ∧ t.xu.causes = 0 ∧ t.xu.base = 0 ∧ t.xu.span = 0
        ∧ t.xu.pendingHi = 0 ∧ t.xu.interval = 50 ∧ t.xu.countdown = none ∧ t.xu.surveyPending = false
        ∧ t.xu.stage = none ∧ t.xu.applied = 0 ∧ t.xu.settled = 0 ∧ t.xu.settle.outcome = .none
        ∧ t.xu.reportSerial = 0 ∧ t.xu.counters = zeroCounters ∧ t.xu.lastFault.kind = .none
        ∧ (∀ x, statusHold t.xu x = { written := none, mark := true }) ∧ t.xu.msiSent = s.xu.msiSent)

/-- A function reset: the voyage clock and the current offset survive it, the offset retained (R44, R49), and the rest is as
after a power-on reset (R64, R89, R108, R144, R190), but for MSI delivery and the MSIs sent, which are the outside's (log
7); values that the spec does not state are the model's (logs 5, 8 and 39). An FLR in a function reset begins it again: the
model's choice, log 41. A CONTROL write is discarded while a reset holds the part (R175). -/
def Obligations.FunctionResetKeepsClock : Prop :=
  (∀ (src : ResetSource) (s : State), s.phase = .operating ∨ (s.phase = .function ∧ src = .flr) →
    ∃ t, exec (.functionReset src) s = .next t ∧ t.phase = .function
      ∧ t.clk = s.clk ∧ t.pgu = { resetPgu with offset := s.pgu.offset, retained := true }
      ∧ t.sms = resetSms ∧ t.rsv = resetRsv ∧ t.msc = resetMsc ∧ t.pco = resetPco ∧ t.lcs = resetLcs
      ∧ t.xu = { resetXu with msiDelivery := s.xu.msiDelivery, msiSent := s.xu.msiSent })
  ∧ ∀ s : State, s.phase ≠ .operating → exec (.functionReset .controlWrite) s = .next s

/-- From the start of a reset until it ends every command is without effect, but for resets, their ends and the voyage
clock; the ends free the part and change nothing else (R65, R69, R175). -/
def Obligations.HeldInResetDiscards : Prop :=
  (∀ (c : Instr) (s : State), s.phase ≠ .operating → actsInReset c = false → exec c s = .next s)
  ∧ (∀ s : State, s.phase = .powerOn → exec .powerOnResetEnd s = .next { s with phase := .operating })
  ∧ ∀ s : State, s.phase = .function →
      exec .functionResetEnd s = .next { s with phase := .operating, resetLeft := 0 }

/-! ## Registers -/

/-- Run and halt requests (R188, R189). A run request: into RUNNING with a valid base from HALTED and HALTING, where a
survey begins, or is marked pending while one is in progress (R181); NO_BASE from HALTED without one; RUNNING with NO_BASE
and no survey from HALTING without one (the model's reading, log 14); no effect while RUNNING. A halt request: into HALTING
in STANDBY, refused in a muster, no effect when not RUNNING. Where a request is without effect the state is the flush of the
state it found: the report writes that were due begin (the model's choices, logs 17 and 55). The end of a halt (R188): with
the stage IDLE, no survey and all lines silent the state becomes HALTED; with a valid base the report block is written with
halted 1 by a write of the halt's own, after which HALTED is latched (`BusWritesEnd`), and HALTED is latched at once without
one (R187). What a halt waits for is log 21. -/
def Obligations.RunStates : Prop :=
  (((∀ s : State, s.phase = .operating → s.xu.runState ≠ .running → baseValid s.xu = true →
      ∃ t, exec .runRequest s = .next t ∧ t.xu.runState = .running
        ∧ (∀ l ∈ t.lcs.lines, l.service = .inService) ∧ t.lcs.recs = s.lcs.recs
        ∧ SurveyAsked s.xu t.xu ∧ t.xu.countdown = some (s.xu.interval * 25000)
        ∧ t.xu.causes = s.xu.causes ∧ SameRegisters s.xu t.xu ∧ { t with lcs := s.lcs, xu := s.xu } = s)
    ∧ (∀ s : State, s.phase = .operating → s.xu.runState = .halted → baseValid s.xu = false →
      ∃ t, exec .runRequest s = .next t ∧ t.xu.runState = .halted
        ∧ t.xu.lastFault = { kind := .noBase, subject := none, second := s.clk.second }
        ∧ t.xu.causes = s.xu.causes ||| 16#7 ∧ t.xu.counters = s.xu.counters
        ∧ SameRegisters s.xu t.xu ∧ { t with xu := s.xu } = s)
    ∧ (∀ s : State, s.phase = .operating → s.xu.runState = .halting → baseValid s.xu = false →
      ∃ t, exec .runRequest s = .next t ∧ t.xu.runState = .running
        ∧ (∀ l ∈ t.lcs.lines, l.service = .inService) ∧ t.lcs.recs = s.lcs.recs
        ∧ t.xu.lastFault = { kind := .noBase, subject := none, second := s.clk.second }
        ∧ t.xu.causes = s.xu.causes ||| 16#7 ∧ t.xu.counters = s.xu.counters
        ∧ t.xu.countdown = s.xu.countdown ∧ (s.xu.survey = none → t.xu.survey = none)
        ∧ SameRegisters s.xu t.xu ∧ { t with lcs := s.lcs, xu := s.xu } = s)
    ∧ ∀ s : State, s.phase = .operating → s.xu.runState = .running → exec .runRequest s = .next (flush s))
    ∧ ((∀ s : State, s.phase = .operating → s.xu.runState = .running → s.msc.state = .standby →
      ∃ t, exec .haltRequest s = .next t ∧ t.xu.runState = .halting ∧ t.xu.countdown = none ∧ t.xu.surveyPending = false
        ∧ (∀ l ∈ t.lcs.lines, l.txn = none → l.service = .silent) ∧ (∀ l ∈ t.lcs.lines, l.service ≠ .inService)
        ∧ t.lcs.lines.map LineCtl.txn = s.lcs.lines.map LineCtl.txn ∧ t.lcs.recs = s.lcs.recs
        ∧ SameRegisters s.xu t.xu ∧ { t with lcs := s.lcs, xu := s.xu } = s)
    ∧ (∀ s : State, s.phase = .operating → s.xu.runState = .running → s.msc.state ≠ .standby →
      ∃ t, exec .haltRequest s = .next t ∧ t.xu.runState = .running ∧ t.xu.causes = s.xu.causes ||| 64#7
        ∧ t.xu.countdown = s.xu.countdown ∧ SameRegisters s.xu t.xu ∧ { t with xu := s.xu } = s)
    ∧ ∀ s : State, s.phase = .operating → s.xu.runState ≠ .running → exec .haltRequest s = .next (flush s)))
  ∧ (∀ s : State, s.phase = .operating → s.xu.runState = .halting → s.xu.stage = none → s.xu.survey = none →
      (∀ l ∈ s.lcs.lines, l.service = .silent) →
      ∃ t, exec .haltComplete s = .next t ∧ t.xu.runState = .halted
        ∧ (baseValid s.xu = true → t.xu.causes = s.xu.causes
            ∧ ∃ w, t.xu.reportWrite = some w ∧ (s.xu.reportWrite = none → w.fields.halted = true)
              ∧ (s.xu.reportWrite = none → s.xu.reportDue = [] → w.reason = .halt)
              ∧ (s.xu.reportWrite ≠ none ∨ s.xu.reportDue ≠ [] → WriteReason.halt ∈ t.xu.reportDue))
        ∧ (baseValid s.xu = false → t.xu.causes = s.xu.causes ||| 32#7)
        ∧ SameRegisters s.xu t.xu ∧ { t with xu := s.xu } = s)

/-- Writes of the enables and of CAUSE (R176, R187): the MSI is sent when the set of causes latched and enabled goes from
empty to not empty, by a write of the enables or by any command that latches a cause, and a clear sends none. A latched
cause stays until the host clears it or a reset does, and the MSI is not sent again while the set of causes latched and
enabled stays non-empty, nor while its delivery is disabled (R187; the delivery bit is the model's, log 7). -/
def Obligations.CausesLatched : Prop :=
  ((∀ (e : BitVec 7) (s : State), s.phase = .operating →
      ∃ t, exec (.causeEnablesWrite e) s = .next t ∧ t.xu.enables = e ∧ t.xu.causes = s.xu.causes
        ∧ t.xu.msiSent =
            s.xu.msiSent +
              (if s.xu.causes &&& s.xu.enables = 0 ∧ s.xu.causes &&& e ≠ 0 ∧ s.xu.msiDelivery = true then 1 else 0)
        ∧ { t with xu := s.xu } = s)
    ∧ ∀ (v : Word32) (s : State), s.phase = .operating →
      ∃ t, exec (.causeClear v) s = .next t ∧ t.xu.causes = s.xu.causes &&& ~~~(v.extractLsb' 0 7)
        ∧ t.xu.enables = s.xu.enables ∧ t.xu.msiSent = s.xu.msiSent
        ∧ SameRegisters s.xu t.xu ∧ { t with xu := s.xu } = s)
  ∧ (∀ (c : Instr) (s t : State), isReset c = false → (∀ v, c ≠ .causeClear v) → exec c s = .next t →
      s.xu.causes &&& ~~~t.xu.causes = 0
        ∧ ((s.xu.causes &&& s.xu.enables ≠ 0 ∧ (∀ e, c ≠ .causeEnablesWrite e)) ∨ s.xu.msiDelivery = false →
            t.xu.msiSent = s.xu.msiSent)
        ∧ (s.xu.causes &&& s.xu.enables = 0 → s.xu.msiDelivery = true →
            t.xu.msiSent = s.xu.msiSent + if t.xu.causes &&& t.xu.enables = 0 then 0 else 1))

/-- Writes of XBASE_HI and XBASE_LO (R177, R189): the high word waits, the low write puts base and span in force, and a
change of either marks the report block and every status record, unless the report block is already being written whole at
the new base, by the survey in progress (the model's choice, log 52). A base made invalid while RUNNING stops the surveys
with NO_BASE; in every run state it drops the report and status writes not yet issued, counting none of them, and latches at
once every cause that waited for one, HALTED among them after a dropped halt's write (R183, R187). A base made valid while
RUNNING starts the surveys; a valid base changed for another begins no survey (the model's reading, log 15); in the other
run states and with no valid base before or after nothing starts or stops. The run state never changes. A report write that
begins here has the next serial, 0 after 4,294,967,295 (the model's choice, log 60). -/
def Obligations.XbaseWrites : Prop :=
  (∀ (v : Word32) (s : State), s.phase = .operating →
    ∃ t, exec (.xbaseHiWrite v) s = .next t ∧ t.xu.pendingHi = v ∧ t.xu.base = s.xu.base ∧ t.xu.span = s.xu.span
      ∧ readReg t 0x0C 4 = v ∧ { t with xu := s.xu } = s)
  ∧ ∀ (v : Word32) (s : State), s.phase = .operating →
    ∃ t, exec (.xbaseLoWrite v) s = .next t
      ∧ t.xu.base.extractLsb' 32 32 = s.xu.pendingHi
      ∧ t.xu.base.extractLsb' 12 20 = v.extractLsb' 12 20 ∧ t.xu.base.extractLsb' 0 12 = 0#12
      ∧ t.xu.span = min 16 (v.toNat % 32) ∧ t.xu.runState = s.xu.runState
      ∧ (t.xu.base ≠ s.xu.base ∨ t.xu.span ≠ s.xu.span →
          (∀ n, (statusHold t.xu n).mark = true)
          ∧ (t.xu.reportMark = true ∨ ∃ w, t.xu.reportWrite = some w ∧ w.reason = .survey ∧ w.base = t.xu.base
              ∧ w.serial = s.xu.reportSerial + 1))
      ∧ (s.xu.runState = .running → baseValid s.xu = true → t.xu.span = 0 →
          t.xu.countdown = none
            ∧ t.xu.lastFault = { kind := .noBase, subject := none, second := s.clk.second }
            ∧ t.xu.causes.getLsbD 4 = true)
      ∧ (baseValid s.xu = true → t.xu.span = 0 →
          t.xu.reportWrite = none ∧ t.xu.reportDue = [] ∧ t.xu.waiting = 0 ∧ t.xu.counters = s.xu.counters
            ∧ (∀ x r l, t.xu.survey ≠ some (.status x r l)) ∧ t.xu.survey ≠ some .report
            ∧ t.xu.causes = s.xu.causes ||| s.xu.waiting ||| (s.xu.reportWrite.map ReportWrite.covers).getD 0
                ||| (if WriteReason.halt ∈ s.xu.reportDue ∨ s.xu.reportWrite.map ReportWrite.reason = some .halt then 32#7
                  else 0)
                ||| if s.xu.runState = .running then 16#7 else 0)
      ∧ (s.xu.runState = .running → baseValid s.xu = false → t.xu.span ≠ 0 →
          SurveyAsked s.xu t.xu ∧ t.xu.countdown = some (s.xu.interval * 25000))
      ∧ (baseValid s.xu = true → t.xu.span ≠ 0 → t.xu.countdown = s.xu.countdown ∧ t.xu.lastFault = s.xu.lastFault
          ∧ t.xu.causes = s.xu.causes ∧ (s.xu.survey ≠ some .report → t.xu.survey = s.xu.survey))
      ∧ (s.xu.runState ≠ .running → t.xu.countdown = s.xu.countdown ∧ t.xu.lastFault = s.xu.lastFault
          ∧ (s.xu.survey = none → t.xu.survey = none))
      ∧ (baseValid s.xu = false → t.xu.span = 0 → t.xu.countdown = s.xu.countdown ∧ t.xu.lastFault = s.xu.lastFault
          ∧ t.xu.causes = s.xu.causes ∧ (s.xu.survey = none → t.xu.survey = none))
      ∧ t.xu.stage = s.xu.stage ∧ t.xu.applied = s.xu.applied ∧ t.xu.settled = s.xu.settled
      ∧ { t with xu := s.xu } = s

/-- A write of SURVEY (R178) sets the interval, clamped to 10 to 1000 ms, and a read returns it; while RUNNING with a valid
base it also begins a survey, or marks one pending while one is in progress, and reloads the countdown with the new
interval; otherwise it begins nothing. -/
def Obligations.SurveyWrite : Prop :=
  ∀ (v : Word32) (s : State), s.phase = .operating →
    ∃ t, exec (.surveyWrite v) s = .next t
      ∧ t.xu.interval = clampNat 10 1000 (v.toNat % 1024)
      ∧ readReg t 0x10 4 = BitVec.ofNat 32 t.xu.interval
      ∧ (s.xu.runState = .running ∧ baseValid s.xu = true →
          SurveyAsked s.xu t.xu ∧ t.xu.countdown = some (t.xu.interval * 25000))
      ∧ (¬(s.xu.runState = .running ∧ baseValid s.xu = true) →
          t.xu.countdown = s.xu.countdown ∧ (s.xu.survey = none → t.xu.survey = none))
      ∧ { t with xu := s.xu } = s

/-- The six registers (R175 to R179). Writes: CONTROL is a function reset, or its enables and then its RUN; CAUSE, XBASE_LO,
XBASE_HI and SURVEY are one command each; MUSTER is the order its code names, every other code a BAD_ORDER. Reads: each
field in its place, every bit not listed 0, and all 0 while a reset holds the part; `RegistersInRange` is an invariant of
the model. An access at any other offset or size reads 0 and writes nothing. -/
def Obligations.ControlAndUnmapped : Prop :=
  (∀ v : Word32,
    (writeCommands 0x00 4 v =
      if v.getLsbD 1 then [.functionReset .controlWrite]
      else [.causeEnablesWrite (v.extractLsb' 8 7), if v.getLsbD 0 then .runRequest else .haltRequest])
    ∧ writeCommands 0x04 4 v = [.causeClear v] ∧ writeCommands 0x08 4 v = [.xbaseLoWrite v]
    ∧ writeCommands 0x0C 4 v = [.xbaseHiWrite v] ∧ writeCommands 0x10 4 v = [.surveyWrite v]
    ∧ (v.extractLsb' 0 4 = 1#4 → writeCommands 0x14 4 v = [.callReal])
    ∧ (v.extractLsb' 0 4 = 2#4 → writeCommands 0x14 4 v = [.callDrill])
    ∧ (v.extractLsb' 0 4 = 3#4 → writeCommands 0x14 4 v = [.standDown])
    ∧ (v.extractLsb' 0 4 = 0#4 ∨ 3#4 < v.extractLsb' 0 4 →
        writeCommands 0x14 4 v = [.badOrder (v.extractLsb' 0 4)]))
  ∧ (∀ s : State, s.phase = .operating → RegistersInRange s →
      ((readReg s 0x00 4).getLsbD 0 = true ↔ s.xu.runState ≠ .halted) ∧ (readReg s 0x00 4).getLsbD 1 = false
        ∧ ((readReg s 0x00 4).getLsbD 2 = true ↔ s.xu.runState = .halting)
        ∧ (readReg s 0x00 4).extractLsb' 8 7 = s.xu.enables ∧ readReg s 0x00 4 &&& 0xFFFF80F8#32 = 0
      ∧ (readReg s 0x04 4).extractLsb' 0 7 = s.xu.causes ∧ (readReg s 0x04 4).extractLsb' 7 25 = 0
      ∧ (readReg s 0x08 4).extractLsb' 12 20 = s.xu.base.extractLsb' 12 20
        ∧ ((readReg s 0x08 4).extractLsb' 0 12).toNat = s.xu.span
      ∧ readReg s 0x0C 4 = s.xu.pendingHi
      ∧ (readReg s 0x10 4).toNat = s.xu.interval
      ∧ ((readReg s 0x14 4).extractLsb' 0 3).toNat = musterStateCode s.msc.state
        ∧ ((readReg s 0x14 4).extractLsb' 4 2).toNat = musterKindCode s.msc.kind
        ∧ ((readReg s 0x14 4).extractLsb' 8 4).toNat = orderOutcomeCode s.msc.outcome
        ∧ (readReg s 0x14 4).extractLsb' 16 8 = s.msc.serial.extractLsb' 0 8
        ∧ readReg s 0x14 4 &&& 0xFF00F0C8#32 = 0)
  ∧ (∀ (s : State) (offset size : Nat), s.phase ≠ .operating → readReg s offset size = 0)
  ∧ (∀ (s : State) (offset size : Nat) (v : Word32),
      offset ∉ [0x00, 0x04, 0x08, 0x0C, 0x10, 0x14] ∨ size ≠ 4 →
      readReg s offset size = 0 ∧ writeCommands offset size v = [.unmappedAccess offset size (v.zeroExtend 64)])
  ∧ ∀ (s : State) (offset size : Nat) (v : Word64), exec (.unmappedAccess offset size v) s = .next s

/-! ## Muster -/

/-- A call by register order (R69, R70, R71, R72, R83). From STANDBY: the serial rises, the NORMAL claims go, the MUSTER
claims are made as one operation (R34, R35, R79; that they pass through the waiting list too is the model's reading, log 32)
and the map is built; from STANDING_DOWN claims, slots, vectors and map are kept, and a DRILL is called only after a DRILL.
CALLED lasts unless every counted station has already confirmed. Every configured station shows the page that the new state
calls for, and MUSTER waits for the report write of the call (R76, R95). A part that is halted or halting is asked to resume
(R78, R188, R189), as `Resumed` says, with the model's readings of log 14 and log 20; that the last-fault record then shows
NO_BASE, entered after the compositions of the call, is the model's choice, log 50. -/
def Obligations.CallsAccepted : Prop :=
  (∀ (drill : Bool) (s : State), s.phase = .operating → s.msc.state = .standby → AlarmAnswered s → SlotsHeld s →
    ∃ t, exec (if drill then .callDrill else .callReal) s = .next t
      ∧ t.msc.outcome = .accepted ∧ CalledFrom (if drill then .drill else .real) s t ∧ t.msc.alarm = s.msc.alarm
      ∧ PagesShown t ∧ Resumed s t ∧ SameRegisters s.xu t.xu
      ∧ { t with rsv := s.rsv, msc := s.msc, pco := s.pco, lcs := s.lcs, xu := s.xu } = s)
  ∧ (∀ (drill : Bool) (s : State), s.phase = .operating → s.msc.state = .standingDown → AlarmAnswered s →
    (drill = true → s.msc.kind ≠ .real) →
    ∃ t, exec (if drill then .callDrill else .callReal) s = .next t
      ∧ t.msc.outcome = .accepted ∧ CalledFrom (if drill then .drill else .real) s t
      ∧ PagesShown t ∧ Resumed s t ∧ SameRegisters s.xu t.xu
      ∧ { t with msc := s.msc, pco := s.pco, lcs := s.lcs, xu := s.xu } = s)

/-- CALL_REAL in CALLED or MUSTERING of a DRILL escalates it (R69, R73): kind and serial change, claims and map do not, and
a running called timer restarts. Every configured station shows the page that the new kind and serial call for, and MUSTER
waits for the report write (R76, R95). It asks for no resume (R78). -/
def Obligations.RealOrderEscalates : Prop :=
  ∀ s : State, s.phase = .operating → (s.msc.state = .called ∨ s.msc.state = .mustering) → s.msc.kind ≠ .real →
    ∃ t, exec .callReal s = .next t
      ∧ t.msc.outcome = .escalated ∧ EscalatedFrom s t
      ∧ PagesShown t ∧ ReportTold 2 s t
      ∧ { t with msc := s.msc, pco := s.pco, xu := s.xu } = s

/-- STAND_DOWN in CALLED or MUSTERING (R74): refused while a REAL muster's alarm is asserted under LEVEL, else accepted
(with the invariant `AlarmAnswered` as its premise), the pages composed and the report written at once with MUSTER waiting
for it (R76, R95). Ignored, refused and bad orders change the last order outcome alone (R69). Where only the outcome changes
the state is the flush of the one with that outcome: the report writes that were due begin (the model's choice, log 17). -/
def Obligations.OrdersNotCalling : Prop :=
  ((∀ s : State, s.phase = .operating → (s.msc.state = .called ∨ s.msc.state = .mustering) →
    s.msc.kind = .real → s.sms.settings.alarmSense = .level → s.msc.alarm = some true →
    exec .standDown s = .next (flush { s with msc := { s.msc with outcome := .refusedAlarmAsserted } }))
  ∧ ∀ s : State, s.phase = .operating → (s.msc.state = .called ∨ s.msc.state = .mustering) → AlarmAnswered s →
    ¬(s.msc.kind = .real ∧ s.sms.settings.alarmSense = .level ∧ s.msc.alarm = some true) →
    ∃ t, exec .standDown s = .next t
      ∧ t.msc = { s.msc with
          outcome := .accepted, state := .standingDown, calledTimer := none, holdTimer := some 1500000000 }
      ∧ t.xu.runState = s.xu.runState ∧ PagesShown t ∧ ReportTold 2 s t
      ∧ { t with msc := s.msc, pco := s.pco, xu := s.xu } = s)
  ∧ (∀ s : State, s.phase = .operating →
    (∀ code, exec (.badOrder code) s = .next (flush { s with msc := { s.msc with outcome := .badOrder } }))
    ∧ ((s.msc.state = .called ∨ s.msc.state = .mustering) → s.msc.kind = .real →
        exec .callReal s = .next (flush { s with msc := { s.msc with outcome := .ignored } }))
    ∧ ((s.msc.state = .called ∨ s.msc.state = .mustering) → s.msc.kind ≠ .real →
        exec .callDrill s = .next (flush { s with msc := { s.msc with outcome := .ignored } }))
    ∧ (s.msc.state ≠ .standby → s.msc.kind = .real →
        exec .callDrill s = .next (flush { s with msc := { s.msc with outcome := .refusedDrillInReal } }))
    ∧ ((s.msc.state = .standby ∨ s.msc.state = .standingDown) →
        exec .standDown s = .next (flush { s with msc := { s.msc with outcome := .ignored } })))

/-- The alarm (R65, R66, R67), its pin having held the level for 20 ms. Under LEVEL an asserted level calls a REAL muster or
escalates, a REAL muster goes on, and a clear level calls nothing. Under EDGE a rising transition is one REAL call, and none
in a REAL muster; a falling transition and the first level after a reset call nothing. A call leaves what a call by order
leaves: from STANDBY the NORMAL claims go, the MUSTER claims are made and the map is built, from STANDING_DOWN all of these
stand, and the called timer starts at 60 s unless the tally is complete (R35, R70, R79, log 32); an escalation leaves claims
and map (R73). The last order outcome stays. At a call and at an escalation the pages are composed, and MUSTER waits for the
report write (R76, R95). A call asks a part that is halted or halting to resume (R78, logs 14 and 20); that the last-fault
record then shows NO_BASE, entered after the compositions of the call, is the model's choice, log 50. A level that the pin
has not held for 20 ms is not taken (that such a command answers the state as it is, is log 2; the hold counter is log 8).
Where only the level is recorded the state is the flush of the one with that level (log 17). -/
def Obligations.AlarmSensing : Prop :=
  (∀ (c : Instr) (level : Bool) (s : State), s.phase = .operating → s.sms.settings.alarmSense = .level →
    PinAt level s.msc.alarmPin →
    (c = .alarmQualifiedTransition level ∧ s.msc.alarm = some (!level) ∨ c = .alarmInitialLevel level ∧ s.msc.alarm = none) →
    ∃ t, exec c s = .next t ∧ t.msc.alarm = some level ∧ t.msc.outcome = s.msc.outcome ∧ t.lcs.recs = s.lcs.recs
      ∧ { t with rsv := s.rsv, msc := s.msc, pco := s.pco, lcs := s.lcs, xu := s.xu } = s
      ∧ (level = true → t.msc.kind = .real ∧ (t.msc.state = .called ∨ t.msc.state = .mustering))
      ∧ (level = true → (s.msc.state = .standby ∨ s.msc.state = .standingDown ∨ s.msc.kind ≠ .real) →
          t.msc.serial = nextSerial s.msc.serial ∧ PagesShown t ∧ ReportTold 2 s t)
      ∧ (level = true → (s.msc.state = .standby ∨ s.msc.state = .standingDown) → CalledFrom .real s t ∧ Resumed s t)
      ∧ (level = true → (s.msc.state = .called ∨ s.msc.state = .mustering) → s.msc.kind ≠ .real → EscalatedFrom s t)
      ∧ ((level = false ∨ ((s.msc.state = .called ∨ s.msc.state = .mustering) ∧ s.msc.kind = .real)) →
          t = flush { s with msc := { s.msc with alarm := some level } }))
  ∧ (∀ s : State, s.phase = .operating → s.sms.settings.alarmSense = .edge →
    (PinAt true s.msc.alarmPin → s.msc.alarm = some false →
      (s.msc.state = .standby ∨ s.msc.state = .standingDown ∨ s.msc.kind ≠ .real) →
      ∃ t, exec (.alarmQualifiedTransition true) s = .next t ∧ t.msc.alarm = some true ∧ t.msc.kind = .real
        ∧ (t.msc.state = .called ∨ t.msc.state = .mustering) ∧ t.msc.serial = nextSerial s.msc.serial
        ∧ t.msc.outcome = s.msc.outcome ∧ PagesShown t ∧ ReportTold 2 s t
        ∧ ((s.msc.state = .standby ∨ s.msc.state = .standingDown) → CalledFrom .real s t ∧ Resumed s t)
        ∧ ((s.msc.state = .called ∨ s.msc.state = .mustering) → EscalatedFrom s t))
    ∧ (PinAt true s.msc.alarmPin → s.msc.alarm = some false → (s.msc.state = .called ∨ s.msc.state = .mustering) →
        s.msc.kind = .real →
        exec (.alarmQualifiedTransition true) s = .next (flush { s with msc := { s.msc with alarm := some true } }))
    ∧ (PinAt false s.msc.alarmPin → s.msc.alarm = some true →
        exec (.alarmQualifiedTransition false) s = .next (flush { s with msc := { s.msc with alarm := some false } }))
    ∧ (s.msc.alarm = none → ∀ level, PinAt level s.msc.alarmPin →
        exec (.alarmInitialLevel level) s = .next (flush { s with msc := { s.msc with alarm := some level } })))
  ∧ ∀ (level : Bool) (s : State), s.phase = .operating → ¬PinAt level s.msc.alarmPin →
    exec (.alarmQualifiedTransition level) s = .next s ∧ exec (.alarmInitialLevel level) s = .next s

/-- The reserve regime (R86, R87, R88), the RESERVE pin having held the level for 20 ms: it begins at a rising transition
and at an asserted first level, ends at a falling one, blanks every station that is not essential while it holds, gives each
of them the page its state calls for at its end, and leaves kind, serial, claims and routes alone; an essential station
keeps its page and its line record (R86); the number of counted stations changes, and in CALLED a tally that is then
complete ends CALLED (R72, R84, R85); at both the report is written at once, and RESERVE waits for it. A level that the pin
has not held for 20 ms is not taken (log 2, log 8). A clear first level leaves the flush of the state that records it (log
17). -/
def Obligations.ReserveRegime : Prop :=
  (∀ (c : Instr) (s : State), s.phase = .operating → AlarmAnswered s → PinAt true s.msc.reservePin →
    (c = .reserveQualifiedRise ∧ s.msc.reserveLevel = some false
      ∨ c = .reserveInitialLevel true ∧ s.msc.reserveLevel = none) →
    ∃ t, exec c s = .next t ∧ t.msc.reserve = true ∧ t.msc.reserveLevel = some true
      ∧ (∀ x st, tblGet s.sms.stations x = some st → st.essential = false →
          desiredPage t.pco x = some { body := .blank, musterSerial := 0 })
      ∧ (TablesCanonical s → ∀ x st, tblGet s.sms.stations x = some st → st.essential = true →
          lineRec t.lcs x = lineRec s.lcs x ∧ (t.msc.state = s.msc.state → pageRec t.pco x = pageRec s.pco x))
      ∧ RecountTaken { s.msc with reserve := true, reserveLevel := some true } s t
      ∧ t.msc.kind = s.msc.kind ∧ t.msc.serial = s.msc.serial ∧ t.msc.map = s.msc.map ∧ t.xu.runState = s.xu.runState
      ∧ (∀ x, confirmedPage t x = confirmedPage s x) ∧ ReportTold 3 s t
      ∧ { t with msc := s.msc, pco := s.pco, lcs := s.lcs, xu := s.xu } = s)
  ∧ (∀ s : State, s.phase = .operating → AlarmAnswered s → PinAt false s.msc.reservePin →
      s.msc.reserveLevel = some true →
    ∃ t, exec .reserveQualifiedFall s = .next t ∧ t.msc.reserve = false ∧ t.msc.reserveLevel = some false
      ∧ (∀ x st, tblGet s.sms.stations x = some st → st.essential = false →
          desiredPage t.pco x = some (candidate t x st).page)
      ∧ (TablesCanonical s → ∀ x st, tblGet s.sms.stations x = some st → st.essential = true →
          t.msc.state = s.msc.state → pageRec t.pco x = pageRec s.pco x)
      ∧ (∀ x, (lineRec t.lcs x).shed = false ∧ lineStatus t x = lineStatus s x)
      ∧ RecountTaken { s.msc with reserve := false, reserveLevel := some false } s t
      ∧ t.msc.kind = s.msc.kind ∧ t.msc.serial = s.msc.serial ∧ t.msc.map = s.msc.map ∧ t.xu.runState = s.xu.runState
      ∧ (∀ x, confirmedPage t x = confirmedPage s x) ∧ ReportTold 3 s t
      ∧ { t with msc := s.msc, pco := s.pco, lcs := s.lcs, xu := s.xu } = s)
  ∧ (∀ s : State, s.phase = .operating → PinAt false s.msc.reservePin → s.msc.reserveLevel = none →
    exec (.reserveInitialLevel false) s = .next (flush { s with msc := { s.msc with reserveLevel := some false } }))
  ∧ ∀ s : State, s.phase = .operating →
    (¬PinAt true s.msc.reservePin → exec .reserveQualifiedRise s = .next s)
      ∧ (¬PinAt false s.msc.reservePin → exec .reserveQualifiedFall s = .next s)
      ∧ ∀ level, ¬PinAt level s.msc.reservePin → exec (.reserveInitialLevel level) s = .next s

/-- The called timer's expiry (R72): CALLED ends in MUSTERING, with kind, serial, claims and map kept. The hold's expiry
(R75, R153, R155): STANDBY with kind NONE, the serial kept and no map; the claims are exactly those whose condition holds,
made in one operation with CLAIM_WAIT rising by those left waiting (R34, R35); and every cabin with pending service has
attention set, with one attention event if there is such a cabin. At both every configured station shows the page that its
state calls for (R76, R95), and MUSTER waits for the report write. At the return the rotations go on (R122): the lowest due
interjection is shown at once, a STEP keeping its step and the time left to return to, a screen on an interjection only when
that one's time is over; with none due a STEP whose countdown stopped at 0 walks on, an interjection so stopped returns, and
every other screen goes on as it stood: one of rotation 0 that shows an interjection too, whatever is due (the model's
choice, log 59). -/
def Obligations.MusterTimersExpire : Prop :=
  (∀ s : State, s.phase = .operating → AlarmAnswered s → s.msc.state = .called → s.msc.calledTimer = some 0 →
    ∃ t, exec .calledTimerExpiry s = .next t
      ∧ t.msc = { s.msc with state := .mustering, calledTimer := none }
      ∧ PagesShown t ∧ ReportTold 2 s t
      ∧ SameRegisters s.xu t.xu ∧ { t with msc := s.msc, pco := s.pco, xu := s.xu } = s)
  ∧ (∀ s : State, s.phase = .operating → AlarmAnswered s → SlotsHeld s → s.msc.state = .standingDown →
    s.msc.holdTimer = some 0 →
    ∃ t, exec .standDownHoldExpiry s = .next t
      ∧ t.msc = { s.msc with state := .standby, kind := .none, holdTimer := none, map := none }
      ∧ OnlyClaims t (desiredClaims t) ∧ ClaimsPlaced t (desiredClaims t) ∧ ClaimsServed (desiredClaims t) s t
      ∧ t.lcs.lines = s.lcs.lines
      ∧ (∀ x d, (lineRec s.lcs x).door = some d →
          (lineRec t.lcs x).door = some (if 0 < pendingService d then { d with attention := true } else d))
      ∧ ((∃ x d, (lineRec s.lcs x).door = some d ∧ 0 < pendingService d) → CauseTold 1 s t)
      ∧ (∀ x, confirmedPage t x = confirmedPage s x) ∧ t.pco.active = s.pco.active
      ∧ PagesShown t ∧ ReportTold 2 s t
      ∧ (∀ x r, tblGet s.pco.rots x = some r → ∃ q, tblGet t.pco.rots x = some q
          ∧ (∀ i, lowestDue r = some i → r.countdown = some 0 ∨ (∀ k, r.position ≠ .interj k) → ShownAfresh s r q i)
          ∧ (∀ n, r.position = .step n →
              (∀ i, lowestDue r = some i → q.resume = some (n, r.countdown.getD 0) ∧ q.loops = r.loops)
              ∧ (lowestDue r = none → r.countdown ≠ some 0 → q = r)
              ∧ (lowestDue r = none → r.countdown = some 0 → ∀ m steps loops, steps = rotSteps s.pco.rotations r.rotation →
                  walk steps walkFuel (if 7 ≤ n then 0 else n + 1) r.loops = (m, loops) →
                  q = { r with position := .step m, countdown := some (dwellOf steps m), loops }))
          ∧ (r.position = .default →
              (lowestDue r = none → q = r) ∧ ∀ i, lowestDue r = some i → q.resume = r.resume)
          ∧ ∀ k, r.position = .interj k →
              (r.countdown ≠ some 0 → q = r)
              ∧ (r.countdown = some 0 → (∀ i, lowestDue r = some i → q.resume = r.resume)
                  ∧ (lowestDue r = none → Returned r.resume q)))
      ∧ { t with rsv := s.rsv, msc := s.msc, pco := s.pco, lcs := s.lcs, xu := s.xu } = s)

/-- Effective stations and the map (R80 to R83): the class of a muster station from a node, the five cases of a cabin's
effective station with its REDIRECTED mark, the list a screen shows, and one entry of the map for each configured station.
That the Muster Station table is in its canonical form is an invariant of the model. -/
def Obligations.EffectiveStations : Prop :=
  (∀ (musters : Tbl MusterRec) (slots : List Slot) (n k : Nat),
    (tblGet musters k = none → OutAt musters slots n k)
    ∧ ∀ r, tblGet musters k = some r →
      (r.isOpen = false → OutAt musters slots n k)
      ∧ (r.isOpen = true → vectorOf slots { node := r.node, regime := .muster } = none →
          stationClass musters slots n k = .unknown)
      ∧ (∀ v, r.isOpen = true → vectorOf slots { node := r.node, regime := .muster } = some v →
          ((hopOf v n).dist = 65535 → OutAt musters slots n k)
          ∧ ((hopOf v n).dist ≠ 65535 → stationClass musters slots n k = .reachable (hopOf v n).dist)))
  ∧ (∀ (musters : Tbl MusterRec) (slots : List Slot) (st : StationRec), tblSorted musters = true →
      (¬OutAt musters slots st.node st.assigned → effectiveStation musters slots st = (some st.assigned, false))
      ∧ (OutAt musters slots st.node st.assigned →
        (∀ r a, tblGet musters st.assigned = some r → r.alternate = some a → ¬OutAt musters slots st.node a →
          effectiveStation musters slots st = (some a, true))
        ∧ ((∀ r a, tblGet musters st.assigned = some r → r.alternate = some a → OutAt musters slots st.node a) →
          (∀ k, Nearest musters slots st.node k ∨ FirstUnknown musters slots st.node k →
            effectiveStation musters slots st = (some k, true))
          ∧ ((∀ k, OutAt musters slots st.node k) → effectiveStation musters slots st = (none, false))))
      ∧ ((∃ k ∈ st.served, ¬OutAt musters slots st.node k) →
          ∀ shown, shown = shownStations musters slots st → shown.Sublist st.served
            ∧ ∀ k, k ∈ shown ↔ k ∈ st.served ∧ ¬OutAt musters slots st.node k)
      ∧ ((∀ k ∈ st.served, OutAt musters slots st.node k) →
          (∀ k, Nearest musters slots st.node k ∨ FirstUnknown musters slots st.node k →
            shownStations musters slots st = [k])
          ∧ ((∀ k, OutAt musters slots st.node k) → shownStations musters slots st = [])))
  ∧ ∀ (m : SmsState) (slots : List Slot) (x : Nat),
      (tblGet m.stations x = none → tblGet (freshMap m slots) x = none)
      ∧ ∀ st, tblGet m.stations x = some st →
        (st.kind = .cabin → tblGet (freshMap m slots) x =
          some (.cabin (effectiveStation m.musters slots st).1 (effectiveStation m.musters slots st).2))
        ∧ (st.kind ≠ .cabin → tblGet (freshMap m slots) x = some (.screen (shownStations m.musters slots st)))

/-! ## Time, rotations and routes -/

/-- A voyage second (R44, R45): the clock rises by one, wrapping, and a multiple of 60 brings about a minute event; that the
second is counted with the prescaler carried on, and that the minute event waits in the state until it is taken, are the
model's (log 6). A cabin's refresh countdown becomes expired (R146). The survey countdown is reloaded while a survey begins
or is marked pending (R181), also in the survey's report step, where the pending one begins as soon as that step ends. The
end of a silent cycle (R140): the count rises by one, from 7 to 0, and the position returns to 0. -/
def Obligations.TimersRunOut : Prop :=
  (∀ s : State, s.phase ≠ .powerOn → 25000000 ≤ s.clk.prescale →
    exec .voyageSecond s = .next { s with clk :=
      { second := s.clk.second + 1, prescale := s.clk.prescale - 25000000
        minuteDue := s.clk.minuteDue || decide ((s.clk.second.toNat + 1) % 4294967296 % 60 = 0) } })
  ∧ ((∀ (x : Nat) (d : DoorRec) (s : State), s.phase = .operating → (lineRec s.lcs x).door = some d → d.refresh = some 0 →
    ∃ t, exec (.refreshCountdownExpiry x) s = .next t
      ∧ lineRec t.lcs x = { lineRec s.lcs x with door := some { d with refresh := none } }
      ∧ (∀ y, y ≠ x → lineRec t.lcs y = lineRec s.lcs y) ∧ t.lcs.lines = s.lcs.lines
      ∧ { t with lcs := s.lcs, xu := s.xu } = s)
  ∧ ∀ s : State, s.phase = .operating → s.xu.countdown = some 0 →
    ∃ t, exec .surveyCountdownExpiry s = .next t ∧ t.xu.countdown = some (s.xu.interval * 25000)
      ∧ (s.xu.survey = none → t.xu.survey = some (.publish (inSpan s.xu.span 0x400 8) 1250000)
          ∧ t.xu.surveyPending = s.xu.surveyPending)
      ∧ (∀ v, s.xu.survey = some v → v ≠ .report → t.xu.survey = some v ∧ t.xu.surveyPending = true)
      ∧ (s.xu.survey = some .report → s.xu.reportWrite ≠ none →
          t.xu.survey = some .report ∧ t.xu.surveyPending = true)
      ∧ (s.xu.survey = some .report → s.xu.reportWrite = none →
          t.xu.survey = some .report ∧ t.xu.surveyPending = true
          ∨ t.xu.survey = some (.publish (inSpan s.xu.span 0x400 8) 1250000) ∧ t.xu.surveyPending = false
          ∨ t.xu.survey = none ∧ ¬(s.xu.runState = .running ∧ baseValid s.xu = true))
      ∧ SameRegisters s.xu t.xu ∧ { t with xu := s.xu } = s)
  ∧ (∀ (n : Nat) (s : State), s.phase = .operating → n < s.lcs.lines.length → (lineAt s.lcs n).silence = some 0 →
    ∃ t, exec (.silentCycleExpiry n) s = .next t
      ∧ lineAt t.lcs n =
          { lineAt s.lcs n with cycleCount := ((lineAt s.lcs n).cycleCount + 1) % 8, cyclePos := 0, silence := none }
      ∧ (∀ k, k ≠ n → lineAt t.lcs k = lineAt s.lcs k) ∧ t.lcs.recs = s.lcs.recs
      ∧ SameRegisters s.xu t.xu ∧ { t with lcs := s.lcs, xu := s.xu } = s)

/-- A minute event (R45, R48, R49, R52 to R54, R58 to R60, R116 to R121): the ordered view, the entry states and the lists
from the tables and the minute; the offset of the latest clock change that applies, else initial_offset, a retained offset
kept; the claims exactly those whose condition holds, taken as one operation, with the waiting list in its order and
CLAIM_WAIT rising by those newly left waiting (R30 to R34); interjection activity by the window, and who is due at a screen
that shows a step or stands in a muster; a screen at its default page shows the lowest due one in STANDBY. A screen that
shows an interjection goes on with it while it is active and selects the screen; else the showing ends (R119), and in
STANDBY the lowest due one is shown in its place, and otherwise, and always in a muster (R121), the screen returns to its
resume step with its time or to its default page. That a screen of rotation 0 goes on with the one it shows while another is
due is the model's choice, log 59. A station whose page shows the ship time, when TIME is given, or its list, when that
changed, shows the page that the part now calls for (R50, R62, R94). The premise that the event is due (`minuteDue`) and its
clearing are the model's (log 6). `TablesCanonical` is an invariant of the model. -/
def Obligations.MinuteEventEvaluates : Prop :=
  ∀ (now : Nat) (s : State), s.phase ≠ .powerOn → SlotsHeld s → TablesCanonical s → s.clk.minuteDue = true →
    now = s.clk.second.toNat / 60 →
    ∃ t, exec .minuteEvent s = .next t ∧ t.clk = { s.clk with minuteDue := false }
      ∧ (s.pgu.retained = true → t.pgu.offset = s.pgu.offset)
      ∧ (s.pgu.retained = false →
          (∀ i c, tblGet s.pgu.clockChanges i = some c → c.atMinute ≤ now →
            (∀ j d, j ≠ i → tblGet s.pgu.clockChanges j = some d → d.atMinute ≤ now → d.atMinute < c.atMinute) →
            t.pgu.offset = c.newOffset)
          ∧ ((∀ i c, tblGet s.pgu.clockChanges i = some c → now < c.atMinute) →
              t.pgu.offset = s.sms.settings.initialOffset))
      ∧ t.pgu.retained = s.pgu.retained
      ∧ t.pgu.view = orderedView s.pgu.programme
      ∧ (∀ i e, tblGet s.pgu.programme i = some e →
          tblGet t.pgu.states i = some
            (if now + s.sms.settings.lead < e.start then .pending
             else if now < e.start then .soon
             else if now < e.start + e.duration then .running
             else if now < e.start + e.duration + s.sms.settings.linger then .linger
             else .gone))
      ∧ (∀ x st, tblGet s.sms.stations x = some st →
          tblGet t.pgu.lists x =
            if st.kind = .cabin then none
            else some (screenList s.sms.nodes s.pgu.programme t.pgu.states t.pgu.view t.pgu.offset now st))
      ∧ t.pgu.lastTime = some (((now + t.pgu.offset) % 1440).toNat, ((now + t.pgu.offset) / 1440).toNat)
      ∧ (∀ i, i ∈ t.pco.active ↔ ∃ j, (i, j) ∈ s.pco.interjections ∧ j.start ≤ now ∧ now < j.stop)
      ∧ (∀ x st r, tblGet s.sms.stations x = some st → tblGet s.pco.rots x = some r →
          ∃ q, tblGet t.pco.rots x = some q
            ∧ q.rotation = r.rotation ∧ q.loops = r.loops
            ∧ (s.msc.state ≠ .standby ∨ (∃ n, r.position = .step n) → ∀ i, i < 16 →
                (q.due.getD i false = true ↔ DueAtMinute s st r i))
            ∧ ((∃ n, r.position = .step n) →
                q.position = r.position ∧ q.countdown = r.countdown ∧ q.resume = r.resume)
            ∧ (r.position = .default →
                (∀ i, i < 16 → s.msc.state = .standby → DueAtMinute s st r i → (∀ k, k < i → ¬DueAtMinute s st r k) →
                  ShownAfresh s r q i ∧ q.resume = r.resume)
                ∧ (s.msc.state ≠ .standby ∨ (∀ i, i < 16 → ¬DueAtMinute s st r i) → q.position = .default))
            ∧ (∀ i, r.position = .interj i → ActiveOn s st i →
                q.position = r.position ∧ q.countdown = r.countdown ∧ q.resume = r.resume
                  ∧ ∀ k, k < 16 → (q.due.getD k false = true ↔ DueAtMinute s st r k))
            ∧ (∀ i, r.position = .interj i → ¬ActiveOn s st i →
                (∀ k, k < 16 → s.msc.state = .standby → DueAtMinute s st r k → (∀ j, j < k → ¬DueAtMinute s st r j) →
                  ShownAfresh s r q k ∧ q.resume = r.resume)
                ∧ (s.msc.state ≠ .standby ∨ (∀ k, k < 16 → ¬DueAtMinute s st r k) →
                  q.resume = none ∧ (r.resume = none → q.position = .default ∧ q.countdown = none)
                    ∧ ∀ n c, r.resume = some (n, c) → q.position = .step n ∧ q.countdown = some c))
            ∧ (q.position ≠ r.position → desiredPage t.pco x = some (candidate t x st).page))
      ∧ (∀ x st y, tblGet s.sms.stations x = some st → y ∈ (pageRec s.pco x).sources → SourceMoved s t x y →
          desiredPage t.pco x = some (candidate t x st).page)
      ∧ OnlyClaims t (desiredClaims t) ∧ ClaimsPlaced t (desiredClaims t) ∧ ClaimsServed (desiredClaims t) s t
      ∧ t.rsv.waiting.Pairwise (fun a b => ClaimBefore s.pgu.programme a.who b.who)
      ∧ SameTables s t ∧ { t with clk := s.clk, rsv := s.rsv, pgu := s.pgu, pco := s.pco, xu := s.xu } = s

/-- The ordered view and the lists (R52, R58 to R61): the view holds each in-use entry once, by start and then by index; a list
holds the first 3 entries of the view that qualify at a WAYPOINT and the first 8 at a LOBBY; and a line carries the fields of
R61, a route only on the waypoint line of an entry that is not cancelled. That the Programme table is in its canonical form
is an invariant of the model. -/
def Obligations.ProgrammeLists : Prop :=
  (∀ t : Tbl ProgRec, tblSorted t = true →
    (∀ i, i ∈ orderedView t ↔ tblHas t i = true)
    ∧ (orderedView t).Pairwise fun i j => ∀ a b, tblGet t i = some a → tblGet t j = some b →
        a.start < b.start ∨ a.start = b.start ∧ i < j)
  ∧ ∀ (nodes : Tbl NodeRec) (programme : Tbl ProgRec) (states : Tbl EntryState) (view : List Nat) (offset : Int)
      (now : Nat) (st : StationRec) (list : List ListLine),
      list = screenList nodes programme states view offset now st →
      list.map ListLine.entry = (view.filter (qualifies programme states st)).take (if st.kind = .waypoint then 3 else 8)
      ∧ ∀ l ∈ list, ∃ e q, tblGet programme l.entry = some e ∧ tblGet states l.entry = some q
          ∧ l.title = e.title ∧ l.venueLabel = e.venueLabel ∧ l.mark = q ∧ l.cancelled = e.cancelled
          ∧ l.icon = e.category ∧ l.startTime = ((e.start + offset) % 1440).toNat
          ∧ (e.venue = none → l.deck = none ∧ l.route = none)
          ∧ (∀ v, e.venue = some v → l.deck = (tblGet nodes v).map NodeRec.deck
              ∧ l.route = if st.kind = .waypoint ∧ e.cancelled = false then some v else none)
          ∧ l.countdown = if q = .soon then some (e.start - now) else none

/-- Step boundaries (R111, R112, R118): a STEP's countdown that runs out walks on and shows the landed step, or shows the
lowest due interjection with the landed step kept to return to; an interjection shown loads its dwell, none for a hold, and
its minute is held (R118, R120); an interjection's countdown that runs out shows the lowest due one in the same way, or with
nothing due returns to the resume step. The walk passes EMPTY steps, takes a LOOP while its counter lasts and then refills
it, and lands on the first step with a dwell. The station shows the page of its new position (R95, R110). Other stations
keep their rotation states. The walk is bounded by `walkFuel`, more indices than any walk takes: the model's, log 27. -/
def Obligations.RotationBoundaries : Prop :=
  (∀ (x n m : Nat) (r : RotState) (steps : List RotStep) (loops : List Nat) (s : State), s.phase = .operating →
    s.msc.state = .standby → tblGet s.pco.rots x = some r → r.position = .step n → r.countdown = some 0 →
    steps = rotSteps s.pco.rotations r.rotation →
    walk steps walkFuel (if 7 ≤ n then 0 else n + 1) r.loops = (m, loops) →
    ∃ t q, exec (.stepCountdownExpiry x) s = .next t ∧ tblGet t.pco.rots x = some q
      ∧ q.loops = loops ∧ q.rotation = r.rotation
      ∧ (lowestDue r = none → q.position = .step m ∧ q.countdown = some (dwellOf steps m))
      ∧ (∀ i, lowestDue r = some i → q.position = .interj i ∧ q.resume = some (m, dwellOf steps m)
          ∧ q.due = r.due.set i false ∧ ShownAfresh s r q i)
      ∧ (∀ y, y ≠ x → tblGet t.pco.rots y = tblGet s.pco.rots y)
      ∧ (∀ st, tblGet s.sms.stations x = some st → desiredPage t.pco x = some (candidate t x st).page)
      ∧ { t with pco := s.pco, xu := s.xu } = s)
  ∧ (∀ (steps : List RotStep) (fuel i : Nat) (loops : List Nat),
      (steps.getD i .empty = .empty →
        walk steps (fuel + 1) i loops = walk steps fuel (if 7 ≤ i then 0 else i + 1) loops)
      ∧ (∀ target count, steps.getD i .empty = .loop target count →
          walk steps (fuel + 1) i loops =
            if 0 < loops.getD i 0 then walk steps fuel target (loops.set i (loops.getD i 0 - 1))
            else walk steps fuel (if 7 ≤ i then 0 else i + 1) (loops.set i count))
      ∧ ∀ d, (steps.getD i .empty = .programme d ∨ steps.getD i .empty = .landmarks d
            ∨ ∃ k, steps.getD i .empty = .notice k d) →
          walk steps (fuel + 1) i loops = (i, loops) ∧ dwellOf steps i = d * 25000000)
  ∧ ∀ (x i : Nat) (r : RotState) (s : State), s.phase = .operating →
    s.msc.state = .standby → tblGet s.pco.rots x = some r → r.position = .interj i → r.countdown = some 0 →
    ∃ t q, exec (.interjectionCountdownExpiry x) s = .next t ∧ tblGet t.pco.rots x = some q
      ∧ (lowestDue r = none → r.resume = none → q = { r with position := .default, countdown := none })
      ∧ (∀ m d, lowestDue r = none → r.resume = some (m, d) →
          q = { r with position := .step m, countdown := some d, resume := none })
      ∧ (∀ k, lowestDue r = some k → q.resume = r.resume ∧ q.loops = r.loops ∧ q.due = r.due.set k false ∧ ShownAfresh s r q k)
      ∧ (∀ y, y ≠ x → tblGet t.pco.rots y = tblGet s.pco.rots y)
      ∧ (∀ st, tblGet s.sms.stations x = some st → desiredPage t.pco x = some (candidate t x st).page)
      ∧ { t with pco := s.pco, xu := s.xu } = s

/-- The completion of a solve (R26, R38, R39, R83, R92): the SOLVING slot takes the vector of the graph as it stands (the
model's reading, log 28), at the current epoch, and is READY; every other slot keeps its pair, its vector with its epoch and
its holders. A MUSTER slot's solve computes the effective-station map afresh, a NORMAL one leaves the Muster Controller
alone. Every station that drew the pair shows its page as the part now stands. The solver's selection (R36): none while a
slot is SOLVING or none is QUEUED, else the QUEUED slot of lowest index, MUSTER slots before NORMAL ones. The service of
claims in their order (R30, R32, R34): a claim is held on the slot that holds its pair, else takes the EMPTY slot of lowest
index, which becomes QUEUED without a vector, else is left waiting; how an event uses it is `ClaimsServed`, in the
statements of calls, minute events, the return to STANDBY and commits. -/
def Obligations.SolveCompletes : Prop :=
  (∀ (k : Nat) (sl : Slot) (s : State), s.phase = .operating → s.rsv.slots[k]? = some sl → sl.state = .solving →
    ∃ t, exec .solveComplete s = .next t
      ∧ t.rsv.slots[k]? = some { sl with state := .ready, vector := some (solve s.sms sl.pair), vectorEpoch := s.sms.epoch }
      ∧ t.rsv.slots.map Slot.holders = s.rsv.slots.map Slot.holders
      ∧ (∀ (j : Nat) (a b : Slot), s.rsv.slots[j]? = some a → t.rsv.slots[j]? = some b → a.state ≠ .solving →
          b.pair = a.pair ∧ b.vector = a.vector ∧ b.vectorEpoch = a.vectorEpoch
            ∧ (b.state = a.state ∨ a.state = .queued ∧ b.state = .solving))
      ∧ t.rsv.waiting = s.rsv.waiting
      ∧ ((∀ (j : Nat) (a : Slot), s.rsv.slots[j]? = some a → a.state = .solving → j = k) →
          (sl.pair.regime = .normal → t.msc = s.msc)
          ∧ (sl.pair.regime = .muster → s.msc.state ≠ .standby →
              t.msc = { s.msc with map := some (freshMap s.sms t.rsv.slots) })
          ∧ ∀ x st, tblGet s.sms.stations x = some st → sl.pair ∈ (pageRec s.pco x).draws →
              desiredPage t.pco x = some (candidate t x st).page)
      ∧ { t with rsv := s.rsv, msc := s.msc, pco := s.pco, xu := s.xu } = s)
  ∧ (∀ slots : List Slot,
      ((∃ sl ∈ slots, sl.state = .solving) → solverSelect slots = slots)
      ∧ ((∀ sl ∈ slots, sl.state ≠ .queued) → solverSelect slots = slots)
      ∧ ∀ (k : Nat) (sl : Slot), (∀ a ∈ slots, a.state ≠ .solving) → slots[k]? = some sl → sl.state = .queued →
          (∀ (j : Nat) (a : Slot), slots[j]? = some a → a.state = .queued →
            (a.pair.regime = sl.pair.regime → k ≤ j) ∧ (a.pair.regime = .muster → sl.pair.regime = .muster)) →
          solverSelect slots = slots.set k { sl with state := .solving })
  ∧ (∀ slots : List Slot, serveClaims [] slots = (slots, []))
  ∧ ∀ (c : Claim) (rest : List Claim) (slots : List Slot),
      (∀ (k : Nat) (sl : Slot), slots[k]? = some sl → sl.state ≠ .empty → sl.pair = c.pair →
          (∀ (j : Nat) (a : Slot), j < k → slots[j]? = some a → a.state = .empty ∨ a.pair ≠ c.pair) →
          serveClaims (c :: rest) slots = serveClaims rest (slots.set k { sl with holders := sl.holders ++ [c.who] }))
      ∧ ((∀ sl ∈ slots, sl.state = .empty ∨ sl.pair ≠ c.pair) →
          (∀ (k : Nat) (sl : Slot), slots[k]? = some sl → sl.state = .empty →
            (∀ (j : Nat) (a : Slot), j < k → slots[j]? = some a → a.state ≠ .empty) →
            serveClaims (c :: rest) slots = serveClaims rest (slots.set k
              { state := .queued, pair := c.pair, holders := [c.who], vector := none, vectorEpoch := 0 }))
          ∧ ((∀ sl ∈ slots, sl.state ≠ .empty) →
              (serveClaims (c :: rest) slots).1 = (serveClaims rest slots).1
                ∧ (serveClaims (c :: rest) slots).2 = c :: (serveClaims rest slots).2))

/-- What a solve yields (R21, R22, R23), for edges whose ends are node indices: the target has distance 0 and no next hop;
every other node's distance is the least saturated cost of a way to the target over walkable traversals, and UNREACHABLE
when there is none; its next hop is the lowest-index edge whose traversal leads to a nearer node at exactly that distance,
and NONE when no edge does. That the Edge table is in its canonical form (`TablesCanonical`) and that the ends are node
indices (`RecordsInRange`) are invariants of the model. -/
def Obligations.SolverResult : Prop :=
  ∀ (m : SmsState) (p : Pair) (dist : Nat → Nat), tblSorted m.edges = true →
    (∀ e g, tblGet m.edges e = some g → g.nodeA < 1024 ∧ g.nodeB < 1024) →
    (∀ u, dist u = (hopOf (solve m p) u).dist) →
    dist p.node = 0 ∧ (hopOf (solve m p) p.node).next = none
      ∧ (∀ u way, Way m p.regime u way p.node → dist u ≤ wayCost m p.regime u way)
      ∧ (∀ u, (∃ way, Way m p.regime u way p.node) →
          ∃ way, Way m p.regime u way p.node ∧ wayCost m p.regime u way = dist u)
      ∧ (∀ u, (∀ way, ¬Way m p.regime u way p.node) → dist u = 65535)
      ∧ ∀ u, u ≠ p.node → ∀ e,
          (hopOf (solve m p) u).next = some e ↔
            NextHop m p.regime dist u e ∧ ∀ f, NextHop m p.regime dist u f → e ≤ f

/-- The cost of a walkable traversal (R20): held length times weight over 4, rounded up, and the regime's lift fixed cost
for a LIFT; from 1 to 17,000 with Settings and length in their ranges, which `RecordsInRange` keeps; a STAIR takes the up
weight one way and the down weight the other. -/
def Obligations.TraversalCosts : Prop :=
  ∀ (m : SmsState) (r : Regime) (e : EdgeRec) (u v : Nat), traversalBarred m r e u v = false →
    (∃ c, traversalCost m r e u = c + (if e.kind = .lift then (regimeWeights m.settings r).liftFixed else 0)
      ∧ e.length * kindWeight (regimeWeights m.settings r) (traversalKind e u) ≤ 4 * c
      ∧ 4 * c < e.length * kindWeight (regimeWeights m.settings r) (traversalKind e u) + 4)
    ∧ (1 ≤ e.length → e.length ≤ 4000 → (∀ k, kindWeight (regimeWeights m.settings r) k ≤ 15) →
        (regimeWeights m.settings r).liftFixed ≤ 2000 → 1 ≤ traversalCost m r e u ∧ traversalCost m r e u ≤ 17000)
    ∧ (e.kind = .corridor → traversalKind e u = .corridor) ∧ (e.kind = .exterior → traversalKind e u = .exterior)
    ∧ (e.kind = .lift → traversalKind e u = .lift)
    ∧ (e.kind = .stair → e.nodeA ≠ e.nodeB →
        (e.rise = .aUp → (u = e.nodeA → traversalKind e u = .stairUp) ∧ (u = e.nodeB → traversalKind e u = .stairDown))
        ∧ (e.rise = .aDown → (u = e.nodeA → traversalKind e u = .stairDown) ∧ (u = e.nodeB → traversalKind e u = .stairUp)))

/-- The arrow of a station toward a pair, the first of the six cases of R40 that applies, with the minutes of R42. Case 4
asks whether the traversal of the next hop leaving the node is barred now, an edge that is empty or has moved away
counting as barred. -/
def Obligations.ArrowSixCases : Prop :=
  ∀ (m : SmsState) (slots : List Slot) (st : StationRec) (p : Pair),
    ((∀ sl, slotOf slots p = some sl → sl.vector = none) →
      arrowFor m slots st p = { arrow := .pending, minutes := none, unlisted := false })
    ∧ (∀ (sl : Slot) (v : RouteVec), slotOf slots p = some sl → sl.vector = some v →
        ((hopOf v st.node).dist = 65535 ∨ ((hopOf v st.node).next = none ∧ 0 < (hopOf v st.node).dist) →
          arrowFor m slots st p = { arrow := .noRoute, minutes := none, unlisted := false })
        ∧ ((hopOf v st.node).dist = 0 → arrowFor m slots st p = { arrow := .here, minutes := some 0, unlisted := false })
        ∧ ∀ d e, hopOf v st.node = { dist := d, next := some e } → d ≠ 0 → d ≠ 65535 →
            ((sl.state = .queued ∨ sl.state = .solving) → hopBarredNow m p.regime e st.node = true →
              arrowFor m slots st p = { arrow := .withheld, minutes := none, unlisted := false })
            ∧ (¬((sl.state = .queued ∨ sl.state = .solving) ∧ hopBarredNow m p.regime e st.node = true) →
              (∀ a, (e, a) ∈ st.exits → (∀ b, (e, b) ∈ st.exits → b = a) →
                arrowFor m slots st p =
                  { arrow := a, unlisted := false
                    minutes := some (if 65534 ≤ d then 99
                      else min 99 ((d + m.settings.walkRate - 1) / m.settings.walkRate)) })
              ∧ ((∀ a, (e, a) ∉ st.exits) → arrowFor m slots st p = { arrow := .none, minutes := none, unlisted := true })))
    ∧ ∀ (r : Regime) (e n : Nat),
        (tblGet m.edges e = none → hopBarredNow m r e n = true)
        ∧ ∀ g, tblGet m.edges e = some g → g.nodeA ≠ g.nodeB →
            (n = g.nodeA → hopBarredNow m r e n = traversalBarred m r g n g.nodeB)
            ∧ (n = g.nodeB → hopBarredNow m r e n = traversalBarred m r g n g.nodeA)
            ∧ (n ≠ g.nodeA → n ≠ g.nodeB → hopBarredNow m r e n = true)

/-! ## Pages -/

/-- Taking a notice (R42, R91, R92, R96, R97): nothing but composition records and the UNLISTED_EXIT fault moves; a station
that is not marked or not configured keeps its record; a marked one takes its candidate's page, draws and sources, its
serial the same where the page is and one higher, from 65535 to 1, where it differs. The candidate's kind is the first of
R96 that applies, and its muster serial the current one on a muster page and 0 on any other. -/
def Obligations.CompositionTaken : Prop :=
  (∀ (marks : List Nat) (s : State), ∃ t, composeMarked marks s = t
    ∧ { t with pco := { t.pco with pages := s.pco.pages }, xu := s.xu } = s
    ∧ (∀ x, x ∉ marks ∨ tblGet s.sms.stations x = none → pageRec t.pco x = pageRec s.pco x)
    ∧ (∀ x st c, x ∈ marks → tblGet s.sms.stations x = some st → c = candidate s x st →
        (pageRec t.pco x).page = some c.page ∧ (pageRec t.pco x).draws = c.draws ∧ (pageRec t.pco x).sources = c.sources
        ∧ ((pageRec s.pco x).page = some c.page → (pageRec t.pco x).serial = (pageRec s.pco x).serial)
        ∧ ((pageRec s.pco x).page ≠ some c.page →
            (pageRec t.pco x).serial =
              if (pageRec s.pco x).serial = 65535#16 then 1#16 else (pageRec s.pco x).serial + 1))
    ∧ (∀ x st, marks = [x] → tblGet s.sms.stations x = some st →
        t.xu.counters =
          if (candidate s x st).unlisted then
            { s.xu.counters with unlistedExit := min 65535 (s.xu.counters.unlistedExit + 1) }
          else s.xu.counters))
  ∧ ∀ (s : State) (x : Nat) (st : StationRec) (page : Page), page = (candidate s x st).page →
      (¬Lit s st → page = { body := .blank, musterSerial := 0 })
      ∧ (Lit s st → s.msc.state ≠ .standby → page.musterSerial = s.msc.serial ∧ isMusterPage s.msc.serial page = true
          ∧ bodyKind page.body = if st.kind = .cabin then .doorMuster else .screenMuster)
      ∧ (Lit s st → s.msc.state = .standby → page.musterSerial = 0
          ∧ (st.kind = .cabin → bodyKind page.body = .doorStandard)
          ∧ (st.kind ≠ .cabin →
              (∀ i n, NamesNotice s x i → tblGet s.pco.notices i = some n → bodyKind page.body = .notice)
              ∧ (st.kind = .waypoint → OnLandmarks s x → bodyKind page.body = .wayLandmarks)
              ∧ (OnProgramme s x st →
                  bodyKind page.body = if st.kind = .waypoint then .wayProgramme else .lobbyProgramme)))

/-- The bodies of the pages, with their draw and source sets (R93, R98 to R107): each field from the record or list it comes
from, every arrow that of the station toward the pair drawn, and case 6 of R40 met where one of the drawn arrows meets it. -/
def Obligations.PageBodies : Prop :=
  ∀ (s : State) (x : Nat) (st : StationRec) (c : Candidate), c = candidate s x st →
    (c.unlisted = true ↔ ∃ p ∈ c.draws, (arrowFor s.sms s.rsv.slots st p).unlisted = true)
    ∧ (¬Lit s st → c.draws = [] ∧ c.sources = [])
    ∧ (Lit s st → s.msc.state = .standby →
      (st.kind = .cabin → c.draws = [] ∧ c.sources = [.musterStation st.assigned]
        ∧ c.page.body =
            .doorStandard st.label st.assigned (((tblGet s.sms.musters st.assigned).map MusterRec.label).getD []))
      ∧ (∀ list, list = tblGetD s.pgu.lists x [] → OnProgramme s x st →
        (st.kind = .waypoint →
          c.sources = [.list]
          ∧ c.draws = list.filterMap (fun l => l.route.map fun v => { node := v, regime := .normal })
          ∧ c.page.body = .wayProgramme (list.map fun l =>
              { title := l.title, venueLabel := l.venueLabel, deck := l.deck, startTime := l.startTime
                mark := markCode l.mark, countdown := l.countdown, cancelled := l.cancelled, icon := categoryCode l.icon
                route := l.route.map fun v =>
                  ((arrowFor s.sms s.rsv.slots st { node := v, regime := .normal }).arrow,
                    (arrowFor s.sms s.rsv.slots st { node := v, regime := .normal }).minutes) }))
        ∧ (st.kind = .lobby →
          c.draws = [] ∧ c.sources = [.list, .time]
          ∧ c.page.body = .lobbyProgramme (s.pgu.lastTime.getD (0, 0)).1 (s.pgu.lastTime.getD (0, 0)).2
              (list.map fun l =>
                { title := l.title.take 11, venueLabel := l.venueLabel.take 6, deck := l.deck, startTime := l.startTime
                  mark := markCode l.mark, countdown := l.countdown, cancelled := l.cancelled
                  icon := categoryCode l.icon })))
      ∧ (∀ lands, lands = st.landmarks.filterMap (tblGet s.sms.landmarks) → st.kind = .waypoint → OnLandmarks s x →
        c.draws = lands.map (fun r => { node := r.node, regime := .normal })
        ∧ c.sources = st.landmarks.map Source.landmark ++ lands.map (fun r => Source.node r.node)
        ∧ c.page.body = .wayLandmarks (lands.map fun r =>
            { label := r.label, deck := deckAt s.sms r.node
              arrow := (arrowFor s.sms s.rsv.slots st { node := r.node, regime := .normal }).arrow
              minutes := (arrowFor s.sms s.rsv.slots st { node := r.node, regime := .normal }).minutes }))
      ∧ (∀ i n, st.kind ≠ .cabin → NamesNotice s x i → tblGet s.pco.notices i = some n →
        c.sources = [.notice i]
        ∧ (n.dest = none → c.draws = [] ∧ c.page.body = .notice n.lines none)
        ∧ ∀ d, n.dest = some d →
            c.draws = [{ node := d, regime := .normal }]
            ∧ c.page.body = .notice n.lines
                (some ((arrowFor s.sms s.rsv.slots st { node := d, regime := .normal }).arrow,
                  (arrowFor s.sms s.rsv.slots st { node := d, regime := .normal }).minutes))))
    ∧ (Lit s st → s.msc.state ≠ .standby →
      (st.kind = .cabin →
        (∀ k r redirected, mapAt s.msc x = some (.cabin (some k) redirected) → tblGet s.sms.musters k = some r →
          c.draws = [{ node := r.node, regime := .muster }] ∧ c.sources = [.musterStation k]
          ∧ c.page.body = .doorMuster st.label
              (some (k, r.label, (arrowFor s.sms s.rsv.slots st { node := r.node, regime := .muster }).arrow,
                (arrowFor s.sms s.rsv.slots st { node := r.node, regime := .muster }).minutes))
              (decide (s.msc.kind = .drill)) redirected)
        ∧ ((∀ k redirected, mapAt s.msc x ≠ some (.cabin (some k) redirected)) →
          c.draws = [] ∧ c.sources = []
          ∧ c.page.body = .doorMuster st.label none (decide (s.msc.kind = .drill)) false))
      ∧ (st.kind ≠ .cabin →
        (∀ shown lines, mapAt s.msc x = some (.screen shown) →
          lines = shown.filterMap (fun k => (tblGet s.sms.musters k).map fun r => (k, r)) →
          c.draws = lines.map (fun e => { node := e.2.node, regime := .muster })
          ∧ c.sources = shown.map Source.musterStation ++ lines.map (fun e => Source.node e.2.node)
          ∧ c.page.body = .screenMuster
              (lines.map fun e =>
                { index := e.1, label := e.2.label, deck := deckAt s.sms e.2.node
                  arrow := (arrowFor s.sms s.rsv.slots st { node := e.2.node, regime := .muster }).arrow
                  minutes := (arrowFor s.sms s.rsv.slots st { node := e.2.node, regime := .muster }).minutes })
              (decide (s.msc.kind = .drill)))
        ∧ ((∀ shown, mapAt s.msc x ≠ some (.screen shown)) →
          c.draws = [] ∧ c.sources = [] ∧ c.page.body = .screenMuster [] (decide (s.msc.kind = .drill)))))

/-! ## Lines -/

/-- A turn (R139, R140, R141): a muster-waiting station goes first, the lowest address above the muster position or else the
lowest of all; otherwise the cycle's next station; a cycle that has none left ends, and the next one begins at once; and a
new cycle that includes none is 5 ms of silence, in which every turn is held back, one of a station that becomes
muster-waiting as well (the model's choice, log 54). The four conditions of a muster-waiting station (R139), the stations of
a line (R9), and the station a cycle goes to: the lowest address above its position among those not shed, a LOST one only in
a cycle whose count is 0 (R140). The premise `TablesCanonical` is an invariant of the model. -/
def Obligations.TurnOrder : Prop :=
  (∀ (n : Nat) (s : State), s.phase = .operating → TablesCanonical s → n < s.lcs.lines.length →
    turnReady (lineAt s.lcs n) = true →
    ∃ t, exec (.turn n) s = .next t ∧ t.lcs.recs = s.lcs.recs ∧ { t with lcs := s.lcs, xu := s.xu } = s
      ∧ (∀ k, k ≠ n → lineAt t.lcs k = lineAt s.lcs k)
      ∧ ((∃ y ∈ lineStations s n, musterWaiting s y = true) →
          ∃ x ∈ lineStations s n, musterWaiting s x = true
            ∧ lineAt t.lcs n = { lineAt s.lcs n with musterPos := addressOf x, txn := some (turnTxn s x) }
            ∧ (∀ y ∈ lineStations s n, musterWaiting s y = true → (lineAt s.lcs n).musterPos < addressOf y →
                (lineAt s.lcs n).musterPos < addressOf x ∧ addressOf x ≤ addressOf y)
            ∧ ((∀ y ∈ lineStations s n, musterWaiting s y = true → addressOf y ≤ (lineAt s.lcs n).musterPos) →
                ∀ y ∈ lineStations s n, musterWaiting s y = true → addressOf x ≤ addressOf y))
      ∧ ((∀ y ∈ lineStations s n, musterWaiting s y = false) →
          (∀ x, cycleNext s n (lineAt s.lcs n).cycleCount (lineAt s.lcs n).cyclePos = some x →
            lineAt t.lcs n = { lineAt s.lcs n with cyclePos := addressOf x, txn := some (turnTxn s x) })
          ∧ (cycleNext s n (lineAt s.lcs n).cycleCount (lineAt s.lcs n).cyclePos = none →
              (lineAt s.lcs n).cyclePos = 0 →
              lineAt t.lcs n = { lineAt s.lcs n with txn := none, silence := some 125000 })
          ∧ (cycleNext s n (lineAt s.lcs n).cycleCount (lineAt s.lcs n).cyclePos = none →
              (lineAt s.lcs n).cyclePos ≠ 0 →
              (lineAt t.lcs n).cycleCount = ((lineAt s.lcs n).cycleCount + 1) % 8
                ∧ (∀ x, cycleNext s n (((lineAt s.lcs n).cycleCount + 1) % 8) 0 = some x →
                    (lineAt t.lcs n).cyclePos = addressOf x ∧ (lineAt t.lcs n).txn = some (turnTxn s x))
                ∧ (cycleNext s n (((lineAt s.lcs n).cycleCount + 1) % 8) 0 = none →
                    (lineAt t.lcs n).cyclePos = 0 ∧ (lineAt t.lcs n).txn = none
                      ∧ (lineAt t.lcs n).silence = some 125000))))
  ∧ (∀ (s : State) (x : Nat), musterWaiting s x = true ↔
      tblHas s.sms.stations x = true ∧ lineStatus s x ≠ .lost ∧ (lineRec s.lcs x).shed = false
        ∧ (∃ p, desiredPage s.pco x = some p ∧ (bodyKind p.body = .doorMuster ∨ bodyKind p.body = .screenMuster)
            ∧ p.musterSerial = s.msc.serial)
        ∧ desiredSerial s.pco x ≠ (lineRec s.lcs x).confSerial)
  ∧ (∀ (s : State) (n x : Nat), x ∈ lineStations s n ↔ tblHas s.sms.stations x = true ∧ x / 62 = n)
  ∧ (∀ x, addressOf x = x % 62 + 1)
  ∧ ∀ (s : State) (n count position : Nat), tblSorted s.sms.stations = true →
      (∀ x, cycleNext s n count position = some x ↔
        (x ∈ lineStations s n ∧ (lineRec s.lcs x).shed = false ∧ (lineStatus s x = .lost → count = 0)
            ∧ position < addressOf x)
          ∧ ∀ y ∈ lineStations s n, (lineRec s.lcs y).shed = false → (lineStatus s y = .lost → count = 0) →
              position < addressOf y → addressOf x ≤ addressOf y)
      ∧ (cycleNext s n count position = none ↔
          ∀ y ∈ lineStations s n, (lineRec s.lcs y).shed = false → (lineStatus s y = .lost → count = 0) →
            addressOf y ≤ position)

/-- What a turn carries (R141, R149): a page transfer of the desired page exactly when all conditions hold, a CALL
otherwise; FULL at a cabin's muster page and when the full count calls for it, never at a screen. -/
def Obligations.TurnCarries : Prop :=
  ∀ (s : State) (x : Nat) (st : StationRec), tblGet s.sms.stations x = some st →
    ((turnTxn s x).transfer.isSome = true ↔
      ∃ page, desiredPage s.pco x = some page ∧ desiredSerial s.pco x ≠ (lineRec s.lcs x).confSerial
        ∧ (∀ w, (lineRec s.lcs x).waiting = some w → desiredSerial s.pco x ≠ w.serial)
        ∧ lineStatus s x ≠ .lost
        ∧ (st.kind = .cabin → ∀ d, (lineRec s.lcs x).door = some d →
            isMusterPage s.msc.serial page = true ∨ d.refresh = none ∨ d.afterMuster = true))
    ∧ ∀ p k, (turnTxn s x).transfer = some (p, k) →
        k = 0 ∧ desiredPage s.pco x = some p.page ∧ p.serial = desiredSerial s.pco x
          ∧ (st.kind ≠ .cabin → p.full = false)
          ∧ (∀ d, st.kind = .cabin → (lineRec s.lcs x).door = some d →
              (p.full = true ↔
                isMusterPage s.msc.serial p.page = true ∨ s.sms.settings.fullRefreshPeriod - 1 ≤ d.fullCount))

/-- A STATE from a station whose baseline was taken and which is not FRESH (R128, R129, R134, R137): the flags, the
confirmed page by the first case that applies, the waiting record, and the station heard and ONLINE. The baseline STATE and
a FRESH STATE (R95, R135, R136, R150): the report is believed only for the page just sent, or not at all; a cabin's counters
become its last counters and no press is counted; a FRESH station is composed. The tally is recounted with the record so
changed: in CALLED with the tally complete the muster state becomes MUSTERING with kind and serial kept, the first event of
R72, and otherwise the Muster Controller stands as it was (R72, R84, R85). The outcome stands in the record also of a
station that was emptied or became shed with its transaction in flight (the model's reading, log 34). Every other station's
line record stays. -/
def Obligations.StateAnswers : Prop :=
  (∀ (n x : Nat) (tx : Txn) (flags service assist : Byte) (serial : Word16) (s : State), s.phase = .operating →
    n < s.lcs.lines.length →
    (lineAt s.lcs n).txn = some tx → tx.station = x → tx.transfer = none → Answerable tx →
    (lineRec s.lcs x).baseline = true → flags.getLsbD 1 = false →
    ∃ t, exec (.stateAnswer n flags serial service assist) s = .next t
      ∧ (lineRec t.lcs x).busy = flags.getLsbD 0 ∧ (lineRec t.lcs x).dnd = flags.getLsbD 2
      ∧ (lineRec t.lcs x).fault = flags.getLsbD 3
      ∧ HeardFrom s t x ∧ (lineRec t.lcs x).errors = (lineRec s.lcs x).errors
      ∧ (serial = (lineRec s.lcs x).confSerial → confirmedPage t x = confirmedPage s x)
      ∧ (∀ w, serial ≠ (lineRec s.lcs x).confSerial → (lineRec s.lcs x).waiting = some w → serial = w.serial →
          confirmedPage t x = (w.serial, some w.kind, w.musterSerial) ∧ (lineRec t.lcs x).waiting = none)
      ∧ (serial ≠ (lineRec s.lcs x).confSerial → (∀ w, (lineRec s.lcs x).waiting = some w → serial ≠ w.serial) →
          confirmedPage t x = (serial, none, 0))
      ∧ (∀ w, (lineRec s.lcs x).waiting = some w → serial ≠ w.serial →
          (lineRec t.lcs x).waiting = if flags.getLsbD 0 = true then some w else none)
      ∧ (∀ y, y ≠ x → lineRec t.lcs y = lineRec s.lcs y) ∧ RecountTaken s.msc s t
      ∧ (lineAt t.lcs n).txn = none ∧ (lineAt t.lcs n).idle = 750)
  ∧ (∀ (n x : Nat) (tx : Txn) (flags service assist : Byte) (serial : Word16) (s : State), s.phase = .operating →
    n < s.lcs.lines.length →
    (lineAt s.lcs n).txn = some tx → tx.station = x → tx.transfer = none → Answerable tx →
    (lineRec s.lcs x).baseline = false ∨ flags.getLsbD 1 = true →
    ∃ t, exec (.stateAnswer n flags serial service assist) s = .next t
      ∧ HeardFrom s t x ∧ (lineRec t.lcs x).baseline = true ∧ (lineRec t.lcs x).busy = flags.getLsbD 0
      ∧ (lineRec t.lcs x).dnd = flags.getLsbD 2 ∧ (lineRec t.lcs x).fault = flags.getLsbD 3
      ∧ (flags.getLsbD 1 = true → confirmedPage t x = (0, none, 0) ∧ (lineRec t.lcs x).waiting = none)
      ∧ (∀ w, flags.getLsbD 1 = false → (lineRec s.lcs x).waiting = some w → serial = w.serial →
          confirmedPage t x = (w.serial, some w.kind, w.musterSerial) ∧ (lineRec t.lcs x).waiting = none)
      ∧ (flags.getLsbD 1 = false → (∀ w, (lineRec s.lcs x).waiting = some w → serial ≠ w.serial) →
          confirmedPage t x = (0, none, 0))
      ∧ (∀ d, (lineRec s.lcs x).door = some d →
          (lineRec t.lcs x).door = some { d with lastService := service, lastAssist := assist })
      ∧ (∀ st, flags.getLsbD 1 = true → tblGet s.sms.stations x = some st →
          desiredPage t.pco x = some (candidate t x st).page)
      ∧ (∀ y, y ≠ x → lineRec t.lcs y = lineRec s.lcs y) ∧ RecountTaken s.msc s t ∧ (lineAt t.lcs n).txn = none)

/-- The presses of a STATE (R150, R151, R153, R154): each pending count rises by its increment mod 256 but not above 63, the
rest are lost presses, and a rise from 0 sets attention and brings about ATTENTION, unless it is a masked service request.
The acknowledge array (R152, R153, R154): a first pair synchronises with the pending counts kept; a later count is taken
when it is at most 63 behind the tally and as the tally otherwise, also one that lies behind the held count, so that pending
rises (the model's choice, log 42; a list of bytes that is too short reads as padded with 0, log 26); both pending counts at
0 clear attention, and a rise from 0 that is not masked sets it and brings about ATTENTION. -/
def Obligations.PressesAndAcks : Prop :=
  (∀ (n x : Nat) (tx : Txn) (d : DoorRec) (flags service assist : Byte) (serial : Word16) (s : State),
      s.phase = .operating → (lineAt s.lcs n).txn = some tx → tx.station = x → tx.transfer = none → Answerable tx →
      (lineRec s.lcs x).baseline = true → flags.getLsbD 1 = false → (lineRec s.lcs x).door = some d →
      pendingService d ≤ 63 → pendingAssist d ≤ 63 →
      ∃ t e, exec (.stateAnswer n flags serial service assist) s = .next t ∧ (lineRec t.lcs x).door = some e
        ∧ pendingService e = min 63 (pendingService d + (service - d.lastService).toNat)
        ∧ pendingAssist e = min 63 (pendingAssist d + (assist - d.lastAssist).toNat)
        ∧ e.lastService = service ∧ e.lastAssist = assist ∧ e.serviceAck = d.serviceAck ∧ e.assistAck = d.assistAck
        ∧ e.refresh = d.refresh ∧ e.fullCount = d.fullCount ∧ e.afterMuster = d.afterMuster
        ∧ (e.attention = true ↔ d.attention = true
            ∨ (s.msc.state = .standby ∧ pendingService d = 0 ∧ 0 < pendingService e)
            ∨ (pendingAssist d = 0 ∧ 0 < pendingAssist e))
        ∧ (s.msc.state = .standby ∧ pendingService d = 0 ∧ 0 < pendingService e
            ∨ pendingAssist d = 0 ∧ 0 < pendingAssist e → CauseTold 1 s t)
        ∧ ((pendingService d + (service - d.lastService).toNat - 63) + (pendingAssist d + (assist - d.lastAssist).toNat - 63)
              ≠ 0 →
            t.xu.counters.lostPresses =
              min 65535 (s.xu.counters.lostPresses
                + ((pendingService d + (service - d.lastService).toNat - 63)
                  + (pendingAssist d + (assist - d.lastAssist).toNat - 63)))))
  ∧ (∀ (bs : List Byte) (left : Nat) (s : State), s.phase = .operating → s.xu.survey = some (.acks true left) →
      ∃ t, exec (.ackArrayRead bs) s = .next t
        ∧ (∀ x d, tblHas s.sms.stations x = true → (lineRec s.lcs x).door = some d →
            ∃ e, (lineRec t.lcs x).door = some e ∧ e.synced = true
              ∧ (d.synced = false → e.serviceAck = byteAt bs (4 * x) ∧ e.assistAck = byteAt bs (4 * x + 1)
                  ∧ pendingService e = pendingService d ∧ pendingAssist e = pendingAssist d)
              ∧ (d.synced = true → e.serviceTally = d.serviceTally ∧ e.assistTally = d.assistTally
                  ∧ ((d.serviceTally - byteAt bs (4 * x)).toNat ≤ 63 → e.serviceAck = byteAt bs (4 * x))
                  ∧ (63 < (d.serviceTally - byteAt bs (4 * x)).toNat → pendingService e = 0)
                  ∧ ((d.assistTally - byteAt bs (4 * x + 1)).toNat ≤ 63 → e.assistAck = byteAt bs (4 * x + 1))
                  ∧ (63 < (d.assistTally - byteAt bs (4 * x + 1)).toNat → pendingAssist e = 0))
              ∧ (e.attention = true ↔ ¬(pendingService e = 0 ∧ pendingAssist e = 0)
                  ∧ (d.attention = true
                    ∨ s.msc.state = .standby ∧ pendingService d = 0 ∧ 0 < pendingService e
                    ∨ pendingAssist d = 0 ∧ 0 < pendingAssist e))
              ∧ (s.msc.state = .standby ∧ pendingService d = 0 ∧ 0 < pendingService e
                  ∨ pendingAssist d = 0 ∧ 0 < pendingAssist e → CauseTold 1 s t)
              ∧ e.refresh = d.refresh ∧ e.lastService = d.lastService ∧ e.lastAssist = d.lastAssist)
        ∧ (∀ x, tblHas s.sms.stations x = false → lineRec t.lcs x = lineRec s.lcs x)
        ∧ (∀ x, confirmedPage t x = confirmedPage s x) ∧ t.lcs.lines = s.lcs.lines
        ∧ { t with lcs := s.lcs, xu := s.xu } = s)

/-- TAKEN to the frame of a page transfer (R130, R131, R132, R133, R137, R146, R147, R149): `k` is 0 for the head, whose
TAKEN loads the refresh countdown. After the last block the waiting record is made; before any other the transfer is
abandoned where the station is no longer configured, or its desired page is a muster page of the current serial and not the
page being sent; else the next block goes out. Each TAKEN makes the station heard with misses 0, so that a DOUBTFUL or LOST
one is ONLINE, also in the middle of a transfer (the model's reading of two sentences of R137, log 36), and is recorded also
at a station that was emptied or became shed with its transfer in flight (the model's reading, log 34). A change of status
is followed by the recount of R84 and R85. That the test for the abandonment comes before the 30 µs of idle line is the
model's choice (log 56). -/
def Obligations.TakenAnswers : Prop :=
  ∀ (n x k : Nat) (tx : Txn) (p : SentPage) (s : State), s.phase = .operating → n < s.lcs.lines.length →
    (lineAt s.lcs n).txn = some tx → tx.station = x → tx.transfer = some (p, k) → Answerable tx →
    ∃ t, exec (if k = 0 then .takenToPageHead n else .takenToPageBlock n) s = .next t
      ∧ HeardFrom s t x ∧ (lineRec t.lcs x).errors = (lineRec s.lcs x).errors ∧ confirmedPage t x = confirmedPage s x
      ∧ (blockCount p.page.body ≤ k →
          (lineRec t.lcs x).waiting =
            some { serial := p.serial, kind := bodyKind p.page.body, musterSerial := p.page.musterSerial }
          ∧ (lineAt t.lcs n).txn = none)
      ∧ (abandons s x p = true ↔ tblHas s.sms.stations x = false
          ∨ (∃ g, desiredPage s.pco x = some g
              ∧ (bodyKind g.body = .doorMuster ∨ bodyKind g.body = .screenMuster) ∧ g.musterSerial = s.msc.serial)
            ∧ desiredSerial s.pco x ≠ p.serial)
      ∧ (k < blockCount p.page.body → abandons s x p = true →
          (lineRec t.lcs x).waiting = (lineRec s.lcs x).waiting ∧ (lineAt t.lcs n).txn = none)
      ∧ (k < blockCount p.page.body → abandons s x p = false →
          (lineRec t.lcs x).waiting = (lineRec s.lcs x).waiting
            ∧ ((lineAt t.lcs n).txn.map fun u => (u.station, u.transfer)) = some (x, some (p, k + 1)))
      ∧ (∀ d, (lineRec s.lcs x).door = some d → ∃ e, (lineRec t.lcs x).door = some e
          ∧ (k = 0 → e.refresh = some (s.sms.settings.refreshInterval * 25000000)
              ∧ (e.afterMuster = true ↔ p.page.musterSerial ≠ 0))
          ∧ (k ≠ 0 → e.refresh = d.refresh ∧ e.afterMuster = d.afterMuster)
          ∧ (e.serviceTally = d.serviceTally ∧ e.assistTally = d.assistTally ∧ e.attention = d.attention)
          ∧ (blockCount p.page.body ≤ k → e.fullCount = if p.full then 0 else min 31 (d.fullCount + 1))
          ∧ (k < blockCount p.page.body → e.fullCount = d.fullCount))
      ∧ RecountTaken s.msc s t ∧ (∀ y, y ≠ x → lineRec t.lcs y = lineRec s.lcs y)

/-- HELD_OFF to a page frame, and a frame that draws no valid answer (R126, R128, R130, R131, R137): HELD_OFF makes the
station heard and ONLINE, the others are one miss; a block's failure counts TRANSFER_FAIL and an error of the station, and a
discarded answer, of a bad form or of a kind not allowed to its frame, counts LINE_CRC (that of a kind not allowed by the
model's reading, log 33). No waiting record is made and the confirmed page stays. The line is idle for 30 µs before its next
frame, but after a discarded answer that ended at an idle gap (R124; which of the two it was is a free value, log 38). A
change of status is followed by the recount of R84 and R85, which in CALLED ends CALLED when the tally is complete (R72).
Both counts raise FAULT, with the report write that follows (R185). The outcome stands in the record also of a station that
was emptied or became shed with its transaction in flight (the model's reading, log 34). An answer that begins before the
reply window or after it is none (log 2). -/
def Obligations.HeldOffAndMissed : Prop :=
  (∀ (c : Instr) (n x : Nat) (tx : Txn) (s : State), s.phase = .operating → n < s.lcs.lines.length →
    (lineAt s.lcs n).txn = some tx → tx.station = x →
    (c = .heldOff n ∧ Answerable tx ∧ tx.transfer ≠ none
      ∨ (c = .answerDiscarded n ∨ WrongKind c n tx) ∧ Answerable tx
      ∨ c = .replyWindowTimeout n ∧ tx.left = 0 ∧ tx.coming = none) →
    ∃ t, exec c s = .next t ∧ (lineAt t.lcs n).txn = none
      ∧ ((lineAt t.lcs n).idle = 750 ∨ c = .answerDiscarded n ∧ (lineAt t.lcs n).idle = 0) ∧ confirmedPage t x = confirmedPage s x
      ∧ (lineRec t.lcs x).waiting = (lineRec s.lcs x).waiting ∧ (lineRec t.lcs x).door = (lineRec s.lcs x).door
      ∧ (c = .heldOff n ∧ tx.transfer ≠ none →
          HeardFrom s t x ∧ t.xu.counters.lineCrc = s.xu.counters.lineCrc)
      ∧ (¬(c = .heldOff n ∧ tx.transfer ≠ none) →
          (lineRec t.lcs x).misses = min 255 ((lineRec s.lcs x).misses + 1)
            ∧ (lineRec t.lcs x).heard = (lineRec s.lcs x).heard
            ∧ (lineRec t.lcs x).lastHeard = (lineRec s.lcs x).lastHeard)
      ∧ (c = .answerDiscarded n ∨ WrongKind c n tx →
          t.xu.counters.lineCrc = min 65535 (s.xu.counters.lineCrc + 1) ∧ CauseTold 4 s t)
      ∧ (c = .replyWindowTimeout n → t.xu.counters.lineCrc = s.xu.counters.lineCrc)
      ∧ (∀ p k, tx.transfer = some (p, k + 1) →
          (lineRec t.lcs x).errors = min 255 ((lineRec s.lcs x).errors + 1)
            ∧ t.xu.counters.transferFail = min 65535 (s.xu.counters.transferFail + 1) ∧ CauseTold 4 s t)
      ∧ ((∀ p k, tx.transfer ≠ some (p, k + 1)) →
          (lineRec t.lcs x).errors = (lineRec s.lcs x).errors
            ∧ t.xu.counters.transferFail = s.xu.counters.transferFail)
      ∧ RecountTaken s.msc s t ∧ (∀ y, y ≠ x → lineRec t.lcs y = lineRec s.lcs y))
  ∧ ∀ (n : Nat) (tx : Txn) (flags service assist : Byte) (serial : Word16) (s : State), s.phase = .operating →
    (lineAt s.lcs n).txn = some tx → ¬Answerable tx →
    exec (.stateAnswer n flags serial service assist) s = .next s ∧ exec (.takenToPageHead n) s = .next s
      ∧ exec (.takenToPageBlock n) s = .next s ∧ exec (.heldOff n) s = .next s ∧ exec (.answerDiscarded n) s = .next s

/-- Shedding (R142), tested at a confirmation, at a change of status and at the beginning of the regime: a station that is not
essential becomes shed under the regime when its confirmed serial is its desired serial and its desired page BLANK, or when
it is LOST; a station that was shed stays so, and no other becomes it. -/
def Obligations.ShedUnderReserve : Prop :=
  (∀ (n x : Nat) (tx : Txn) (st : StationRec) (flags service assist : Byte) (serial : Word16) (s : State),
    s.phase = .operating → n < s.lcs.lines.length → (lineAt s.lcs n).txn = some tx → tx.station = x →
    tx.transfer = none → Answerable tx → tblGet s.sms.stations x = some st → 1 ≤ s.sms.settings.missLimit →
    ∃ t, exec (.stateAnswer n flags serial service assist) s = .next t
      ∧ ((lineRec t.lcs x).shed = true ↔ (lineRec s.lcs x).shed = true ∨ ShedsBlank s x st (lineRec t.lcs x).confSerial))
  ∧ (∀ (n x : Nat) (tx : Txn) (st : StationRec) (s : State),
    s.phase = .operating → n < s.lcs.lines.length → (lineAt s.lcs n).txn = some tx → tx.station = x →
    tx.left = 0 → tx.coming = none → tblGet s.sms.stations x = some st →
    ∃ t, exec (.replyWindowTimeout n) s = .next t
      ∧ ((lineRec t.lcs x).shed = true ↔
          (lineRec s.lcs x).shed = true ∨ ShedsBlank s x st (lineRec s.lcs x).confSerial
          ∨ s.msc.reserve = true ∧ st.essential = false
              ∧ s.sms.settings.missLimit ≤ min 255 ((lineRec s.lcs x).misses + 1)))
  ∧ ∀ (x : Nat) (st : StationRec) (s : State), s.phase = .operating → AlarmAnswered s → PinAt true s.msc.reservePin →
    s.msc.reserveLevel = some false → tblGet s.sms.stations x = some st → tblHas s.lcs.recs x = true →
    ∃ t, exec .reserveQualifiedRise s = .next t
      ∧ ((lineRec t.lcs x).shed = true ↔ (lineRec s.lcs x).shed = true ∨ st.essential = false
          ∧ (lineStatus s x = .lost ∨ (lineRec s.lcs x).confSerial = desiredSerial t.pco x))

/-- What stands on a line (R124, R125, R127, R196): the layout of every frame with its CRC and payload, which frame a
transaction sends, the times of frame, reply window and idle line, DIR while the frame is sent, and the bit on TXD in each
of those periods. That idle and stop bit are logic 1 and a start bit logic 0 is the model's, presumed (log 49). An answer
(R126, R127, R129 to R131): it begins at the first start byte and ends with the CRC its length byte calls for or at a gap of
30 µs; it is taken for a STATE, TAKEN or HELD_OFF exactly when it is whole, of its kind's length, from the address called,
its CRC correct and its kind allowed; any other answer is discarded, one of a kind not allowed among them (log 33), and one
command stands for a whole answer (log 29), both the model's readings. -/
def Obligations.FramesOnTheLine : Prop :=
  (∀ (address kind : Nat) (payload bs : List Byte), bs = frameBytes address kind payload →
      address < 256 → kind < 256 → payload.length < 256 →
      bs.length = payload.length + 6 ∧ u8 bs 0 = 0xD3 ∧ u8 bs 1 = address ∧ u8 bs 2 = kind ∧ u8 bs 3 = payload.length
      ∧ (∀ k, k < payload.length → byteAt bs (4 + k) = byteAt payload k)
      ∧ u16 bs (4 + payload.length) = (crc16 ((bs.drop 1).take (3 + payload.length))).toNat)
  ∧ (crc16 [] = 0xFFFF#16 ∧ (∀ bs b, crc16 (bs ++ [b]) = crcByte (crc16 bs) b)
      ∧ (∀ c b, crcByte c b = crcBit^[8] (c ^^^ (b.zeroExtend 16 <<< 8)))
      ∧ (∀ c, crcBit c = (c <<< 1) ^^^ (if c.getLsbD 15 then 0x1021#16 else 0))
      ∧ crc16 [0x31, 0x32, 0x33, 0x34, 0x35, 0x36, 0x37, 0x38, 0x39] = 0x29B1#16)
  ∧ (∀ (x : Nat) (p : SentPage), callFrame x = frameBytes (addressOf x) 0x01 []
      ∧ (∃ payload, headFrame x p = frameBytes (addressOf x) 0x02 payload ∧ payload.length = 7
          ∧ u16 payload 0 = p.serial.toNat ∧ u8 payload 2 = pageKindCode (bodyKind p.page.body)
          ∧ u8 payload 3 = blockCount p.page.body % 256 ∧ u8 payload 4 = (if p.full then 1 else 0)
          ∧ u16 payload 5 = p.page.musterSerial.toNat)
      ∧ (∀ k, 1 ≤ k → k < 256 → ∃ payload, blockFrame x p k = frameBytes (addressOf x) 0x03 payload
          ∧ payload.length = 49 ∧ u8 payload 0 = k
          ∧ ∀ i, i < 48 → byteAt payload (1 + i) = byteAt (bodyBytes p.page.body) (48 * (k - 1) + i))
      ∧ (bodyBytes p.page.body).length ≤ 48 * blockCount p.page.body
      ∧ 48 * blockCount p.page.body < (bodyBytes p.page.body).length + 48)
  ∧ (∀ t : Txn, (t.transfer = none → txnFrame t = callFrame t.station)
      ∧ (∀ p, t.transfer = some (p, 0) → txnFrame t = headFrame t.station p)
      ∧ (∀ p k, t.transfer = some (p, k + 1) → txnFrame t = blockFrame t.station p (k + 1))
      ∧ (startFrame t).left = 250 * (txnFrame t).length + 75000
      ∧ (startNextFrame t).left = 750 + 250 * (txnFrame t).length + 75000)
  ∧ (∀ l : LineCtl, (l.txn = none → dirLevel l = false)
      ∧ (∀ t, l.txn = some t →
          (dirLevel l = true ↔ 75000 < t.left ∧ t.left ≤ 250 * (txnFrame t).length + 75000))
      ∧ (dirLevel l = false → txdLevel l = true)
      ∧ ∀ t since, l.txn = some t → dirLevel l = true → since = 250 * (txnFrame t).length + 75000 - t.left →
          (since % 250 < 25 → txdLevel l = false)
          ∧ (∀ j, j < 8 → 25 * (j + 1) ≤ since % 250 → since % 250 < 25 * (j + 2) →
              txdLevel l = (byteAt (txnFrame t) (since / 250)).getLsbD j)
          ∧ (225 ≤ since % 250 → txdLevel l = true))
  ∧ (∀ (poll : Bool) (address : Nat) (bs : List Byte),
      (∀ flags serial service assist, classifyAnswer poll address bs = .state flags serial service assist ↔
        poll = true ∧ ValidAnswer bs address 0x81 5 ∧ flags = byteAt bs 4 ∧ serial = BitVec.ofNat 16 (u16 bs 5)
          ∧ service = byteAt bs 7 ∧ assist = byteAt bs 8)
      ∧ (classifyAnswer poll address bs = .taken ↔ poll = false ∧ ValidAnswer bs address 0x82 0)
      ∧ (classifyAnswer poll address bs = .heldOff ↔ poll = false ∧ ValidAnswer bs address 0x83 0))
  ∧ (∀ received : List (Nat × Byte), (∀ e ∈ received, e.2 ≠ 0xD3#8) → answerIn received = none)
  ∧ (∀ (before body rest : List (Nat × Byte)) (gap : Nat) (bs : List Byte), (∀ e ∈ before, e.2 ≠ 0xD3#8) →
      (∀ e ∈ body, e.1 < 750) → bs = 0xD3#8 :: body.map Prod.snd →
      (4 ≤ bs.length → bs.length = u8 bs 3 + 6 → answerIn (before ++ (gap, 0xD3#8) :: (body ++ rest)) = some bs)
      ∧ (bs.length < 4 ∨ bs.length < u8 bs 3 + 6 →
          answerIn (before ++ (gap, 0xD3#8) :: body) = some bs
          ∧ ∀ pause b, 750 ≤ pause →
              answerIn (before ++ (gap, 0xD3#8) :: (body ++ (pause, b) :: rest)) = some bs))
  ∧ ∀ (line : Nat) (t : Txn) (received : List (Nat × Byte)),
      (answerIn received = none → receivedCommand line t received = .replyWindowTimeout line)
      ∧ ∀ bs, answerIn received = some bs →
          (∀ f a b c, classifyAnswer t.transfer.isNone (addressOf t.station) bs = .state f a b c →
            receivedCommand line t received = .stateAnswer line f a b c)
          ∧ (classifyAnswer t.transfer.isNone (addressOf t.station) bs = .taken →
              (∀ p, t.transfer = some (p, 0) → receivedCommand line t received = .takenToPageHead line)
              ∧ ∀ p k, t.transfer = some (p, k + 1) → receivedCommand line t received = .takenToPageBlock line)
          ∧ (classifyAnswer t.transfer.isNone (addressOf t.station) bs = .heldOff →
              receivedCommand line t received = .heldOff line)
          ∧ (classifyAnswer t.transfer.isNone (addressOf t.station) bs = .discarded →
              receivedCommand line t received = .answerDiscarded line)

/-- The bytes of the eight page bodies (R107, R192, R197, R198): the length of each kind with its number of lines, and every
field at its offset, texts cut and padded, both bytes of an arrow, the marks, 0 for a countdown or a deck that the line does
not carry, and the reserved bytes 0. That a crew-instruction page carries 0xFF for its muster station is the model's
reading, log 25. -/
def Obligations.PageBodyBytes : Prop :=
  bodyBytes .blank = []
  ∧ (∀ (label stationLabel : Text) (k : Nat) (bs : List Byte), bs = bodyBytes (.doorStandard label k stationLabel) →
      bs.length = 25 ∧ TextAt bs 0 8 label ∧ u8 bs 8 = k % 256 ∧ TextAt bs 9 16 stationLabel)
  ∧ (∀ (label stationLabel : Text) (k : Nat) (a : Arrow) (n : Option Nat) (drill redirected : Bool) (bs : List Byte),
      bs = bodyBytes (.doorMuster label (some (k, stationLabel, a, n)) drill redirected) →
      bs.length = 30 ∧ TextAt bs 0 8 label ∧ u8 bs 8 = 0
      ∧ u8 bs 9 = (if drill then 1 else 0) + (if redirected then 2 else 0) ∧ u8 bs 10 = k % 256
      ∧ ArrowAt bs 11 (some (a, n)) ∧ u8 bs 13 = 0 ∧ TextAt bs 14 16 stationLabel)
  ∧ (∀ (label : Text) (drill redirected : Bool) (bs : List Byte), bs = bodyBytes (.doorMuster label none drill redirected) →
      bs.length = 30 ∧ TextAt bs 0 8 label ∧ u8 bs 8 = 1 ∧ u8 bs 9 = (if drill then 1 else 0) ∧ u8 bs 10 = 255
      ∧ ArrowAt bs 11 none ∧ zeroBytes bs 13 17 = true)
  ∧ (∀ (lines : List WayLine) (bs : List Byte), bs = bodyBytes (.wayProgramme lines) →
      bs.length = 2 + 56 * lines.length ∧ u8 bs 0 = lines.length % 256 ∧ u8 bs 1 = 0
      ∧ ∀ i l o, lines[i]? = some l → o = 2 + 56 * i →
          TextAt bs o 32 l.title ∧ TextAt bs (o + 32) 16 l.venueLabel ∧ u8 bs (o + 48) = l.deck.getD 0 % 256
          ∧ u16 bs (o + 49) = l.startTime % 65536 ∧ u8 bs (o + 51) = (l.mark + if l.cancelled then 4 else 0) % 256
          ∧ u8 bs (o + 52) = l.countdown.getD 0 % 256 ∧ u8 bs (o + 53) = l.icon % 256 ∧ ArrowAt bs (o + 54) l.route)
  ∧ (∀ (lines : List LandLine) (bs : List Byte), bs = bodyBytes (.wayLandmarks lines) →
      bs.length = 2 + 20 * lines.length ∧ u8 bs 0 = lines.length % 256 ∧ u8 bs 1 = 0
      ∧ ∀ i l o, lines[i]? = some l → o = 2 + 20 * i →
          TextAt bs o 16 l.label ∧ u8 bs (o + 16) = l.deck % 256 ∧ ArrowAt bs (o + 17) (some (l.arrow, l.minutes))
          ∧ u8 bs (o + 19) = 0)
  ∧ (∀ (time day : Nat) (lines : List LobbyLine) (bs : List Byte), bs = bodyBytes (.lobbyProgramme time day lines) →
      bs.length = 6 + 23 * lines.length ∧ u16 bs 0 = time % 65536 ∧ u16 bs 2 = day % 65536
      ∧ u8 bs 4 = lines.length % 256 ∧ u8 bs 5 = 0
      ∧ ∀ i l o, lines[i]? = some l → o = 6 + 23 * i →
          TextAt bs o 11 l.title ∧ TextAt bs (o + 11) 6 l.venueLabel ∧ u8 bs (o + 17) = l.deck.getD 0 % 256
          ∧ u16 bs (o + 18) = l.startTime % 65536 ∧ u8 bs (o + 20) = (l.mark + if l.cancelled then 4 else 0) % 256
          ∧ u8 bs (o + 21) = l.countdown.getD 0 % 256 ∧ u8 bs (o + 22) = l.icon % 256)
  ∧ (∀ (lines : List Text) (dest : Option (Arrow × Option Nat)) (bs : List Byte), bs = bodyBytes (.notice lines dest) →
      lines.length = 4 →
      bs.length = 164 ∧ (∀ i l, lines[i]? = some l → TextAt bs (40 * i) 40 l) ∧ ArrowAt bs 160 dest
      ∧ zeroBytes bs 162 2 = true)
  ∧ (∀ (lines : List MusterLine) (drill : Bool) (bs : List Byte), bs = bodyBytes (.screenMuster lines drill) →
      bs.length = 4 + 20 * lines.length ∧ u8 bs 0 = (if lines = [] then 1 else 0) ∧ u8 bs 1 = (if drill then 1 else 0)
      ∧ u8 bs 2 = lines.length % 256 ∧ u8 bs 3 = 0
      ∧ ∀ i l o, lines[i]? = some l → o = 4 + 20 * i →
          u8 bs o = l.index % 256 ∧ u8 bs (o + 1) = l.deck % 256 ∧ ArrowAt bs (o + 2) (some (l.arrow, l.minutes))
          ∧ TextAt bs (o + 4) 16 l.label)
  ∧ [Arrow.ahead, .aheadLeft, .left, .backLeft, .back, .backRight, .right, .aheadRight, .up, .down, .here, .pending, .none,
      .noRoute, .withheld].map arrowCode = List.range 15
  ∧ [Category.show_, .dining, .activity, .excursion, .talk, .port, .family, .other].map categoryCode = List.range 8
  ∧ [EntryState.pending, .soon, .running].map markCode = [0, 1, 2]

/-! ## Surveys and reports -/

/-- The publish word (R160, R181): staging begins when the stage is IDLE and the number is above the settled edition, with
the base and span in force captured; the live words are read next, a read that leaves the span not being issued (the model's
choice, log 22). A halt requested begins no staging (R173, log 16). Where the base was made invalid while the word was read,
the staging begins with the span 0 then held (the model's choice, log 45). The live words (R16, R17, R28; a list of bytes
that is too short reads as padded with 0, log 26): each is delivered and compared, each change raises the epoch by one, and
a rise leaves no slot READY and every vector held, and every station that draws from a slot with a vector shows the page
that the part now calls for (R28, R94). -/
def Obligations.SurveyWordsRead : Prop :=
  (∀ (bs : List Byte) (left : Nat) (s : State), s.phase = .operating → s.xu.survey = some (.publish true left) →
      ∃ t, exec (.publishWordRead bs) s = .next t
        ∧ t.xu.survey = some (.live (inSpan s.xu.span 0x440 12) 1250000)
        ∧ (s.xu.stage = none → s.xu.runState ≠ .halting → s.xu.settled.toNat < u32 bs 0 →
            ∃ g, t.xu.stage = some g ∧ g.number = BitVec.ofNat 32 (u32 bs 0) ∧ g.noticeOffset = u32 bs 4
              ∧ g.base = s.xu.base ∧ g.span = s.xu.span ∧ g.phase = .header ∧ g.staged = [] ∧ g.clock = none)
        ∧ (s.xu.stage ≠ none ∨ s.xu.runState = .halting ∨ u32 bs 0 ≤ s.xu.settled.toNat → t.xu.stage = s.xu.stage)
        ∧ t.xu.applied = s.xu.applied ∧ t.xu.settled = s.xu.settled ∧ { t with xu := s.xu } = s)
  ∧ (∀ (bs : List Byte) (left : Nat) (s : State), s.phase = .operating → s.xu.survey = some (.live true left) →
      ∃ t, exec (.liveWordsRead bs) s = .next t
        ∧ t.xu.survey = some (.acks (inSpan s.xu.span 0x1000 1984) 1250000)
        ∧ t.sms.closure = BitVec.ofNat 64 (u64 bs 0) &&& ~~~1#64 ∧ t.sms.exterior = (byteAt bs 8).getLsbD 0
        ∧ t.sms.epoch =
            s.sms.epoch + (if t.sms.closure = s.sms.closure then 0 else 1)
              + (if t.sms.exterior = s.sms.exterior then 0 else 1)
        ∧ t.rsv.slots.map Slot.vector = s.rsv.slots.map Slot.vector
        ∧ t.rsv.slots.map Slot.vectorEpoch = s.rsv.slots.map Slot.vectorEpoch
        ∧ t.rsv.slots.map Slot.holders = s.rsv.slots.map Slot.holders
        ∧ (t.sms.closure ≠ s.sms.closure ∨ t.sms.exterior ≠ s.sms.exterior → ∀ sl ∈ t.rsv.slots, sl.state ≠ .ready)
        ∧ (∀ x st, t.sms.epoch ≠ s.sms.epoch → tblGet s.sms.stations x = some st → DrawsVector s x →
            desiredPage t.pco x = some (candidate t x st).page)
        ∧ (t.sms.closure = s.sms.closure → t.sms.exterior = s.sms.exterior → t.rsv = s.rsv ∧ t.pco = s.pco)
        ∧ SameTables s t ∧ { t with sms := s.sms, rsv := s.rsv, pco := s.pco, xu := s.xu } = s)

/-- The end of a status record write (R183, R186): success holds its content as written; a failure counts REPORT_WRITE,
latches FAULT at once and leaves the record marked; either way the write is over. The mark that a success leaves as it is
was cleared when the write began: the model's reading, log 18. The end of a report write (R183, R187, R188): success makes
its content the block last written and latches the causes that waited for it; a failure counts REPORT_WRITE and latches
FAULT at once; the causes it was to record wait on, and the block is marked for the next survey, or written by the survey in
progress (the model's choice, log 52); HALTED is latched after the halt's write either way; and a write then in progress is
a new one, the next that is due, an immediate one before a survey's (the model's choice, log 55), with the state as the
command leaves it and the next serial, 0 after 4,294,967,295 (the model's choices, logs 17 and 60). -/
def Obligations.BusWritesEnd : Prop :=
  (∀ (x left : Nat) (content : StatusRec) (s : State), s.phase = .operating →
    s.xu.survey = some (.status x content left) →
    (∃ t, exec .statusRecordWritten s = .next t ∧ (statusHold t.xu x).written = some content
      ∧ (∀ c l, t.xu.survey ≠ some (.status x c l))
      ∧ (statusHold t.xu x).mark = (statusHold s.xu x).mark ∧ t.xu.counters = s.xu.counters
      ∧ t.xu.causes = s.xu.causes ∧ SameRegisters s.xu t.xu ∧ { t with xu := s.xu } = s)
    ∧ ∃ t, exec .statusWriteFailed s = .next t ∧ (statusHold t.xu x).mark = true
      ∧ (∀ c l, t.xu.survey ≠ some (.status x c l))
      ∧ (statusHold t.xu x).written = (statusHold s.xu x).written
      ∧ t.xu.counters = { s.xu.counters with reportWrite := min 65535 (s.xu.counters.reportWrite + 1) }
      ∧ t.xu.lastFault = { kind := .reportWrite, subject := none, second := s.clk.second }
      ∧ t.xu.causes = s.xu.causes ||| 16#7 ∧ SameRegisters s.xu t.xu ∧ { t with xu := s.xu } = s)
  ∧ (∀ (w : ReportWrite) (s : State), s.phase = .operating → s.xu.reportWrite = some w →
    (∃ t, exec .reportWriteDone s = .next t ∧ t.xu.reportLast = some w.fields
      ∧ (∀ v, t.xu.reportWrite = some v → v.serial = s.xu.reportSerial + 1)
      ∧ (∀ r rest, baseValid s.xu = true → s.xu.reportDue = r :: rest →
          t.xu.reportDue = rest ∧ ∃ v, t.xu.reportWrite = some v ∧ v.reason = r)
      ∧ t.xu.causes = s.xu.causes ||| w.covers ||| (if w.reason = .halt then 32#7 else 0)
      ∧ t.xu.counters = s.xu.counters ∧ SameRegisters s.xu t.xu ∧ { t with xu := s.xu } = s)
    ∧ ∃ t, exec .reportWriteFailed s = .next t ∧ t.xu.reportLast = s.xu.reportLast
      ∧ (∀ v, t.xu.reportWrite = some v → v.serial = s.xu.reportSerial + 1)
      ∧ (∀ r rest, baseValid s.xu = true → s.xu.reportDue = r :: rest →
          t.xu.reportDue = rest ∧ ∃ v, t.xu.reportWrite = some v ∧ v.reason = r)
      ∧ (t.xu.reportMark = true ∨ ∃ v, t.xu.reportWrite = some v ∧ v.reason = .survey)
      ∧ (baseValid s.xu = true → t.xu.waiting ||| (t.xu.reportWrite.map ReportWrite.covers).getD 0
          = s.xu.waiting ||| w.covers)
      ∧ t.xu.counters = { s.xu.counters with reportWrite := min 65535 (s.xu.counters.reportWrite + 1) }
      ∧ t.xu.lastFault = { kind := .reportWrite, subject := none, second := s.clk.second }
      ∧ t.xu.causes = s.xu.causes ||| 16#7 ||| (if w.reason = .halt then 32#7 else 0)
      ∧ SameRegisters s.xu t.xu ∧ { t with xu := s.xu } = s)

/-- What a write on the bus carries, whatever command begins it (R180, R183, R184, R186, R192, R195, R198). A report write:
the next report serial, 0 after 4,294,967,295 (the model's choice, log 60), the report block as the command leaves the part
(the model's choice, log 17), at the base then in force, which all its parts keep (the model's choice, log 57), in three
parts of 4, 248 and 4 bytes. A status write of step 4: the record of a station whose record is marked or differs from the
one last written, as the part stands, the lowest such station when the acknowledge array was read (the model's choice, log
19), 32 bytes at 0x2000 + 32 × the station number, all at the base in force when it begins (log 57); its mark is cleared at
the beginning of the write (the model's choice, log 18). Both have 50 ms. Then the two layouts, every field at its offset
and the reserved bytes 0, and the codes, an absent index or subject 0xFFFF and the tally 0 in STANDBY by the model's
readings (logs 25 and 12). -/
def Obligations.ReportsBegin : Prop :=
  (∀ (c : Instr) (s t : State) (w : ReportWrite), exec c s = .next t → t.xu.reportWrite = some w →
    t.xu.reportWrite ≠ s.xu.reportWrite →
    w.serial = s.xu.reportSerial + 1 ∧ t.xu.reportSerial = s.xu.reportSerial + 1 ∧ w.base = t.xu.base
      ∧ baseValid t.xu = true ∧ w.left = 1250000
      ∧ w.fields =
          { applied := t.xu.applied, settled := t.xu.settled, settle := t.xu.settle, musterState := t.msc.state
            musterKind := t.msc.kind, musterSerial := t.msc.serial, tally := tally t, outcome := t.msc.outcome
            reserve := t.msc.reserve, halted := decide (t.xu.runState = .halted)
            configured := t.sms.stations.length, online := statusCount t .online, doubtful := statusCount t .doubtful
            lost := statusCount t .lost, attention := attentionCount t, slotsInUse := slotsInUse t.rsv
            waitingLength := t.rsv.waiting.length, offset := t.pgu.offset, epoch := t.sms.epoch, second := t.clk.second
            counters := t.xu.counters, lastFault := t.xu.lastFault })
  ∧ (∀ (c : Instr) (s t : State) (x left : Nat) (r : StatusRec), exec c s = .next t →
    t.xu.survey = some (.status x r left) → t.xu.survey ≠ s.xu.survey →
    r = statusRec t x ∧ x < 496 ∧ left = 1250000 ∧ t.xu.surveyBase = t.xu.base ∧ baseValid t.xu = true
      ∧ (statusHold t.xu x).mark = false
      ∧ ((statusHold s.xu x).mark = true ∨ (statusHold s.xu x).written ≠ some r)
      ∧ (∀ bs, c = .ackArrayRead bs → ∀ y, y < x →
          (statusHold s.xu y).mark = false ∧ (statusHold s.xu y).written = some (statusRec t y)))
  ∧ (∀ (s : State) (x : Nat),
      (tblHas s.sms.stations x = false → ∀ k, k < 32 →
        byteAt (statusBytes (statusRec s x)) k = if k = 6 then 0xFF#8 else 0#8)
      ∧ (tblHas s.sms.stations x = true →
          (statusRec s x).status = lineStatus s x ∧ (statusRec s x).misses = (lineRec s.lcs x).misses
          ∧ (statusRec s x).desired = desiredSerial s.pco x ∧ (statusRec s x).confirmed = (lineRec s.lcs x).confSerial
          ∧ (statusRec s x).confKind = (lineRec s.lcs x).confKind ∧ (statusRec s x).dnd = (lineRec s.lcs x).dnd
          ∧ (statusRec s x).fault = (lineRec s.lcs x).fault ∧ (statusRec s x).busy = (lineRec s.lcs x).busy
          ∧ (statusRec s x).errors = (lineRec s.lcs x).errors
          ∧ (statusRec s x).lastHeard = ((lineRec s.lcs x).lastHeard.map BitVec.toNat).getD 0
          ∧ ((lineRec s.lcs x).door = none → (statusRec s x).pendingService = 0 ∧ (statusRec s x).pendingAssist = 0
              ∧ (statusRec s x).serviceTally = 0 ∧ (statusRec s x).assistTally = 0)
          ∧ (∀ d, (lineRec s.lcs x).door = some d →
              (statusRec s x).pendingService = pendingService d ∧ (statusRec s x).pendingAssist = pendingAssist d
              ∧ (statusRec s x).serviceTally = d.serviceTally.toNat
              ∧ (statusRec s x).assistTally = d.assistTally.toNat)))
  ∧ (∀ w : ReportWrite, (reportParts w).map (fun p => (p.address, p.bytes.length)) =
          [(w.base + 0x800#64, 4), (w.base + 0x804#64, 248), (w.base + 0x8FC#64, 4)]
      ∧ (reportParts w).flatMap BusWrite.bytes = reportBytes w.serial w.fields)
  ∧ (∀ (base : Word64) (x : Nat) (r : StatusRec),
      (statusPart base x r).address = base + BitVec.ofNat 64 (0x2000 + 32 * x)
      ∧ (statusPart base x r).bytes.length = 32 ∧ (statusPart base x r).bytes = statusBytes r)
  ∧ (∀ (serial : Word32) (f : ReportFields) (bs : List Byte), bs = reportBytes serial f →
      bs.length = 256 ∧ u32 bs 0 = serial.toNat ∧ u32 bs 252 = serial.toNat
      ∧ u32 bs 4 = f.applied.toNat ∧ u32 bs 8 = f.settled.toNat ∧ u8 bs 12 = settleOutcomeCode f.settle.outcome
      ∧ u8 bs 13 = reasonCode f.settle.reason ∧ u16 bs 14 = f.settle.entry.getD 65535 % 65536
      ∧ u16 bs 16 = f.settle.record.getD 65535 % 65536 ∧ u8 bs 18 = musterStateCode f.musterState
      ∧ u8 bs 19 = musterKindCode f.musterKind ∧ u16 bs 20 = f.musterSerial.toNat ∧ u16 bs 22 = f.tally % 65536
      ∧ u8 bs 24 = orderOutcomeCode f.outcome ∧ u8 bs 25 = (if f.reserve then 1 else 0)
      ∧ u8 bs 26 = (if f.halted then 1 else 0) ∧ u8 bs 27 = 0 ∧ u16 bs 28 = f.configured % 65536
      ∧ u16 bs 30 = f.online % 65536 ∧ u16 bs 32 = f.doubtful % 65536 ∧ u16 bs 34 = f.lost % 65536
      ∧ u16 bs 36 = f.attention % 65536 ∧ u8 bs 38 = f.slotsInUse % 256 ∧ u8 bs 39 = 0
      ∧ u16 bs 40 = f.waitingLength % 65536 ∧ (-32768 ≤ f.offset → f.offset < 32768 → i16 bs 42 = f.offset)
      ∧ u32 bs 44 = f.epoch.toNat ∧ u32 bs 48 = f.second.toNat ∧ u16 bs 52 = f.counters.fetchFailed % 65536
      ∧ u16 bs 54 = f.counters.reportWrite % 65536 ∧ u16 bs 56 = f.counters.lineCrc % 65536
      ∧ u16 bs 58 = f.counters.transferFail % 65536 ∧ u16 bs 60 = f.counters.claimWait % 65536
      ∧ u16 bs 62 = f.counters.unlistedExit % 65536 ∧ u16 bs 64 = f.counters.lostPresses % 65536
      ∧ u16 bs 66 = f.counters.rejected % 65536 ∧ u8 bs 68 = faultKindCode f.lastFault.kind ∧ u8 bs 69 = 0
      ∧ u16 bs 70 = f.lastFault.subject.getD 65535 % 65536 ∧ u32 bs 72 = f.lastFault.second.toNat
      ∧ zeroBytes bs 76 176 = true)
  ∧ (∀ (r : StatusRec) (bs : List Byte), bs = statusBytes r →
      u8 bs 0 = lineStatusCode r.status ∧ u8 bs 1 = r.misses % 256 ∧ u16 bs 2 = r.desired.toNat
      ∧ u16 bs 4 = r.confirmed.toNat ∧ u8 bs 6 = (r.confKind.map pageKindCode).getD 255
      ∧ ((byteAt bs 7).getLsbD 0 = r.dnd ∧ (byteAt bs 7).getLsbD 1 = r.fault ∧ (byteAt bs 7).getLsbD 2 = r.busy
          ∧ u8 bs 7 < 8)
      ∧ u8 bs 8 = r.pendingService % 256 ∧ u8 bs 9 = r.pendingAssist % 256 ∧ u8 bs 10 = r.serviceTally % 256
      ∧ u8 bs 11 = r.assistTally % 256 ∧ u8 bs 12 = r.errors % 256 ∧ zeroBytes bs 13 3 = true
      ∧ u32 bs 16 = r.lastHeard % 4294967296 ∧ zeroBytes bs 20 12 = true)
  ∧ [SettleOutcome.none, .applied, .rejected].map settleOutcomeCode = [0, 1, 2]
  ∧ [Reason.none, .badLeaf, .badIndex, .badField, .dangling, .duplicate, .oversize, .disturbed, .fetchFailed].map
      reasonCode = List.range 9
  ∧ [MusterState.standby, .called, .mustering, .standingDown].map musterStateCode = [0, 1, 2, 3]
  ∧ [MusterKind.none, .real, .drill].map musterKindCode = [0, 1, 2]
  ∧ [OrderOutcome.none, .accepted, .escalated, .ignored, .refusedDrillInReal, .refusedAlarmAsserted, .badOrder].map
      orderOutcomeCode = List.range 7
  ∧ [FaultKind.none, .fetchFailed, .reportWrite, .lineCrc, .transferFail, .claimWait, .unlistedExit, .lostPresses,
      .rejected, .noBase].map faultKindCode = List.range 10
  ∧ [LineStatus.absent, .unknown, .online, .doubtful, .lost].map lineStatusCode = [0, 1, 2, 3, 4]
  ∧ [PageKind.blank, .doorStandard, .doorMuster, .wayProgramme, .wayLandmarks, .lobbyProgramme, .notice,
      .screenMuster].map pageKindCode = List.range 8

/-- A failed read (R165, R171, R182): a survey read counts FETCH_FAILED and goes on with the next step, delivering nothing
(a read that leaves the span is not issued, and fails so: the model's choice, log 22); a staging read rejects the edition
with FETCH_FAILED, the applied edition and every table kept, and SETTLED waits for the report written at once (R172, R187).
That the last-fault record then shows REJECTED, and not the FETCH_FAILED of the same instant, is the model's choice, log 50.
-/
def Obligations.BusReadFails : Prop :=
  (∀ (v : Survey) (s : State), s.phase = .operating → s.xu.survey = some v → surveyReads v = true →
    ∃ t, exec (.busReadFailed .survey) s = .next t
      ∧ t.xu.counters = { s.xu.counters with fetchFailed := min 65535 (s.xu.counters.fetchFailed + 1) }
      ∧ t.xu.lastFault = { kind := .fetchFailed, subject := none, second := s.clk.second } ∧ CauseTold 4 s t
      ∧ (∀ b l, v = .publish b l → t.xu.survey = some (.live (inSpan s.xu.span 0x440 12) 1250000))
      ∧ (∀ b l, v = .live b l → t.xu.survey = some (.acks (inSpan s.xu.span 0x1000 1984) 1250000))
      ∧ SameRegisters s.xu t.xu ∧ { t with xu := s.xu } = s)
  ∧ ∀ (g : Staging) (s : State), s.phase = .operating → s.xu.stage = some g → g.phase ≠ .validating →
    ∃ t, exec (.busReadFailed .staging) s = .next t ∧ t.xu.stage = none
      ∧ t.xu.settled = g.number ∧ t.xu.applied = s.xu.applied
      ∧ t.xu.settle.outcome = .rejected ∧ t.xu.settle.reason = .fetchFailed
      ∧ (∀ e leaf sub i last, g.phase = .record e leaf sub i last → t.xu.settle.entry = some e ∧ t.xu.settle.record = some i)
      ∧ t.xu.counters.fetchFailed = min 65535 (s.xu.counters.fetchFailed + 1)
      ∧ t.xu.counters.rejected = min 65535 (s.xu.counters.rejected + 1)
      ∧ t.xu.lastFault =
          { kind := .rejected, second := s.clk.second
            subject := match g.phase with
              | .record _ leaf _ _ _ => some leaf
              | _ => none }
      ∧ ReportTold 0 s t ∧ CauseTold 4 s t ∧ { t with xu := s.xu } = s

/-! ## Editions -/

/-- The notice header and the directory (R161, R163, R191): the checks of the header in their order, each a rejection, and
then the directory as it now stands. The order of the header's checks is log 23; entries 0 to 11 and 16 to 22 of the
directory are read and no others (R180), in two bus reads of 192 and 112 bytes: that there are two is the model's choice,
log 51. The final re-read of the publish word (R166): it is read when every entry has been staged, and not after a failure;
a changed number is DISTURBED, charged to no entry; an unchanged one begins validation, whatever the notice offset says. At
every rejection the report is written at once and SETTLED waits for it (R172, R187). That a re-read outside its turn answers
the state as it is, is log 2; that a list of bytes that is too short reads as padded with 0, log 26. -/
def Obligations.HeaderDirectoryReread : Prop :=
  (∀ (bs : List Byte) (g : Staging) (s : State), s.phase = .operating → s.xu.stage = some g → readIssued g = true →
      (g.phase = .header →
        ∃ t, exec (.noticeHeaderRead bs) s = .next t ∧ t.xu.applied = s.xu.applied ∧ { t with xu := s.xu } = s
          ∧ (u32 bs 0 ≠ g.number.toNat → t.xu.stage = none ∧ t.xu.settled = g.number ∧ ReportTold 0 s t
              ∧ t.xu.settle = { outcome := .rejected, reason := .disturbed, entry := none, record := none })
          ∧ (u32 bs 0 = g.number.toNat → zeroBytes bs 6 2 = false → t.xu.stage = none ∧ t.xu.settled = g.number
              ∧ ReportTold 0 s t ∧ t.xu.settle = { outcome := .rejected, reason := .badField, entry := none, record := none })
          ∧ (u32 bs 0 = g.number.toNat → zeroBytes bs 6 2 = true → 96 < u16 bs 4 →
              t.xu.stage = none ∧ t.xu.settled = g.number ∧ ReportTold 0 s t
                ∧ t.xu.settle = { outcome := .rejected, reason := .oversize, entry := none, record := none })
          ∧ (u32 bs 0 = g.number.toNat → zeroBytes bs 6 2 = true → u16 bs 4 ≤ 96 → t.xu.settled = s.xu.settled
              ∧ t.xu.stage = some { g with phase := .directory, count := u16 bs 4, left := 1250000 }))
      ∧ (g.phase = .directory →
        ∃ t h, exec (.directoryRead bs) s = .next t ∧ t.xu.stage = some h ∧ { t with xu := s.xu } = s
          ∧ h.number = g.number ∧ h.staged = g.staged ∧ h.highest = min (u8 bs 0) 11
          ∧ h.phase = (if g.count = 0 then .reread else .entries)
          ∧ (∀ leaf, 1 ≤ leaf → leaf ≤ 11 → tableEntry h leaf 0 =
              { offset := u32 bs (16 * leaf), size := u16 bs (16 * leaf + 4), count := u32 bs (16 * leaf + 8) })
          ∧ (∀ line, 1 ≤ line → line ≤ 7 → tableEntry h 3 line =
              { offset := u32 bs (176 + 16 * line), size := u16 bs (180 + 16 * line), count := u32 bs (184 + 16 * line) })))
  ∧ (∀ g : Staging, g.phase = .directory → stagingReads g = [(0, 192), (256, 112)])
  ∧ ((∀ g : Staging, ∃ h, takeEntries g [] = .going h ∧ h.phase = .reread ∧ stagingReads h = [(0x400, 8)]
      ∧ h.staged = g.staged ∧ h.number = g.number)
    ∧ (∀ (bs : List Byte) (s : State), s.xu.stage = none → exec (.publishWordReread bs) s = .next s)
    ∧ ∀ (bs : List Byte) (g : Staging) (s : State), s.phase = .operating → s.xu.stage = some g → g.phase = .reread →
      readIssued g = true →
      ∃ t, exec (.publishWordReread bs) s = .next t ∧ t.xu.applied = s.xu.applied ∧ { t with xu := s.xu } = s
        ∧ (u32 bs 0 = g.number.toNat → t.xu.stage = some { g with phase := .validating } ∧ t.xu.settled = s.xu.settled
            ∧ t.xu.settle = s.xu.settle)
        ∧ (u32 bs 0 ≠ g.number.toNat → t.xu.stage = none ∧ t.xu.settled = g.number ∧ ReportTold 0 s t
            ∧ t.xu.settle = { outcome := .rejected, reason := .disturbed, entry := none, record := none }
            ∧ t.xu.counters.rejected = min 65535 (s.xu.counters.rejected + 1)))

/-- The notice entries and the record reads (R161 to R164): the entries are taken in notice order, each checked before any
record of it is staged, and an entry that fails a check rejects the edition charged to it, with the report written at once
and SETTLED waiting for it (R172, R187); a PUT waits for its first record, an empty range stages nothing, a CLEAR stages
empty records in place of what the stage held for them, and a SET_CLOCK is held; after the last entry the publish word is
read once more. A record read is staged in place of what the stage held for it, the records of a range being read in
ascending index (log 24), and after a range's last record the entries go on. A list of bytes that is too short reads as
padded with 0 (log 26). -/
def Obligations.EntriesAndRecords : Prop :=
  (∀ (bs : List Byte) (g : Staging) (s : State), s.phase = .operating → s.xu.stage = some g → g.phase = .entries →
    readIssued g = true → 0 < g.count →
    ∃ t, exec (.noticeEntriesRead bs) s = .next t ∧ t.xu.applied = s.xu.applied ∧ { t with xu := s.xu } = s
      ∧ (∀ f, takeEntries g (parseEntries bs g.count) = .failed f →
          t.xu.stage = none ∧ t.xu.settled = g.number ∧ ReportTold 0 s t
          ∧ t.xu.settle = { outcome := .rejected, reason := f.reason, entry := f.entry, record := f.record })
      ∧ (∀ h, takeEntries g (parseEntries bs g.count) = .going h → t.xu.stage = some h ∧ t.xu.settled = s.xu.settled
          ∧ t.xu.settle = s.xu.settle)
      ∧ (∀ f, checkEntry g 0 (parseEntry bs 0) = some f →
          t.xu.stage = none ∧ t.xu.settled = g.number ∧ ReportTold 0 s t
          ∧ t.xu.settle = { outcome := .rejected, reason := f.reason, entry := some 0, record := f.record })
      ∧ (∀ leaf sub first count single, parseEntry bs 0 = .put leaf sub first count single → 0 < count →
          checkEntry g 0 (parseEntry bs 0) = none →
          ∃ h, t.xu.stage = some h ∧ h.phase = .record 0 leaf sub first (first + count - 1) ∧ h.staged = g.staged
            ∧ t.xu.settled = s.xu.settled))
  ∧ (∀ (g : Staging) (n : Nat) (e : Entry) (rest : List (Nat × Entry)),
      (∀ f, checkEntry g n e = some f → takeEntries g ((n, e) :: rest) = .failed f)
      ∧ (checkEntry g n e = none →
          (∀ leaf sub first count single, e = .put leaf sub first count single →
            (count = 0 → takeEntries g ((n, e) :: rest) = takeEntries g rest)
            ∧ (0 < count → takeEntries g ((n, e) :: rest) =
                .going { g with rest, phase := .record n leaf sub first (first + count - 1), left := 1250000 }))
          ∧ (∀ leaf sub first count single, e = .clear leaf sub first count single →
              ∃ staged, takeEntries g ((n, e) :: rest) = takeEntries { g with staged } rest
                ∧ ∀ q, q ∈ staged ↔
                    q ∈ g.staged ∧ ¬(q.leaf = leaf ∧ q.sub = sub ∧ first ≤ q.index ∧ q.index < first + count)
                    ∨ ∃ k, k < count ∧ q = { leaf, sub, index := first + k, entry := n, bytes := none })
          ∧ (∀ v, e = .setClock v → takeEntries g ((n, e) :: rest) = takeEntries { g with clock := some v } rest)))
  ∧ (∀ g : Staging, takeEntries g [] = .going { g with rest := [], phase := .reread, left := 1250000 })
  ∧ ∀ (bs : List Byte) (g : Staging) (e leaf sub i last : Nat) (s : State), s.phase = .operating →
    s.xu.stage = some g → g.phase = .record e leaf sub i last → readIssued g = true →
    ∃ t, exec (.recordRead bs) s = .next t ∧ t.xu.applied = s.xu.applied ∧ { t with xu := s.xu } = s
      ∧ (i < last → ∃ h, t.xu.stage = some h ∧ h.phase = .record e leaf sub (i + 1) last
          ∧ h.staged = (g.staged.filter fun q => !(decide (q.leaf = leaf) && decide (q.sub = sub) && decide (q.index = i)))
              ++ [{ leaf, sub, index := i, entry := e, bytes := some bs }])
      ∧ (¬i < last → g.rest = [] → ∃ h, t.xu.stage = some h ∧ h.phase = .reread
          ∧ isStaged h.staged leaf sub i = true)
      ∧ (¬i < last → ∀ h, h = { g with staged :=
            (g.staged.filter fun q => !(decide (q.leaf = leaf) && decide (q.sub = sub) && decide (q.index = i)))
              ++ [{ leaf, sub, index := i, entry := e, bytes := some bs }] } →
          (∀ k, takeEntries h g.rest = .going k → t.xu.stage = some k ∧ t.xu.settled = s.xu.settled)
          ∧ (∀ f, takeEntries h g.rest = .failed f → t.xu.stage = none ∧ t.xu.settled = g.number ∧ ReportTold 0 s t
              ∧ t.xu.settle = { outcome := .rejected, reason := f.reason, entry := f.entry, record := f.record }))

/-- The entries of a notice and the checks of each (R161, R163, R164, R193, R194): the five kinds by their bytes, a kind
that is none of them or a reserved byte that is not 0 being BAD_FIELD; BAD_LEAF for a leaf or subleaf that does not exist
and for a PUT of a table whose record size is not the leaf's; BAD_INDEX, with the first index at or beyond the count in
force; OVERSIZE above 6,400 records; DUPLICATE for a second SET_CLOCK. The order of the checks is log 23; that a BAD_INDEX
of a single PUT or CLEAR names that record's index is the model's choice, log 46; that a list that is too short reads as
padded with 0, log 26. -/
def Obligations.EntryChecks : Prop :=
  (∀ (bs : List Byte) (i leaf sub first count : Nat), leaf = u8 bs (8 * i + 1) → sub = u8 bs (8 * i + 2) →
      first = u16 bs (8 * i + 4) → count = u16 bs (8 * i + 6) →
      (u8 bs (8 * i) = 0 ∨ 5 < u8 bs (8 * i) → parseEntry bs i = .bad none)
      ∧ (u8 bs (8 * i) = 5 → parseEntry bs i =
          if zeroBytes bs (8 * i + 1) 3 then .setClock (BitVec.ofNat 32 (u32 bs (8 * i + 4))) else .bad none)
      ∧ (u8 bs (8 * i + 3) = 0 →
          (u8 bs (8 * i) = 1 → parseEntry bs i = if count = 0 then .put leaf sub first 1 true else .bad (some leaf))
          ∧ (u8 bs (8 * i) = 2 → parseEntry bs i = .put leaf sub first count false)
          ∧ (u8 bs (8 * i) = 3 → parseEntry bs i = if count = 0 then .clear leaf sub first 1 true else .bad (some leaf))
          ∧ (u8 bs (8 * i) = 4 → parseEntry bs i = .clear leaf sub first count false))
      ∧ (u8 bs (8 * i + 3) ≠ 0 → 1 ≤ u8 bs (8 * i) → u8 bs (8 * i) ≤ 4 → parseEntry bs i = .bad (some leaf)))
  ∧ (∀ (g : Staging) (n : Nat),
      (∀ leaf, checkEntry g n (.bad leaf) = some { reason := .badField, entry := some n, record := none, leaf })
      ∧ (∀ v, g.clock = none → checkEntry g n (.setClock v) = none)
      ∧ ∀ v, g.clock ≠ none → checkEntry g n (.setClock v) =
          some { reason := .duplicate, entry := some n, record := none, leaf := none })
  ∧ (∀ (g : Staging) (n leaf sub first count : Nat) (single put : Bool) (e : Entry) (inForce : Nat), g.highest ≤ 11 →
      e = (if put then .put leaf sub first count single else .clear leaf sub first count single) →
      inForce = min (tableEntry g leaf sub).count (leafCapacity leaf) →
      (leaf = 0 ∨ 11 < leaf ∨ g.highest < leaf ∨ leaf = 3 ∧ 7 < sub ∨ leaf ≠ 3 ∧ sub ≠ 0
          ∨ put = true ∧ (tableEntry g leaf sub).size ≠ recordSize leaf →
        checkEntry g n e = some { reason := .badLeaf, entry := some n, record := none, leaf := some leaf })
      ∧ (1 ≤ leaf → leaf ≤ g.highest → (leaf = 3 → sub ≤ 7) → (leaf ≠ 3 → sub = 0) →
          (put = true → (tableEntry g leaf sub).size = recordSize leaf) →
          (∀ i, first ≤ i → i < first + count → inForce ≤ i → (∀ j, first ≤ j → j < i → j < inForce) →
            checkEntry g n e = some { reason := .badIndex, entry := some n, record := some i, leaf := some leaf })
          ∧ ((∀ i, first ≤ i → i < first + count → i < inForce) →
              checkEntry g n e =
                if 6400 < g.staged.length
                    + ((List.range count).filter fun i => !isStaged g.staged leaf sub (first + i)).length then
                  some { reason := .oversize, entry := some n, record := none, leaf := some leaf }
                else none)))
  ∧ (List.range 12).map leafCapacity = [0, 1024, 4096, 62, 16, 24, 256, 32, 32, 16, 16, 1]
  ∧ (List.range 12).map recordSize = [0, 4, 16, 64, 24, 20, 64, 68, 164, 20, 8, 32]

/-- The checks of a staged record alone, and of an exit whose edge does not touch the station's node: BAD_FIELD (R2 to R13,
R15, R47, R51, R109, R114, R115, R168, R191). A CLEAR and a record with in_use 0 have no field that is checked; another
in_use than 0 or 1 is BAD_FIELD; else each leaf's own codes, ranges and reserved bytes decide. -/
def Obligations.BadFields : Prop :=
  (∀ (t : TableSet) (r : Staged),
    (r.bytes = none → badField t r = false)
    ∧ ∀ bs, r.bytes = some bs →
      (r.leaf = 11 → (badField t r = false ↔ zeroBytes bs 10 2 = true ∧ zeroBytes bs 27 5 = true ∧ u8 bs 22 ≤ 1))
      ∧ (r.leaf ≠ 11 →
        (u8 bs 0 = 0 → badField t r = false) ∧ (1 < u8 bs 0 → badField t r = true)
        ∧ (u8 bs 0 = 1 →
          (r.leaf ≠ 2 → r.leaf ≠ 3 → badField t r = badBytes r.leaf r.index bs)
          ∧ (r.leaf = 2 → (badField t r = true ↔ badBytes 2 r.index bs = true
              ∨ ∃ x st a g, (x, st) ∈ t.stations ∧ (r.index, a) ∈ st.exits ∧ tblGet t.edges r.index = some g
                  ∧ g.nodeA ≠ st.node ∧ g.nodeB ≠ st.node))
          ∧ (r.leaf = 3 → (badField t r = true ↔ badBytes 3 r.index bs = true
              ∨ ∃ st k a g, tblGet t.stations (62 * r.sub + r.index) = some st ∧ (k, a) ∈ st.exits
                  ∧ tblGet t.edges k = some g ∧ g.nodeA ≠ st.node ∧ g.nodeB ≠ st.node)))))
  ∧ ∀ (i : Nat) (bs : List Byte),
      (badBytes 1 i bs = false ↔ 1 ≤ u8 bs 1 ∧ u8 bs 1 ≤ 20 ∧ zeroBytes bs 2 2 = true)
      ∧ (badBytes 2 i bs = false ↔ u16 bs 4 < 1024 ∧ u16 bs 6 < 1024 ∧ u16 bs 4 ≠ u16 bs 6 ∧ u8 bs 1 ≤ 3 ∧ u8 bs 3 ≤ 2
          ∧ (u8 bs 1 = 1 → u8 bs 2 = 1 ∨ u8 bs 2 = 2) ∧ (u8 bs 1 ≠ 1 → u8 bs 2 = 0) ∧ u8 bs 10 ≤ 63
          ∧ zeroBytes bs 11 5 = true)
      ∧ (badBytes 3 i bs = false ↔ 1 ≤ u8 bs 1 ∧ u8 bs 1 ≤ 3 ∧ u16 bs 2 < 1024 ∧ u8 bs 13 ≤ 1
          ∧ zeroBytes bs 30 2 = true
          ∧ (∀ k, k < min 8 (u8 bs 12) → u16 bs (32 + 4 * k) < 4096 ∧ u8 bs (34 + 4 * k) ≤ 9 ∧ u8 bs (35 + 4 * k) = 0)
          ∧ (u8 bs 1 = 1 → u8 bs 14 < 16) ∧ (u8 bs 1 ≠ 1 → u8 bs 15 < 32)
          ∧ (u8 bs 1 = 2 → ∀ k, k < min 4 (u8 bs 22) → u8 bs (24 + k) < 24)
          ∧ (u8 bs 1 ≠ 1 → ∀ k, k < min 2 (u8 bs 23) → u8 bs (28 + k) < 16))
      ∧ (badBytes 4 i bs = false ↔ u8 bs 1 ≤ 1 ∧ u16 bs 2 < 1024 ∧ zeroBytes bs 5 3 = true
          ∧ (u8 bs 4 = 255 ∨ u8 bs 4 < 16 ∧ u8 bs 4 ≠ i))
      ∧ (badBytes 5 i bs = false ↔ u16 bs 2 < 1024 ∧ zeroBytes bs 1 1 = true)
      ∧ (badBytes 6 i bs = false ↔ u8 bs 1 ≤ 7 ∧ u8 bs 2 ≤ 1 ∧ zeroBytes bs 3 1 = true ∧ zeroBytes bs 14 2 = true
          ∧ (u16 bs 10 = 65535 ∨ u16 bs 10 < 1024))
      ∧ (badBytes 7 i bs = false ↔ i ≠ 0 ∧ zeroBytes bs 1 3 = true
          ∧ (∀ k, k < 8 → u8 bs (4 + 8 * k) ≤ 4 ∧ zeroBytes bs (4 + 8 * k + 5) 3 = true
              ∧ (u8 bs (4 + 8 * k) = 3 → u8 bs (4 + 8 * k + 1) < 32)
              ∧ (u8 bs (4 + 8 * k) = 4 → u8 bs (4 + 8 * k + 3) < k))
          ∧ ∃ k, k < 8 ∧ 1 ≤ u8 bs (4 + 8 * k) ∧ u8 bs (4 + 8 * k) ≤ 3)
      ∧ (badBytes 8 i bs = false ↔ zeroBytes bs 1 1 = true ∧ (u16 bs 2 = 65535 ∨ u16 bs 2 < 1024))
      ∧ (badBytes 9 i bs = false ↔ u8 bs 1 < 32 ∧ u8 bs 2 ≤ 1 ∧ zeroBytes bs 3 1 = true ∧ zeroBytes bs 19 1 = true
          ∧ min 71582788 (u32 bs 8) < min 71582788 (u32 bs 12))
      ∧ (badBytes 10 i bs = false ↔ zeroBytes bs 1 1 = true)

/-- Validation (R2, R7, R11, R13, R14, R47, R167, R168): the staged records stand in their tables in their held form, a
record that is no longer in use emptying its index (an in_use that is neither 0 nor 1 counts as in use here: the model's
choice, log 44); the first staged record charged is the edition's failure, with the first of BAD_FIELD, DANGLING and
DUPLICATE that applies to it. DANGLING: the record names an empty record, or it is empty and an in-use record of the set
names it. DUPLICATE: a repetition inside a station, or a node of a muster station or an at_minute of a clock change shared
with another record, charged to the higher index if that one is staged and else to the lower. -/
def Obligations.ValidationCharges : Prop :=
  (∀ (t : TableSet) (staged all : List Staged),
    (validate t staged all = none ↔ ∀ r ∈ staged, recordReason t all r = none)
    ∧ ∀ pre r post reason, staged = pre ++ r :: post → (∀ q ∈ pre, recordReason t all q = none) →
        recordReason t all r = some reason →
        validate t staged all = some { reason, entry := some r.entry, record := some r.index, leaf := some r.leaf })
  ∧ (∀ (t : TableSet) (all : List Staged) (r : Staged),
      recordReason t all r =
        if badField t r = true then some .badField
        else if dangling t r = true then some .dangling
        else if duplicate t all r = true then some .duplicate
        else none)
  ∧ (∀ (t : TableSet) (all : List Staged) (r : Staged) (i : Nat), SetCanonical t → i = tableIndex r →
      (dangling t r = true ↔ (∃ f ∈ refsAt t r.leaf i, refPresent t f = false)
        ∨ ∃ f, refOf r.leaf i = some f ∧ refPresent t f = false ∧ ∃ leaf j, f ∈ refsAt t leaf j)
      ∧ (∀ st, r.leaf = 3 → tblGet t.stations i = some st →
          (duplicate t all r = true ↔
            ¬(st.exits.map Prod.fst).Nodup ∨ ¬st.landmarks.Nodup ∨ ¬st.served.Nodup))
      ∧ (∀ k, r.leaf = 4 → tblGet t.musters i = some k →
          (duplicate t all r = true ↔ ∃ j l, tblGet t.musters j = some l ∧ l.node = k.node
            ∧ (j < i ∨ i < j ∧ isStaged all 4 0 j = false)))
      ∧ (∀ c, r.leaf = 10 → tblGet t.clockChanges i = some c →
          (duplicate t all r = true ↔ ∃ j d, tblGet t.clockChanges j = some d ∧ d.atMinute = c.atMinute
            ∧ (j < i ∨ i < j ∧ isStaged all 10 0 j = false)))
      ∧ (r.leaf ≠ 3 → r.leaf ≠ 4 → r.leaf ≠ 10 → duplicate t all r = false))
  ∧ (∀ (t : TableSet) (i : Nat) (f : Ref),
      (∀ g, tblGet t.edges i = some g → (f ∈ refsAt t 2 i ↔ f = .node g.nodeA ∨ f = .node g.nodeB))
      ∧ (∀ st, tblGet t.stations i = some st →
          (f ∈ refsAt t 3 i ↔ f = .node st.node ∨ (∃ e ∈ st.exits, f = .edge e.1)
            ∨ st.kind = .cabin ∧ f = .muster st.assigned
            ∨ st.kind ≠ .cabin ∧ st.rotation ≠ 0 ∧ f = .rotation st.rotation
            ∨ (∃ l ∈ st.landmarks, f = .landmark l) ∨ ∃ k ∈ st.served, f = .muster k))
      ∧ (∀ k, tblGet t.musters i = some k →
          (f ∈ refsAt t 4 i ↔ f = .node k.node ∨ ∃ a, k.alternate = some a ∧ f = .muster a))
      ∧ (∀ l, tblGet t.landmarks i = some l → (f ∈ refsAt t 5 i ↔ f = .node l.node))
      ∧ (∀ e, tblGet t.programme i = some e → (f ∈ refsAt t 6 i ↔ ∃ v, e.venue = some v ∧ f = .node v))
      ∧ (∀ q, tblGet t.rotations i = some q → (f ∈ refsAt t 7 i ↔ ∃ k d, RotStep.notice k d ∈ q.steps ∧ f = .notice k))
      ∧ (∀ n, tblGet t.notices i = some n → (f ∈ refsAt t 8 i ↔ ∃ d, n.dest = some d ∧ f = .node d))
      ∧ (∀ j, tblGet t.interjections i = some j → (f ∈ refsAt t 9 i ↔ f = .notice j.notice)))
  ∧ ∀ (t u : TableSet) (staged : List Staged), SetCanonical t → u = postEdition staged t →
      staged.Pairwise (fun a b => ¬(a.leaf = b.leaf ∧ tableIndex a = tableIndex b)) →
      Replaced staged 1 parseNode t.nodes u.nodes ∧ Replaced staged 2 parseEdge t.edges u.edges
      ∧ Replaced staged 3 parseStation t.stations u.stations ∧ Replaced staged 4 parseMuster t.musters u.musters
      ∧ Replaced staged 5 parseLandmark t.landmarks u.landmarks ∧ Replaced staged 6 parseProgramme t.programme u.programme
      ∧ Replaced staged 7 parseRotation t.rotations u.rotations ∧ Replaced staged 8 parseNotice t.notices u.notices
      ∧ Replaced staged 9 parseInterj t.interjections u.interjections
      ∧ Replaced staged 10 parseClock t.clockChanges u.clockChanges
      ∧ (∀ r ∈ staged, r.leaf = 11 → (∀ q ∈ staged, q.leaf = 11 → q = r) →
          u.settings = (r.bytes.map parseSettings).getD defaultSettings)
      ∧ ((∀ r ∈ staged, r.leaf ≠ 11) → u.settings = t.settings)

/-- A rejection by validation (R168, R171): the settled edition takes the number, the settle record names the charged
record, REJECTED rises with FAULT, and nothing else changes. A commit (R16, R46, R49, R83, R88, R91, R94, R97, R159, R169):
every staged record becomes the working copy, both numbers take the edition's, the clock takes the SET_CLOCK value, a
retained offset ends, and the epoch rises once when nodes, edges or weights changed; a station whose record changed shows
the page its new record and the state call for, BLANK under the reserve regime where it is not essential, an emptied one
shows none and keeps its serial; and so does a station whose page shows a record, a list or the ship time that the commit
changed, or draws from a slot with a vector when the epoch rose or walk_rate changed (R25, R28, R50, R62, R94; there
`TablesCanonical` is the premise); in a muster the map is computed afresh when the stations or muster stations changed. Both
have the report written at once, and SETTLED waits for it (R172, R187). -/
def Obligations.ValidationEnds : Prop :=
  (∀ (g : Staging) (f : Failure) (s : State), s.phase = .operating → s.xu.stage = some g → g.phase = .validating →
    validate (postEdition g.staged (tablesOf s)) g.staged g.staged = some f →
    ∃ t, exec .validationDone s = .next t ∧ t.xu.stage = none ∧ t.xu.settled = g.number
      ∧ t.xu.applied = s.xu.applied
      ∧ t.xu.settle = { outcome := .rejected, reason := f.reason, entry := f.entry, record := f.record }
      ∧ (f.reason = .badField ∨ f.reason = .dangling ∨ f.reason = .duplicate)
      ∧ (∃ r ∈ g.staged, f.entry = some r.entry ∧ f.record = some r.index ∧ f.leaf = some r.leaf)
      ∧ t.xu.counters = { s.xu.counters with rejected := min 65535 (s.xu.counters.rejected + 1) }
      ∧ t.xu.lastFault = { kind := .rejected, subject := f.leaf, second := s.clk.second }
      ∧ ReportTold 0 s t ∧ CauseTold 4 s t ∧ { t with xu := s.xu } = s)
  ∧ (∀ (g : Staging) (s : State), s.phase = .operating → s.xu.stage = some g → g.phase = .validating →
    validate (postEdition g.staged (tablesOf s)) g.staged g.staged = none →
    ∃ t, exec .validationDone s = .next t ∧ tablesOf t = postEdition g.staged (tablesOf s)
      ∧ t.xu.applied = g.number ∧ t.xu.settled = g.number ∧ t.xu.stage = none
      ∧ t.xu.settle = { outcome := .applied, reason := .none, entry := none, record := none }
      ∧ (g.clock = none → t.clk = s.clk) ∧ (∀ v, g.clock = some v → t.clk.second = v)
      ∧ t.sms.epoch =
          s.sms.epoch +
            (if t.sms.nodes = s.sms.nodes ∧ t.sms.edges = s.sms.edges ∧ t.sms.settings.normal = s.sms.settings.normal
                ∧ t.sms.settings.muster = s.sms.settings.muster then 0 else 1)
      ∧ t.sms.closure = s.sms.closure ∧ t.sms.exterior = s.sms.exterior
      ∧ ReportTold 0 s t
      ∧ t.pgu.retained = false
      ∧ t.pgu.offset = evalOffset t.pgu.clockChanges t.sms.settings.initialOffset (t.clk.second.toNat / 60)
      ∧ (∀ x, confirmedPage t x = confirmedPage s x)
      ∧ (∀ x, tblHas s.sms.stations x = true → tblHas t.sms.stations x = false →
          desiredPage t.pco x = none ∧ (pageRec t.pco x).serial = (pageRec s.pco x).serial)
      ∧ (∀ x st, tblGet s.sms.stations x ≠ some st → tblGet t.sms.stations x = some st →
          desiredPage t.pco x = some (candidate t x st).page)
      ∧ (TablesCanonical s → ∀ x st, tblGet s.sms.stations x = some st → tblGet t.sms.stations x = some st →
          ((∃ y ∈ (pageRec s.pco x).sources, SourceMoved s t x y)
            ∨ DrawsVector s x ∧ (t.sms.epoch ≠ s.sms.epoch ∨ t.sms.settings.walkRate ≠ s.sms.settings.walkRate)) →
          desiredPage t.pco x = some (candidate t x st).page)
      ∧ (s.msc.state ≠ .standby →
          (t.sms.stations = s.sms.stations ∧ t.sms.musters = s.sms.musters → t.msc.map = s.msc.map)
          ∧ (t.sms.stations ≠ s.sms.stations ∨ t.sms.musters ≠ s.sms.musters →
              t.msc.map = some (freshMap t.sms t.rsv.slots)))
      ∧ SameRegisters { s.xu with
            applied := g.number, settled := g.number, stage := none
            settle := { outcome := .applied, reason := .none, entry := none, record := none } } t.xu
      ∧ t.phase = s.phase ∧ t.pending = s.pending)

/-- What else a commit does (R8, R34, R53, R54, R58, R112, R113, R116, R138, R145). A station that is configured, emptied or
of another kind has its line record reset, but for its confirmed page, and a cabin among them fresh door-service fields; any
other keeps its line record and its door; shed goes with the reset and with the essential flag, and only the reserve regime
sets it (R142); a transaction in flight goes on, its outcome recorded afterwards (log 34). A screen that is configured, or
whose rotation, kind or rotation record changed, starts its rotation, one on an interjection staying there with the resume
step of the new start; another keeps its rotation state; a cabin has none. A showing ends where its interjection is emptied,
no longer active, no longer selects the station or begins a new activation (R119): in STANDBY the lowest interjection due
after the commit (R117) is shown afresh, also before the one re-activated where that has a higher index (the model's choice,
log 58; that one selected again in its activation becomes due again, a hold one and one of period 0 too, is log 48), and
with none due, or in a muster, the screen returns to its resume step or its default page; the page follows. A screen at its
default page shows the lowest due one at once (R118), and one of rotation 0 that goes on with an interjection keeps it while
another is due (the model's choice, log 59). The walk's bound `walkFuel` is the model's, log 27. The claims are exactly
those whose condition holds, with the waiting list in its order (R32); unless the commit calls a muster from STANDBY they
are taken as one operation on the slots as a rise of the epoch and the selection that follows it leave them (the model's
order, log 10), with CLAIM_WAIT rising by those newly left waiting (R28, R34). View, states, lists and active interjections
are those of the new tables at the minute. `SlotsHeld` and `TablesCanonical` are invariants of the model. -/
def Obligations.CommitTells : Prop :=
  ∀ (g : Staging) (s : State), s.phase = .operating → s.xu.stage = some g → g.phase = .validating →
    validate (postEdition g.staged (tablesOf s)) g.staged g.staged = none → SlotsHeld s → TablesCanonical s →
    ∃ t now, exec .validationDone s = .next t ∧ now = t.clk.second.toNat / 60
      ∧ (∀ x, KindChanged s t x → lineRec t.lcs x = { lineRec s.lcs x with
          heard := false, misses := 0, baseline := false, waiting := none, errors := 0, lastHeard := none, busy := false
          dnd := false, fault := false, shed := (lineRec t.lcs x).shed
          door :=
            if (tblGet t.sms.stations x).map StationRec.kind = some .cabin then
              some { refresh := none, afterMuster := false, fullCount := 0, lastService := 0, lastAssist := 0
                     serviceTally := 0, assistTally := 0, serviceAck := 0, assistAck := 0, synced := false
                     attention := false }
            else none })
      ∧ (∀ x, ¬KindChanged s t x → lineRec t.lcs x = { lineRec s.lcs x with shed := (lineRec t.lcs x).shed })
      ∧ (∀ x, (lineRec t.lcs x).shed = true →
          (t.msc.reserve = true ∧ ∃ st, tblGet t.sms.stations x = some st ∧ st.essential = false)
          ∨ ¬KindChanged s t x ∧ (lineRec s.lcs x).shed = true
              ∧ (tblGet t.sms.stations x = tblGet s.sms.stations x
                ∨ ∃ st, tblGet t.sms.stations x = some st ∧ st.essential = false))
      ∧ (∀ x, ¬KindChanged s t x → (lineRec s.lcs x).shed = true →
          (∀ st, tblGet t.sms.stations x = some st → st.essential = false) → (lineRec t.lcs x).shed = true)
      ∧ t.lcs.lines.map LineCtl.txn = s.lcs.lines.map LineCtl.txn
      ∧ (∀ x, (∀ st, tblGet t.sms.stations x = some st → st.kind = .cabin) → tblGet t.pco.rots x = none)
      ∧ (∀ x st steps, tblGet t.sms.stations x = some st → st.kind ≠ .cabin → steps = rotSteps t.pco.rotations st.rotation →
          ∃ q, tblGet t.pco.rots x = some q
            ∧ (tblGet s.sms.stations x = none ∨ tblGet s.pco.rots x = none → RotStarted t st steps q)
            ∧ ∀ old r, tblGet s.sms.stations x = some old → tblGet s.pco.rots x = some r →
              (Restarts s t old st → desiredPage t.pco x = some (candidate t x st).page)
              ∧ (Restarts s t old st → (∀ i, r.position ≠ .interj i) → RotStarted t st steps q)
              ∧ (¬Restarts s t old st → (∃ n, r.position = .step n) →
                  q = { r with due := q.due })
              ∧ (s.msc.state ≠ .standby ∨ (∃ n, r.position = .step n) ∧ (¬Restarts s t old st ∨ st.rotation ≠ 0) →
                  ∀ i, i < 16 → (q.due.getD i false = true ↔ DueAtCommit s t old st r i))
              ∧ (r.position = .default → ¬Restarts s t old st → q.rotation = r.rotation ∧ q.loops = r.loops)
              ∧ (r.position = .default ∧ ¬Restarts s t old st
                  ∨ Restarts s t old st ∧ st.rotation = 0 ∧ (∀ i, r.position ≠ .interj i) →
                  (∀ k, k < 16 → s.msc.state = .standby → DueAtCommit s t old st r k →
                    (∀ j, j < k → ¬DueAtCommit s t old st r j) → ShownAfresh t r q k)
                  ∧ (s.msc.state ≠ .standby ∨ (∀ k, k < 16 → ¬DueAtCommit s t old st r k) → q.position = .default))
              ∧ (∀ i resume, r.position = .interj i →
                  (¬ActiveOn t st i
                    ∨ i ∈ s.pco.active ∧ tblGet s.pco.interjections i ≠ tblGet t.pco.interjections i) →
                  (¬Restarts s t old st → resume = r.resume) →
                  (Restarts s t old st → (st.rotation = 0 → resume = none)
                    ∧ (st.rotation ≠ 0 → ∀ full m loops, FullCounters steps full →
                        walk steps walkFuel 0 full = (m, loops) → resume = some (m, dwellOf steps m))) →
                  desiredPage t.pco x = some (candidate t x st).page
                    ∧ (∀ k, k < 16 → s.msc.state = .standby → DueAtCommit s t old st r k →
                        (∀ j, j < k → ¬DueAtCommit s t old st r j) → ShownAfresh t r q k ∧ q.resume = resume)
                    ∧ (s.msc.state ≠ .standby ∨ (∀ k, k < 16 → ¬DueAtCommit s t old st r k) → Returned resume q))
              ∧ ∀ i, r.position = .interj i → ActiveOn t st i →
                  tblGet s.pco.interjections i = tblGet t.pco.interjections i →
                  q.position = r.position ∧ q.countdown = r.countdown ∧ q.lastShown = r.lastShown
                    ∧ (¬Restarts s t old st → q = { r with due := q.due })
                    ∧ (Restarts s t old st → q.rotation = st.rotation ∧ (st.rotation = 0 → q.resume = none)
                        ∧ (st.rotation ≠ 0 → ∀ full m loops, FullCounters steps full →
                            walk steps walkFuel 0 full = (m, loops) →
                            q.resume = some (m, dwellOf steps m) ∧ q.loops = loops)))
      ∧ OnlyClaims t (desiredClaims t) ∧ ClaimsPlaced t (desiredClaims t)
      ∧ t.pgu.view = orderedView t.pgu.programme
      ∧ (∀ i e, tblGet t.pgu.programme i = some e →
          tblGet t.pgu.states i = some
            (if now + t.sms.settings.lead < e.start then .pending
             else if now < e.start then .soon
             else if now < e.start + e.duration then .running
             else if now < e.start + e.duration + t.sms.settings.linger then .linger
             else .gone))
      ∧ (∀ x st, tblGet t.sms.stations x = some st →
          tblGet t.pgu.lists x =
            if st.kind = .cabin then none
            else some (screenList t.sms.nodes t.pgu.programme t.pgu.states t.pgu.view t.pgu.offset now st))
      ∧ t.rsv.waiting.Pairwise (fun a b => ClaimBefore t.pgu.programme a.who b.who)
      ∧ ((s.msc.state = .standby → t.msc.state = .standby) →
          (t.sms.epoch = s.sms.epoch → ClaimsServed (desiredClaims t) s t)
          ∧ (t.sms.epoch ≠ s.sms.epoch → ∀ risen,
              risen = (s.rsv.slots.map fun sl =>
                if sl.state = .ready ∨ sl.state = .solving then { sl with state := .queued } else sl) →
              ClaimsServed (desiredClaims t) { s with rsv := { s.rsv with slots := solverSelect risen } } t))
      ∧ t.pgu.lastTime = some (((now + t.pgu.offset) % 1440).toNat, ((now + t.pgu.offset) / 1440).toNat)
      ∧ (∀ i, i ∈ t.pco.active ↔ ∃ j, (i, j) ∈ t.pco.interjections ∧ j.start ≤ now ∧ now < j.stop)

/-- The held form of a record (R2 to R15, R47, R51, R109, R114, R115, R191, R194, R198): every field from its offset,
little-endian, signed where the layout says so, a clamped field at the nearer end of its range, a field that does not apply
to the kind empty, and the Settings record of zeros as the defaults. A list of bytes that is too short reads as padded with
0 (log 26). -/
def Obligations.HeldForms : Prop :=
  (∀ (bs : List Byte) (o : Nat), u16 bs o = u8 bs o + 256 * u8 bs (o + 1)
      ∧ u32 bs o = u8 bs o + 256 * u8 bs (o + 1) + 65536 * u8 bs (o + 2) + 16777216 * u8 bs (o + 3)
      ∧ i16 bs o = if u16 bs o < 32768 then (u16 bs o : Int) else (u16 bs o : Int) - 65536)
  ∧ (∀ bs : List Byte, (parseNode bs).deck = u8 bs 1)
  ∧ (∀ (bs : List Byte) (e : EdgeRec), e = parseEdge bs →
      (∀ k, edgeKindOf (u8 bs 1) = some k → e.kind = k) ∧ (∀ r, riseOf (u8 bs 2) = some r → e.rise = r)
      ∧ (∀ p, passageOf (u8 bs 3) = some p → e.passage = p) ∧ e.nodeA = u16 bs 4 ∧ e.nodeB = u16 bs 6
      ∧ e.length = max 1 (min 4000 (u16 bs 8)) ∧ e.group = u8 bs 10)
  ∧ (∀ (bs : List Byte) (st : StationRec), st = parseStation bs →
      (∀ k, stationKindOf (u8 bs 1) = some k → st.kind = k) ∧ st.node = u16 bs 2 ∧ TextHeld bs 4 8 st.label
      ∧ (st.essential = true ↔ u8 bs 13 = 1) ∧ st.exits.length = min 8 (u8 bs 12)
      ∧ (∀ i, i < min 8 (u8 bs 12) → ∃ a, st.exits[i]? = some (u16 bs (32 + 4 * i), a)
          ∧ ∀ c, exitCodeOf (u8 bs (34 + 4 * i)) = some c → a = c)
      ∧ (u8 bs 1 = 1 → st.assigned = u8 bs 14 ∧ st.rotation = 0 ∧ st.tag = 0 ∧ st.selMask = 0 ∧ st.selValue = 0
          ∧ st.landmarks = [] ∧ st.served = [])
      ∧ (u8 bs 1 = 2 ∨ u8 bs 1 = 3 → st.assigned = 0 ∧ st.rotation = u8 bs 15
          ∧ st.tag.toNat = u16 bs 16 ∧ st.selMask.toNat = u16 bs 18 ∧ st.selValue.toNat = u16 bs 20
          ∧ st.served.length = min 2 (u8 bs 23) ∧ ∀ i, i < min 2 (u8 bs 23) → st.served[i]? = some (u8 bs (28 + i)))
      ∧ (u8 bs 1 = 2 → st.landmarks.length = min 4 (u8 bs 22)
          ∧ ∀ i, i < min 4 (u8 bs 22) → st.landmarks[i]? = some (u8 bs (24 + i)))
      ∧ (u8 bs 1 = 3 → st.landmarks = []))
  ∧ (∀ (bs : List Byte) (k : MusterRec), k = parseMuster bs →
      (k.isOpen = true ↔ u8 bs 1 = 0) ∧ k.node = u16 bs 2 ∧ TextHeld bs 8 16 k.label
      ∧ k.alternate = if u8 bs 4 = 255 then none else some (u8 bs 4))
  ∧ (∀ (bs : List Byte) (l : LandmarkRec), l = parseLandmark bs → l.node = u16 bs 2 ∧ TextHeld bs 4 16 l.label)
  ∧ (∀ (bs : List Byte) (e : ProgRec), e = parseProgramme bs →
      (∀ c, categoryOf (u8 bs 1) = some c → e.category = c) ∧ (e.cancelled = true ↔ u8 bs 2 = 1)
      ∧ e.start = min 71582788 (u32 bs 4) ∧ e.duration = max 1 (min 1440 (u16 bs 8))
      ∧ e.venue = (if u16 bs 10 = 65535 then none else some (u16 bs 10)) ∧ e.audience.toNat = u16 bs 12
      ∧ TextHeld bs 16 16 e.venueLabel ∧ TextHeld bs 32 32 e.title)
  ∧ (∀ (bs : List Byte) (q : RotationRec), q = parseRotation bs → q.steps.length = 8
      ∧ ∀ k d, k < 8 → d = max 2 (min 120 (u8 bs (4 + 8 * k + 2))) → ∃ st, q.steps[k]? = some st
        ∧ (u8 bs (4 + 8 * k) = 0 → st = .empty) ∧ (u8 bs (4 + 8 * k) = 1 → st = .programme d)
        ∧ (u8 bs (4 + 8 * k) = 2 → st = .landmarks d)
        ∧ (u8 bs (4 + 8 * k) = 3 → st = .notice (u8 bs (4 + 8 * k + 1)) d)
        ∧ (u8 bs (4 + 8 * k) = 4 → st = .loop (u8 bs (4 + 8 * k + 3)) (max 1 (min 15 (u8 bs (4 + 8 * k + 4))))))
  ∧ (∀ (bs : List Byte) (n : NoticeRec), n = parseNotice bs →
      n.dest = (if u16 bs 2 = 65535 then none else some (u16 bs 2)) ∧ n.lines.length = 4
      ∧ ∀ i, i < 4 → ∃ l, n.lines[i]? = some l ∧ TextHeld bs (4 + 40 * i) 40 l)
  ∧ (∀ (bs : List Byte) (j : InterjRec), j = parseInterj bs →
      j.notice = u8 bs 1 ∧ (j.hold = true ↔ u8 bs 2 = 1) ∧ j.tagMask.toNat = u16 bs 4 ∧ j.tagValue.toNat = u16 bs 6
      ∧ j.start = min 71582788 (u32 bs 8) ∧ j.stop = min 71582788 (u32 bs 12) ∧ j.period = min 240 (u16 bs 16)
      ∧ j.dwell = max 2 (min 120 (u8 bs 18)))
  ∧ (∀ (bs : List Byte) (c : ClockRec), c = parseClock bs →
      c.newOffset = max (-720) (min 840 (i16 bs 2)) ∧ c.atMinute = min 71582788 (u32 bs 4))
  ∧ (∀ (bs : List Byte) (c : Settings), c = parseSettings bs →
      (zeroBytes bs 0 32 = true → c =
        { normal := { corridor := 4, stairUp := 10, stairDown := 7, lift := 4, exterior := 5, liftFixed := 600 }
          muster := { corridor := 4, stairUp := 8, stairDown := 6, lift := 0, exterior := 4, liftFixed := 0 }
          walkRate := 720, initialOffset := 0, lead := 30, linger := 5, alarmSense := .level, missLimit := 4
          refreshInterval := 30, fullRefreshPeriod := 8 })
      ∧ (zeroBytes bs 0 32 = false →
        c.normal =
          { corridor := min 15 (u8 bs 0), stairUp := min 15 (u8 bs 1), stairDown := min 15 (u8 bs 2)
            lift := min 15 (u8 bs 3), exterior := min 15 (u8 bs 4), liftFixed := min 2000 (u16 bs 12) }
        ∧ c.muster =
          { corridor := min 15 (u8 bs 5), stairUp := min 15 (u8 bs 6), stairDown := min 15 (u8 bs 7)
            lift := min 15 (u8 bs 8), exterior := min 15 (u8 bs 9), liftFixed := min 2000 (u16 bs 14) }
        ∧ c.walkRate = max 300 (min 1500 (u16 bs 16)) ∧ c.initialOffset = max (-720) (min 840 (i16 bs 18))
        ∧ c.lead = max 5 (min 180 (u8 bs 20)) ∧ c.linger = min 30 (u8 bs 21)
        ∧ (∀ a, alarmSenseOf (u8 bs 22) = some a → c.alarmSense = a) ∧ c.missLimit = max 2 (min 15 (u8 bs 23))
        ∧ c.refreshInterval = max 5 (min 600 (u16 bs 24)) ∧ c.fullRefreshPeriod = max 2 (min 32 (u8 bs 26))))
  ∧ (List.range 5).map stationKindOf = [none, some .cabin, some .waypoint, some .lobby, none]
  ∧ (List.range 5).map edgeKindOf = [some .corridor, some .stair, some .lift, some .exterior, none]
  ∧ (List.range 4).map riseOf = [some .level, some .aUp, some .aDown, none]
  ∧ (List.range 4).map passageOf = [some .both, some .aToB, some .bToA, none]
  ∧ (List.range 9).map categoryOf = [some .show_, some .dining, some .activity, some .excursion, some .talk, some .port
      , some .family, some .other, none]
  ∧ (List.range 3).map alarmSenseOf = [some .level, some .edge, none]
  ∧ (List.range 11).map exitCodeOf = [some .ahead, some .aheadLeft, some .left, some .backLeft, some .back
      , some .backRight, some .right, some .aheadRight, some .up, some .down, none]

/-! ## The whole machine -/

/-- What holds right after reset: every promise of Safety.lean. -/
def Obligations.PromisesAtReset : Prop :=
  MusterCoherent State.reset ∧ AlarmAnswered State.reset ∧ EditionsOrdered State.reset ∧ PendingBounded State.reset
    ∧ SolverSelects State.reset ∧ SlotsHeld State.reset ∧ RegistersInRange State.reset ∧ TablesCanonical State.reset
    ∧ RecordsInRange State.reset

/-- Every step keeps kind, timers and map in line with the muster state (section 4.3, R70 to R75, R83). -/
def Obligations.MusterCoherentKept : Prop :=
  ∀ s t : State, MusterCoherent s → step s = .next t → MusterCoherent t

/-- Under LEVEL an asserted alarm has a REAL muster called, before and after every step (R66, R68, R74). -/
def Obligations.AlarmAnsweredKept : Prop :=
  ∀ s t : State, AlarmAnswered s → step s = .next t → AlarmAnswered t

/-- Every step keeps the edition numbers in order, and never lowers the applied edition but by a reset (R159, R160). -/
def Obligations.EditionsOrderedKept : Prop :=
  ∀ s t : State, EditionsOrdered s → step s = .next t →
    EditionsOrdered t ∧ (s.pending.head?.map isReset ≠ some true → s.xu.applied ≤ t.xu.applied)

/-- Every step keeps each pending count in 0 to 63 (R151). -/
def Obligations.PendingBoundedKept : Prop :=
  ∀ s t : State, PendingBounded s → step s = .next t → PendingBounded t

/-- Every step keeps the solver on one slot at most and at work while a slot is QUEUED, with 64 slots, 8 lines and a holder
for every slot in use (R26, R36, R124). -/
def Obligations.SolverSelectsKept : Prop :=
  ∀ s t : State, SolverSelects s → SlotsHeld s → step s = .next t → SolverSelects t ∧ SlotsHeld t

/-- Every step keeps the held registers and live words inside their fields (R17, R177, R178). -/
def Obligations.RegistersInRangeKept : Prop :=
  ∀ s t : State, RegistersInRange s → step s = .next t → RegistersInRange t

/-- Every step keeps every table in the model's canonical form (log 37): indices rise strictly. -/
def Obligations.TablesCanonicalKept : Prop :=
  ∀ s t : State, TablesCanonical s → step s = .next t → TablesCanonical t

/-- Every step keeps every held record inside the ranges that its rule gives: edge ends are nodes of the table and lengths 1
to 4000 dm, weights at most 15 and lift fixed costs at most 2000, and each other table's and Settings' ranges (R3 to R15,
R47, R51, R109, R114, R115); rotation 0 is never in use.
`TablesCanonical` is an invariant of the model. -/
def Obligations.RecordsInRangeKept : Prop :=
  ∀ s t : State, RecordsInRange s → TablesCanonical s → step s = .next t → RecordsInRange t

/-- No command but the completion of a validation and the resets changes a table or the applied edition (R1, R169, R171,
R173). -/
def Obligations.TablesOnlyByCommit : Prop :=
  ∀ (c : Instr) (s t : State), isReset c = false → c ≠ .validationDone → exec c s = .next t → SameTables s t

/-- A station's confirmed page changes only through a STATE answer from that station, or a reset of the part (R134, R138). -/
def Obligations.ConfirmedOnlyByState : Prop :=
  ∀ (c : Instr) (s t : State), isReset c = false → exec c s = .next t →
    ∀ x, confirmedPage t x = confirmedPage s x
      ∨ ∃ n flags serial service assist tx, c = .stateAnswer n flags serial service assist
          ∧ (lineAt s.lcs n).txn = some tx ∧ tx.station = x
end

