-- ==== Sys2Proof/Laws/State.lean ====
section
/-! SUPPORT. One lemma per field per operation: what an operation on the whole part leaves as it was. -/

namespace Sys2Proof.Machine

@[simp] theorem claimOp_phase (s : State) :
    (claimOp s).phase = s.phase := rfl
@[simp] theorem claimOp_resetLeft (s : State) :
    (claimOp s).resetLeft = s.resetLeft := rfl
@[simp] theorem claimOp_clk (s : State) :
    (claimOp s).clk = s.clk := rfl
@[simp] theorem claimOp_sms (s : State) :
    (claimOp s).sms = s.sms := rfl
@[simp] theorem claimOp_pgu (s : State) :
    (claimOp s).pgu = s.pgu := rfl
@[simp] theorem claimOp_msc (s : State) :
    (claimOp s).msc = s.msc := rfl
@[simp] theorem claimOp_pco (s : State) :
    (claimOp s).pco = s.pco := rfl
@[simp] theorem claimOp_lcs (s : State) :
    (claimOp s).lcs = s.lcs := rfl
@[simp] theorem claimOp_pending (s : State) :
    (claimOp s).pending = s.pending := rfl
@[simp] theorem claimOp_periods (s : State) :
    (claimOp s).periods = s.periods := rfl
@[simp] theorem raiseEpoch_phase (s : State) :
    (raiseEpoch s).phase = s.phase := rfl
@[simp] theorem raiseEpoch_resetLeft (s : State) :
    (raiseEpoch s).resetLeft = s.resetLeft := rfl
@[simp] theorem raiseEpoch_clk (s : State) :
    (raiseEpoch s).clk = s.clk := rfl
@[simp] theorem raiseEpoch_pgu (s : State) :
    (raiseEpoch s).pgu = s.pgu := rfl
@[simp] theorem raiseEpoch_msc (s : State) :
    (raiseEpoch s).msc = s.msc := rfl
@[simp] theorem raiseEpoch_pco (s : State) :
    (raiseEpoch s).pco = s.pco := rfl
@[simp] theorem raiseEpoch_lcs (s : State) :
    (raiseEpoch s).lcs = s.lcs := rfl
@[simp] theorem raiseEpoch_xu (s : State) :
    (raiseEpoch s).xu = s.xu := rfl
@[simp] theorem raiseEpoch_pending (s : State) :
    (raiseEpoch s).pending = s.pending := rfl
@[simp] theorem raiseEpoch_periods (s : State) :
    (raiseEpoch s).periods = s.periods := rfl
@[simp] theorem finishSolve_phase (s : State) :
    (finishSolve s).phase = s.phase := rfl
@[simp] theorem finishSolve_resetLeft (s : State) :
    (finishSolve s).resetLeft = s.resetLeft := rfl
@[simp] theorem finishSolve_clk (s : State) :
    (finishSolve s).clk = s.clk := rfl
@[simp] theorem finishSolve_sms (s : State) :
    (finishSolve s).sms = s.sms := rfl
@[simp] theorem finishSolve_pgu (s : State) :
    (finishSolve s).pgu = s.pgu := rfl
@[simp] theorem finishSolve_msc (s : State) :
    (finishSolve s).msc = s.msc := rfl
@[simp] theorem finishSolve_pco (s : State) :
    (finishSolve s).pco = s.pco := rfl
@[simp] theorem finishSolve_lcs (s : State) :
    (finishSolve s).lcs = s.lcs := rfl
@[simp] theorem finishSolve_xu (s : State) :
    (finishSolve s).xu = s.xu := rfl
@[simp] theorem finishSolve_pending (s : State) :
    (finishSolve s).pending = s.pending := rfl
@[simp] theorem finishSolve_periods (s : State) :
    (finishSolve s).periods = s.periods := rfl
@[simp] theorem recomputeMap_phase (s : State) :
    (recomputeMap s).phase = s.phase := rfl
@[simp] theorem recomputeMap_resetLeft (s : State) :
    (recomputeMap s).resetLeft = s.resetLeft := rfl
@[simp] theorem recomputeMap_clk (s : State) :
    (recomputeMap s).clk = s.clk := rfl
@[simp] theorem recomputeMap_sms (s : State) :
    (recomputeMap s).sms = s.sms := rfl
@[simp] theorem recomputeMap_rsv (s : State) :
    (recomputeMap s).rsv = s.rsv := rfl
@[simp] theorem recomputeMap_pgu (s : State) :
    (recomputeMap s).pgu = s.pgu := rfl
@[simp] theorem recomputeMap_pco (s : State) :
    (recomputeMap s).pco = s.pco := rfl
@[simp] theorem recomputeMap_lcs (s : State) :
    (recomputeMap s).lcs = s.lcs := rfl
@[simp] theorem recomputeMap_xu (s : State) :
    (recomputeMap s).xu = s.xu := rfl
@[simp] theorem recomputeMap_pending (s : State) :
    (recomputeMap s).pending = s.pending := rfl
@[simp] theorem recomputeMap_periods (s : State) :
    (recomputeMap s).periods = s.periods := rfl
@[simp] theorem composeMarked_phase (m : List Nat) (s : State) :
    (composeMarked m s).phase = s.phase := rfl
@[simp] theorem composeMarked_resetLeft (m : List Nat) (s : State) :
    (composeMarked m s).resetLeft = s.resetLeft := rfl
@[simp] theorem composeMarked_clk (m : List Nat) (s : State) :
    (composeMarked m s).clk = s.clk := rfl
@[simp] theorem composeMarked_sms (m : List Nat) (s : State) :
    (composeMarked m s).sms = s.sms := rfl
@[simp] theorem composeMarked_rsv (m : List Nat) (s : State) :
    (composeMarked m s).rsv = s.rsv := rfl
@[simp] theorem composeMarked_pgu (m : List Nat) (s : State) :
    (composeMarked m s).pgu = s.pgu := rfl
@[simp] theorem composeMarked_msc (m : List Nat) (s : State) :
    (composeMarked m s).msc = s.msc := rfl
@[simp] theorem composeMarked_lcs (m : List Nat) (s : State) :
    (composeMarked m s).lcs = s.lcs := rfl
@[simp] theorem composeMarked_pending (m : List Nat) (s : State) :
    (composeMarked m s).pending = s.pending := rfl
@[simp] theorem composeMarked_periods (m : List Nat) (s : State) :
    (composeMarked m s).periods = s.periods := rfl
@[simp] theorem pairNotices_phase (p : List Pair) (s : State) :
    (pairNotices p s).phase = s.phase := rfl
@[simp] theorem pairNotices_resetLeft (p : List Pair) (s : State) :
    (pairNotices p s).resetLeft = s.resetLeft := rfl
@[simp] theorem pairNotices_clk (p : List Pair) (s : State) :
    (pairNotices p s).clk = s.clk := rfl
@[simp] theorem pairNotices_sms (p : List Pair) (s : State) :
    (pairNotices p s).sms = s.sms := rfl
@[simp] theorem pairNotices_rsv (p : List Pair) (s : State) :
    (pairNotices p s).rsv = s.rsv := rfl
@[simp] theorem pairNotices_pgu (p : List Pair) (s : State) :
    (pairNotices p s).pgu = s.pgu := rfl
@[simp] theorem pairNotices_msc (p : List Pair) (s : State) :
    (pairNotices p s).msc = s.msc := rfl
@[simp] theorem pairNotices_lcs (p : List Pair) (s : State) :
    (pairNotices p s).lcs = s.lcs := rfl
@[simp] theorem pairNotices_pending (p : List Pair) (s : State) :
    (pairNotices p s).pending = s.pending := rfl
@[simp] theorem pairNotices_periods (p : List Pair) (s : State) :
    (pairNotices p s).periods = s.periods := rfl
@[simp] theorem pageBlocks_phase (t s : State) :
    (pageBlocks t s).phase = s.phase := rfl
@[simp] theorem pageBlocks_resetLeft (t s : State) :
    (pageBlocks t s).resetLeft = s.resetLeft := rfl
@[simp] theorem pageBlocks_clk (t s : State) :
    (pageBlocks t s).clk = s.clk := rfl
@[simp] theorem pageBlocks_sms (t s : State) :
    (pageBlocks t s).sms = s.sms := rfl
@[simp] theorem pageBlocks_rsv (t s : State) :
    (pageBlocks t s).rsv = s.rsv := rfl
@[simp] theorem pageBlocks_pgu (t s : State) :
    (pageBlocks t s).pgu = s.pgu := rfl
@[simp] theorem pageBlocks_msc (t s : State) :
    (pageBlocks t s).msc = s.msc := rfl
@[simp] theorem pageBlocks_lcs (t s : State) :
    (pageBlocks t s).lcs = s.lcs := rfl
@[simp] theorem pageBlocks_pending (t s : State) :
    (pageBlocks t s).pending = s.pending := rfl
@[simp] theorem pageBlocks_periods (t s : State) :
    (pageBlocks t s).periods = s.periods := rfl
@[simp] theorem timeNotice_phase (g : PguState) (s : State) :
    (timeNotice g s).phase = s.phase := by simp only [timeNotice, pageBlocks_phase]
@[simp] theorem timeNotice_resetLeft (g : PguState) (s : State) :
    (timeNotice g s).resetLeft = s.resetLeft := by simp only [timeNotice, pageBlocks_resetLeft]
@[simp] theorem timeNotice_clk (g : PguState) (s : State) :
    (timeNotice g s).clk = s.clk := by simp only [timeNotice, pageBlocks_clk]
@[simp] theorem timeNotice_sms (g : PguState) (s : State) :
    (timeNotice g s).sms = s.sms := by simp only [timeNotice, pageBlocks_sms]
@[simp] theorem timeNotice_rsv (g : PguState) (s : State) :
    (timeNotice g s).rsv = s.rsv := by simp only [timeNotice, pageBlocks_rsv]
@[simp] theorem timeNotice_pgu (g : PguState) (s : State) :
    (timeNotice g s).pgu = s.pgu := by simp only [timeNotice, pageBlocks_pgu]
@[simp] theorem timeNotice_msc (g : PguState) (s : State) :
    (timeNotice g s).msc = s.msc := by simp only [timeNotice, pageBlocks_msc]
@[simp] theorem timeNotice_lcs (g : PguState) (s : State) :
    (timeNotice g s).lcs = s.lcs := by simp only [timeNotice, pageBlocks_lcs]
@[simp] theorem timeNotice_pending (g : PguState) (s : State) :
    (timeNotice g s).pending = s.pending := by simp only [timeNotice, pageBlocks_pending]
@[simp] theorem timeNotice_periods (g : PguState) (s : State) :
    (timeNotice g s).periods = s.periods := by simp only [timeNotice, pageBlocks_periods]
@[simp] theorem listNotices_phase (g : PguState) (l : List Nat) (s : State) :
    (listNotices g l s).phase = s.phase := by simp only [listNotices, pageBlocks_phase]
@[simp] theorem listNotices_resetLeft (g : PguState) (l : List Nat) (s : State) :
    (listNotices g l s).resetLeft = s.resetLeft := by simp only [listNotices, pageBlocks_resetLeft]
@[simp] theorem listNotices_clk (g : PguState) (l : List Nat) (s : State) :
    (listNotices g l s).clk = s.clk := by simp only [listNotices, pageBlocks_clk]
@[simp] theorem listNotices_sms (g : PguState) (l : List Nat) (s : State) :
    (listNotices g l s).sms = s.sms := by simp only [listNotices, pageBlocks_sms]
@[simp] theorem listNotices_rsv (g : PguState) (l : List Nat) (s : State) :
    (listNotices g l s).rsv = s.rsv := by simp only [listNotices, pageBlocks_rsv]
@[simp] theorem listNotices_pgu (g : PguState) (l : List Nat) (s : State) :
    (listNotices g l s).pgu = s.pgu := by simp only [listNotices, pageBlocks_pgu]
@[simp] theorem listNotices_msc (g : PguState) (l : List Nat) (s : State) :
    (listNotices g l s).msc = s.msc := by simp only [listNotices, pageBlocks_msc]
@[simp] theorem listNotices_lcs (g : PguState) (l : List Nat) (s : State) :
    (listNotices g l s).lcs = s.lcs := by simp only [listNotices, pageBlocks_lcs]
@[simp] theorem listNotices_pending (g : PguState) (l : List Nat) (s : State) :
    (listNotices g l s).pending = s.pending := by simp only [listNotices, pageBlocks_pending]
@[simp] theorem listNotices_periods (g : PguState) (l : List Nat) (s : State) :
    (listNotices g l s).periods = s.periods := by simp only [listNotices, pageBlocks_periods]
@[simp] theorem mapNotices_phase (c : MscState) (s : State) :
    (mapNotices c s).phase = s.phase := by simp only [mapNotices, pageBlocks_phase]
@[simp] theorem mapNotices_resetLeft (c : MscState) (s : State) :
    (mapNotices c s).resetLeft = s.resetLeft := by simp only [mapNotices, pageBlocks_resetLeft]
@[simp] theorem mapNotices_clk (c : MscState) (s : State) :
    (mapNotices c s).clk = s.clk := by simp only [mapNotices, pageBlocks_clk]
@[simp] theorem mapNotices_sms (c : MscState) (s : State) :
    (mapNotices c s).sms = s.sms := by simp only [mapNotices, pageBlocks_sms]
@[simp] theorem mapNotices_rsv (c : MscState) (s : State) :
    (mapNotices c s).rsv = s.rsv := by simp only [mapNotices, pageBlocks_rsv]
@[simp] theorem mapNotices_pgu (c : MscState) (s : State) :
    (mapNotices c s).pgu = s.pgu := by simp only [mapNotices, pageBlocks_pgu]
@[simp] theorem mapNotices_msc (c : MscState) (s : State) :
    (mapNotices c s).msc = s.msc := by simp only [mapNotices, pageBlocks_msc]
@[simp] theorem mapNotices_lcs (c : MscState) (s : State) :
    (mapNotices c s).lcs = s.lcs := by simp only [mapNotices, pageBlocks_lcs]
@[simp] theorem mapNotices_pending (c : MscState) (s : State) :
    (mapNotices c s).pending = s.pending := by simp only [mapNotices, pageBlocks_pending]
@[simp] theorem mapNotices_periods (c : MscState) (s : State) :
    (mapNotices c s).periods = s.periods := by simp only [mapNotices, pageBlocks_periods]
@[simp] theorem surveyWrites_phase (n : Nat) (s : State) :
    (surveyWrites n s).phase = s.phase := rfl
@[simp] theorem surveyWrites_resetLeft (n : Nat) (s : State) :
    (surveyWrites n s).resetLeft = s.resetLeft := rfl
@[simp] theorem surveyWrites_clk (n : Nat) (s : State) :
    (surveyWrites n s).clk = s.clk := rfl
@[simp] theorem surveyWrites_sms (n : Nat) (s : State) :
    (surveyWrites n s).sms = s.sms := rfl
@[simp] theorem surveyWrites_rsv (n : Nat) (s : State) :
    (surveyWrites n s).rsv = s.rsv := rfl
@[simp] theorem surveyWrites_pgu (n : Nat) (s : State) :
    (surveyWrites n s).pgu = s.pgu := rfl
@[simp] theorem surveyWrites_msc (n : Nat) (s : State) :
    (surveyWrites n s).msc = s.msc := rfl
@[simp] theorem surveyWrites_pco (n : Nat) (s : State) :
    (surveyWrites n s).pco = s.pco := rfl
@[simp] theorem surveyWrites_lcs (n : Nat) (s : State) :
    (surveyWrites n s).lcs = s.lcs := rfl
@[simp] theorem surveyWrites_pending (n : Nat) (s : State) :
    (surveyWrites n s).pending = s.pending := rfl
@[simp] theorem surveyWrites_periods (n : Nat) (s : State) :
    (surveyWrites n s).periods = s.periods := rfl
@[simp] theorem flush_phase (s : State) :
    (flush s).phase = s.phase := rfl
@[simp] theorem flush_resetLeft (s : State) :
    (flush s).resetLeft = s.resetLeft := rfl
@[simp] theorem flush_clk (s : State) :
    (flush s).clk = s.clk := rfl
@[simp] theorem flush_sms (s : State) :
    (flush s).sms = s.sms := rfl
@[simp] theorem flush_rsv (s : State) :
    (flush s).rsv = s.rsv := rfl
@[simp] theorem flush_pgu (s : State) :
    (flush s).pgu = s.pgu := rfl
@[simp] theorem flush_msc (s : State) :
    (flush s).msc = s.msc := rfl
@[simp] theorem flush_pco (s : State) :
    (flush s).pco = s.pco := rfl
@[simp] theorem flush_lcs (s : State) :
    (flush s).lcs = s.lcs := rfl
@[simp] theorem flush_pending (s : State) :
    (flush s).pending = s.pending := rfl
@[simp] theorem flush_periods (s : State) :
    (flush s).periods = s.periods := rfl
@[simp] theorem enterRunning_phase (s : State) :
    (enterRunning s).phase = s.phase := rfl
@[simp] theorem enterRunning_resetLeft (s : State) :
    (enterRunning s).resetLeft = s.resetLeft := rfl
@[simp] theorem enterRunning_clk (s : State) :
    (enterRunning s).clk = s.clk := rfl
@[simp] theorem enterRunning_sms (s : State) :
    (enterRunning s).sms = s.sms := rfl
@[simp] theorem enterRunning_rsv (s : State) :
    (enterRunning s).rsv = s.rsv := rfl
@[simp] theorem enterRunning_pgu (s : State) :
    (enterRunning s).pgu = s.pgu := rfl
@[simp] theorem enterRunning_msc (s : State) :
    (enterRunning s).msc = s.msc := rfl
@[simp] theorem enterRunning_pco (s : State) :
    (enterRunning s).pco = s.pco := rfl
@[simp] theorem enterRunning_pending (s : State) :
    (enterRunning s).pending = s.pending := rfl
@[simp] theorem enterRunning_periods (s : State) :
    (enterRunning s).periods = s.periods := rfl
@[simp] theorem beginHalt_phase (s : State) :
    (beginHalt s).phase = s.phase := rfl
@[simp] theorem beginHalt_resetLeft (s : State) :
    (beginHalt s).resetLeft = s.resetLeft := rfl
@[simp] theorem beginHalt_clk (s : State) :
    (beginHalt s).clk = s.clk := rfl
@[simp] theorem beginHalt_sms (s : State) :
    (beginHalt s).sms = s.sms := rfl
@[simp] theorem beginHalt_rsv (s : State) :
    (beginHalt s).rsv = s.rsv := rfl
@[simp] theorem beginHalt_pgu (s : State) :
    (beginHalt s).pgu = s.pgu := rfl
@[simp] theorem beginHalt_msc (s : State) :
    (beginHalt s).msc = s.msc := rfl
@[simp] theorem beginHalt_pco (s : State) :
    (beginHalt s).pco = s.pco := rfl
@[simp] theorem beginHalt_pending (s : State) :
    (beginHalt s).pending = s.pending := rfl
@[simp] theorem beginHalt_periods (s : State) :
    (beginHalt s).periods = s.periods := rfl
@[simp] theorem completeHalt_phase (s : State) :
    (completeHalt s).phase = s.phase := rfl
@[simp] theorem completeHalt_resetLeft (s : State) :
    (completeHalt s).resetLeft = s.resetLeft := rfl
@[simp] theorem completeHalt_clk (s : State) :
    (completeHalt s).clk = s.clk := rfl
@[simp] theorem completeHalt_sms (s : State) :
    (completeHalt s).sms = s.sms := rfl
@[simp] theorem completeHalt_rsv (s : State) :
    (completeHalt s).rsv = s.rsv := rfl
@[simp] theorem completeHalt_pgu (s : State) :
    (completeHalt s).pgu = s.pgu := rfl
@[simp] theorem completeHalt_msc (s : State) :
    (completeHalt s).msc = s.msc := rfl
@[simp] theorem completeHalt_pco (s : State) :
    (completeHalt s).pco = s.pco := rfl
@[simp] theorem completeHalt_lcs (s : State) :
    (completeHalt s).lcs = s.lcs := rfl
@[simp] theorem completeHalt_pending (s : State) :
    (completeHalt s).pending = s.pending := rfl
@[simp] theorem completeHalt_periods (s : State) :
    (completeHalt s).periods = s.periods := rfl
@[simp] theorem musterBlocks_phase (t s : State) :
    (musterBlocks t s).phase = s.phase := rfl
@[simp] theorem musterBlocks_resetLeft (t s : State) :
    (musterBlocks t s).resetLeft = s.resetLeft := rfl
@[simp] theorem musterBlocks_clk (t s : State) :
    (musterBlocks t s).clk = s.clk := rfl
@[simp] theorem musterBlocks_sms (t s : State) :
    (musterBlocks t s).sms = s.sms := rfl
@[simp] theorem musterBlocks_pgu (t s : State) :
    (musterBlocks t s).pgu = s.pgu := rfl
@[simp] theorem musterBlocks_pending (t s : State) :
    (musterBlocks t s).pending = s.pending := rfl
@[simp] theorem musterBlocks_periods (t s : State) :
    (musterBlocks t s).periods = s.periods := rfl
@[simp] theorem reportCause_phase (c : Cause) (s : State) :
    (reportCause c s).phase = s.phase := rfl
@[simp] theorem reportCause_resetLeft (c : Cause) (s : State) :
    (reportCause c s).resetLeft = s.resetLeft := rfl
@[simp] theorem reportCause_clk (c : Cause) (s : State) :
    (reportCause c s).clk = s.clk := rfl
@[simp] theorem reportCause_sms (c : Cause) (s : State) :
    (reportCause c s).sms = s.sms := rfl
@[simp] theorem reportCause_rsv (c : Cause) (s : State) :
    (reportCause c s).rsv = s.rsv := rfl
@[simp] theorem reportCause_pgu (c : Cause) (s : State) :
    (reportCause c s).pgu = s.pgu := rfl
@[simp] theorem reportCause_msc (c : Cause) (s : State) :
    (reportCause c s).msc = s.msc := rfl
@[simp] theorem reportCause_pco (c : Cause) (s : State) :
    (reportCause c s).pco = s.pco := rfl
@[simp] theorem reportCause_lcs (c : Cause) (s : State) :
    (reportCause c s).lcs = s.lcs := rfl
@[simp] theorem reportCause_pending (c : Cause) (s : State) :
    (reportCause c s).pending = s.pending := rfl
@[simp] theorem reportCause_periods (c : Cause) (s : State) :
    (reportCause c s).periods = s.periods := rfl
@[simp] theorem announceMuster_phase (s : State) :
    (announceMuster s).phase = s.phase := rfl
@[simp] theorem announceMuster_resetLeft (s : State) :
    (announceMuster s).resetLeft = s.resetLeft := rfl
@[simp] theorem announceMuster_clk (s : State) :
    (announceMuster s).clk = s.clk := rfl
@[simp] theorem announceMuster_sms (s : State) :
    (announceMuster s).sms = s.sms := rfl
@[simp] theorem announceMuster_rsv (s : State) :
    (announceMuster s).rsv = s.rsv := rfl
@[simp] theorem announceMuster_pgu (s : State) :
    (announceMuster s).pgu = s.pgu := rfl
@[simp] theorem announceMuster_msc (s : State) :
    (announceMuster s).msc = s.msc := rfl
@[simp] theorem announceMuster_lcs (s : State) :
    (announceMuster s).lcs = s.lcs := rfl
@[simp] theorem announceMuster_pending (s : State) :
    (announceMuster s).pending = s.pending := rfl
@[simp] theorem announceMuster_periods (s : State) :
    (announceMuster s).periods = s.periods := rfl
@[simp] theorem enterMustering_phase (s : State) :
    (enterMustering s).phase = s.phase := rfl
@[simp] theorem enterMustering_resetLeft (s : State) :
    (enterMustering s).resetLeft = s.resetLeft := rfl
@[simp] theorem enterMustering_clk (s : State) :
    (enterMustering s).clk = s.clk := rfl
@[simp] theorem enterMustering_sms (s : State) :
    (enterMustering s).sms = s.sms := rfl
@[simp] theorem enterMustering_rsv (s : State) :
    (enterMustering s).rsv = s.rsv := rfl
@[simp] theorem enterMustering_pgu (s : State) :
    (enterMustering s).pgu = s.pgu := rfl
@[simp] theorem enterMustering_lcs (s : State) :
    (enterMustering s).lcs = s.lcs := rfl
@[simp] theorem enterMustering_pending (s : State) :
    (enterMustering s).pending = s.pending := rfl
@[simp] theorem enterMustering_periods (s : State) :
    (enterMustering s).periods = s.periods := rfl
@[simp] theorem completeTest_phase (s : State) :
    (completeTest s).phase = s.phase := rfl
@[simp] theorem completeTest_resetLeft (s : State) :
    (completeTest s).resetLeft = s.resetLeft := rfl
@[simp] theorem completeTest_clk (s : State) :
    (completeTest s).clk = s.clk := rfl
@[simp] theorem completeTest_sms (s : State) :
    (completeTest s).sms = s.sms := rfl
@[simp] theorem completeTest_rsv (s : State) :
    (completeTest s).rsv = s.rsv := rfl
@[simp] theorem completeTest_pgu (s : State) :
    (completeTest s).pgu = s.pgu := rfl
@[simp] theorem completeTest_lcs (s : State) :
    (completeTest s).lcs = s.lcs := rfl
@[simp] theorem completeTest_pending (s : State) :
    (completeTest s).pending = s.pending := rfl
@[simp] theorem completeTest_periods (s : State) :
    (completeTest s).periods = s.periods := rfl
@[simp] theorem callMuster_phase (k : MusterKind) (s : State) :
    (callMuster k s).phase = s.phase := by simp only [callMuster, musterBlocks_phase]
@[simp] theorem callMuster_resetLeft (k : MusterKind) (s : State) :
    (callMuster k s).resetLeft = s.resetLeft := by simp only [callMuster, musterBlocks_resetLeft]
@[simp] theorem callMuster_clk (k : MusterKind) (s : State) :
    (callMuster k s).clk = s.clk := by simp only [callMuster, musterBlocks_clk]
@[simp] theorem callMuster_sms (k : MusterKind) (s : State) :
    (callMuster k s).sms = s.sms := by simp only [callMuster, musterBlocks_sms]
@[simp] theorem callMuster_pgu (k : MusterKind) (s : State) :
    (callMuster k s).pgu = s.pgu := by simp only [callMuster, musterBlocks_pgu]
@[simp] theorem callMuster_pending (k : MusterKind) (s : State) :
    (callMuster k s).pending = s.pending := by simp only [callMuster, musterBlocks_pending]
@[simp] theorem callMuster_periods (k : MusterKind) (s : State) :
    (callMuster k s).periods = s.periods := by simp only [callMuster, musterBlocks_periods]
@[simp] theorem escalate_phase (s : State) :
    (escalate s).phase = s.phase := by simp only [escalate, musterBlocks_phase]
@[simp] theorem escalate_resetLeft (s : State) :
    (escalate s).resetLeft = s.resetLeft := by simp only [escalate, musterBlocks_resetLeft]
@[simp] theorem escalate_clk (s : State) :
    (escalate s).clk = s.clk := by simp only [escalate, musterBlocks_clk]
@[simp] theorem escalate_sms (s : State) :
    (escalate s).sms = s.sms := by simp only [escalate, musterBlocks_sms]
@[simp] theorem escalate_pgu (s : State) :
    (escalate s).pgu = s.pgu := by simp only [escalate, musterBlocks_pgu]
@[simp] theorem escalate_pending (s : State) :
    (escalate s).pending = s.pending := by simp only [escalate, musterBlocks_pending]
@[simp] theorem escalate_periods (s : State) :
    (escalate s).periods = s.periods := by simp only [escalate, musterBlocks_periods]
@[simp] theorem levelTest_phase (s : State) :
    (levelTest s).phase = s.phase := by simp only [levelTest, musterBlocks_phase]
@[simp] theorem levelTest_resetLeft (s : State) :
    (levelTest s).resetLeft = s.resetLeft := by simp only [levelTest, musterBlocks_resetLeft]
@[simp] theorem levelTest_clk (s : State) :
    (levelTest s).clk = s.clk := by simp only [levelTest, musterBlocks_clk]
@[simp] theorem levelTest_sms (s : State) :
    (levelTest s).sms = s.sms := by simp only [levelTest, musterBlocks_sms]
@[simp] theorem levelTest_pgu (s : State) :
    (levelTest s).pgu = s.pgu := by simp only [levelTest, musterBlocks_pgu]
@[simp] theorem levelTest_pending (s : State) :
    (levelTest s).pending = s.pending := by simp only [levelTest, musterBlocks_pending]
@[simp] theorem levelTest_periods (s : State) :
    (levelTest s).periods = s.periods := by simp only [levelTest, musterBlocks_periods]
@[simp] theorem endCalled_phase (s : State) :
    (endCalled s).phase = s.phase := by simp only [endCalled, musterBlocks_phase]
@[simp] theorem endCalled_resetLeft (s : State) :
    (endCalled s).resetLeft = s.resetLeft := by simp only [endCalled, musterBlocks_resetLeft]
@[simp] theorem endCalled_clk (s : State) :
    (endCalled s).clk = s.clk := by simp only [endCalled, musterBlocks_clk]
@[simp] theorem endCalled_sms (s : State) :
    (endCalled s).sms = s.sms := by simp only [endCalled, musterBlocks_sms]
@[simp] theorem endCalled_pgu (s : State) :
    (endCalled s).pgu = s.pgu := by simp only [endCalled, musterBlocks_pgu]
@[simp] theorem endCalled_pending (s : State) :
    (endCalled s).pending = s.pending := by simp only [endCalled, musterBlocks_pending]
@[simp] theorem endCalled_periods (s : State) :
    (endCalled s).periods = s.periods := by simp only [endCalled, musterBlocks_periods]
@[simp] theorem recount_phase (s : State) :
    (recount s).phase = s.phase := by simp only [recount, musterBlocks_phase]
@[simp] theorem recount_resetLeft (s : State) :
    (recount s).resetLeft = s.resetLeft := by simp only [recount, musterBlocks_resetLeft]
@[simp] theorem recount_clk (s : State) :
    (recount s).clk = s.clk := by simp only [recount, musterBlocks_clk]
@[simp] theorem recount_sms (s : State) :
    (recount s).sms = s.sms := by simp only [recount, musterBlocks_sms]
@[simp] theorem recount_pgu (s : State) :
    (recount s).pgu = s.pgu := by simp only [recount, musterBlocks_pgu]
@[simp] theorem recount_pending (s : State) :
    (recount s).pending = s.pending := by simp only [recount, musterBlocks_pending]
@[simp] theorem recount_periods (s : State) :
    (recount s).periods = s.periods := by simp only [recount, musterBlocks_periods]
@[simp] theorem withOutcome_phase (o : OrderOutcome) (s : State) :
    (withOutcome o s).phase = s.phase := rfl
@[simp] theorem withOutcome_resetLeft (o : OrderOutcome) (s : State) :
    (withOutcome o s).resetLeft = s.resetLeft := rfl
@[simp] theorem withOutcome_clk (o : OrderOutcome) (s : State) :
    (withOutcome o s).clk = s.clk := rfl
@[simp] theorem withOutcome_sms (o : OrderOutcome) (s : State) :
    (withOutcome o s).sms = s.sms := rfl
@[simp] theorem withOutcome_rsv (o : OrderOutcome) (s : State) :
    (withOutcome o s).rsv = s.rsv := rfl
@[simp] theorem withOutcome_pgu (o : OrderOutcome) (s : State) :
    (withOutcome o s).pgu = s.pgu := rfl
@[simp] theorem withOutcome_pco (o : OrderOutcome) (s : State) :
    (withOutcome o s).pco = s.pco := rfl
@[simp] theorem withOutcome_lcs (o : OrderOutcome) (s : State) :
    (withOutcome o s).lcs = s.lcs := rfl
@[simp] theorem withOutcome_xu (o : OrderOutcome) (s : State) :
    (withOutcome o s).xu = s.xu := rfl
@[simp] theorem withOutcome_pending (o : OrderOutcome) (s : State) :
    (withOutcome o s).pending = s.pending := rfl
@[simp] theorem withOutcome_periods (o : OrderOutcome) (s : State) :
    (withOutcome o s).periods = s.periods := rfl
@[simp] theorem orderCallReal_phase (s : State) :
    (orderCallReal s).phase = s.phase := by simp only [orderCallReal, musterBlocks_phase]
@[simp] theorem orderCallReal_resetLeft (s : State) :
    (orderCallReal s).resetLeft = s.resetLeft := by simp only [orderCallReal, musterBlocks_resetLeft]
@[simp] theorem orderCallReal_clk (s : State) :
    (orderCallReal s).clk = s.clk := by simp only [orderCallReal, musterBlocks_clk]
@[simp] theorem orderCallReal_sms (s : State) :
    (orderCallReal s).sms = s.sms := by simp only [orderCallReal, musterBlocks_sms]
@[simp] theorem orderCallReal_pgu (s : State) :
    (orderCallReal s).pgu = s.pgu := by simp only [orderCallReal, musterBlocks_pgu]
@[simp] theorem orderCallReal_pending (s : State) :
    (orderCallReal s).pending = s.pending := by simp only [orderCallReal, musterBlocks_pending]
@[simp] theorem orderCallReal_periods (s : State) :
    (orderCallReal s).periods = s.periods := by simp only [orderCallReal, musterBlocks_periods]
@[simp] theorem orderCallDrill_phase (s : State) :
    (orderCallDrill s).phase = s.phase := by simp only [orderCallDrill, musterBlocks_phase]
@[simp] theorem orderCallDrill_resetLeft (s : State) :
    (orderCallDrill s).resetLeft = s.resetLeft := by simp only [orderCallDrill, musterBlocks_resetLeft]
@[simp] theorem orderCallDrill_clk (s : State) :
    (orderCallDrill s).clk = s.clk := by simp only [orderCallDrill, musterBlocks_clk]
@[simp] theorem orderCallDrill_sms (s : State) :
    (orderCallDrill s).sms = s.sms := by simp only [orderCallDrill, musterBlocks_sms]
@[simp] theorem orderCallDrill_pgu (s : State) :
    (orderCallDrill s).pgu = s.pgu := by simp only [orderCallDrill, musterBlocks_pgu]
@[simp] theorem orderCallDrill_pending (s : State) :
    (orderCallDrill s).pending = s.pending := by simp only [orderCallDrill, musterBlocks_pending]
@[simp] theorem orderCallDrill_periods (s : State) :
    (orderCallDrill s).periods = s.periods := by simp only [orderCallDrill, musterBlocks_periods]
@[simp] theorem orderStandDown_phase (s : State) :
    (orderStandDown s).phase = s.phase := by simp only [orderStandDown, musterBlocks_phase]
@[simp] theorem orderStandDown_resetLeft (s : State) :
    (orderStandDown s).resetLeft = s.resetLeft := by simp only [orderStandDown, musterBlocks_resetLeft]
@[simp] theorem orderStandDown_clk (s : State) :
    (orderStandDown s).clk = s.clk := by simp only [orderStandDown, musterBlocks_clk]
@[simp] theorem orderStandDown_sms (s : State) :
    (orderStandDown s).sms = s.sms := by simp only [orderStandDown, musterBlocks_sms]
@[simp] theorem orderStandDown_pgu (s : State) :
    (orderStandDown s).pgu = s.pgu := by simp only [orderStandDown, musterBlocks_pgu]
@[simp] theorem orderStandDown_pending (s : State) :
    (orderStandDown s).pending = s.pending := by simp only [orderStandDown, musterBlocks_pending]
@[simp] theorem orderStandDown_periods (s : State) :
    (orderStandDown s).periods = s.periods := by simp only [orderStandDown, musterBlocks_periods]
@[simp] theorem markMoved_phase (r : Tbl RotState) (s : State) :
    (markMoved r s).phase = s.phase := rfl
@[simp] theorem markMoved_resetLeft (r : Tbl RotState) (s : State) :
    (markMoved r s).resetLeft = s.resetLeft := rfl
@[simp] theorem markMoved_clk (r : Tbl RotState) (s : State) :
    (markMoved r s).clk = s.clk := rfl
@[simp] theorem markMoved_sms (r : Tbl RotState) (s : State) :
    (markMoved r s).sms = s.sms := rfl
@[simp] theorem markMoved_rsv (r : Tbl RotState) (s : State) :
    (markMoved r s).rsv = s.rsv := rfl
@[simp] theorem markMoved_pgu (r : Tbl RotState) (s : State) :
    (markMoved r s).pgu = s.pgu := rfl
@[simp] theorem markMoved_msc (r : Tbl RotState) (s : State) :
    (markMoved r s).msc = s.msc := rfl
@[simp] theorem markMoved_lcs (r : Tbl RotState) (s : State) :
    (markMoved r s).lcs = s.lcs := rfl
@[simp] theorem markMoved_pending (r : Tbl RotState) (s : State) :
    (markMoved r s).pending = s.pending := rfl
@[simp] theorem markMoved_periods (r : Tbl RotState) (s : State) :
    (markMoved r s).periods = s.periods := rfl
@[simp] theorem raiseStandbyAttention_phase (s : State) :
    (raiseStandbyAttention s).phase = s.phase := rfl
@[simp] theorem raiseStandbyAttention_resetLeft (s : State) :
    (raiseStandbyAttention s).resetLeft = s.resetLeft := rfl
@[simp] theorem raiseStandbyAttention_clk (s : State) :
    (raiseStandbyAttention s).clk = s.clk := rfl
@[simp] theorem raiseStandbyAttention_sms (s : State) :
    (raiseStandbyAttention s).sms = s.sms := rfl
@[simp] theorem raiseStandbyAttention_rsv (s : State) :
    (raiseStandbyAttention s).rsv = s.rsv := rfl
@[simp] theorem raiseStandbyAttention_pgu (s : State) :
    (raiseStandbyAttention s).pgu = s.pgu := rfl
@[simp] theorem raiseStandbyAttention_msc (s : State) :
    (raiseStandbyAttention s).msc = s.msc := rfl
@[simp] theorem raiseStandbyAttention_pco (s : State) :
    (raiseStandbyAttention s).pco = s.pco := rfl
@[simp] theorem raiseStandbyAttention_pending (s : State) :
    (raiseStandbyAttention s).pending = s.pending := rfl
@[simp] theorem raiseStandbyAttention_periods (s : State) :
    (raiseStandbyAttention s).periods = s.periods := rfl
@[simp] theorem returnToStandby_phase (s : State) :
    (returnToStandby s).phase = s.phase := by simp only [returnToStandby, musterBlocks_phase]
@[simp] theorem returnToStandby_resetLeft (s : State) :
    (returnToStandby s).resetLeft = s.resetLeft := by simp only [returnToStandby, musterBlocks_resetLeft]
@[simp] theorem returnToStandby_clk (s : State) :
    (returnToStandby s).clk = s.clk := by simp only [returnToStandby, musterBlocks_clk]
@[simp] theorem returnToStandby_sms (s : State) :
    (returnToStandby s).sms = s.sms := by simp only [returnToStandby, musterBlocks_sms]
@[simp] theorem returnToStandby_pgu (s : State) :
    (returnToStandby s).pgu = s.pgu := by simp only [returnToStandby, musterBlocks_pgu]
@[simp] theorem returnToStandby_pending (s : State) :
    (returnToStandby s).pending = s.pending := by simp only [returnToStandby, musterBlocks_pending]
@[simp] theorem returnToStandby_periods (s : State) :
    (returnToStandby s).periods = s.periods := by simp only [returnToStandby, musterBlocks_periods]
@[simp] theorem shedAt_phase (x : Nat) (s : State) :
    (shedAt x s).phase = s.phase := rfl
@[simp] theorem shedAt_resetLeft (x : Nat) (s : State) :
    (shedAt x s).resetLeft = s.resetLeft := rfl
@[simp] theorem shedAt_clk (x : Nat) (s : State) :
    (shedAt x s).clk = s.clk := rfl
@[simp] theorem shedAt_sms (x : Nat) (s : State) :
    (shedAt x s).sms = s.sms := rfl
@[simp] theorem shedAt_rsv (x : Nat) (s : State) :
    (shedAt x s).rsv = s.rsv := rfl
@[simp] theorem shedAt_pgu (x : Nat) (s : State) :
    (shedAt x s).pgu = s.pgu := rfl
@[simp] theorem shedAt_msc (x : Nat) (s : State) :
    (shedAt x s).msc = s.msc := rfl
@[simp] theorem shedAt_pco (x : Nat) (s : State) :
    (shedAt x s).pco = s.pco := rfl
@[simp] theorem shedAt_xu (x : Nat) (s : State) :
    (shedAt x s).xu = s.xu := rfl
@[simp] theorem shedAt_pending (x : Nat) (s : State) :
    (shedAt x s).pending = s.pending := rfl
@[simp] theorem shedAt_periods (x : Nat) (s : State) :
    (shedAt x s).periods = s.periods := rfl
@[simp] theorem shedTests_phase (s : State) :
    (shedTests s).phase = s.phase := rfl
@[simp] theorem shedTests_resetLeft (s : State) :
    (shedTests s).resetLeft = s.resetLeft := rfl
@[simp] theorem shedTests_clk (s : State) :
    (shedTests s).clk = s.clk := rfl
@[simp] theorem shedTests_sms (s : State) :
    (shedTests s).sms = s.sms := rfl
@[simp] theorem shedTests_rsv (s : State) :
    (shedTests s).rsv = s.rsv := rfl
@[simp] theorem shedTests_pgu (s : State) :
    (shedTests s).pgu = s.pgu := rfl
@[simp] theorem shedTests_msc (s : State) :
    (shedTests s).msc = s.msc := rfl
@[simp] theorem shedTests_pco (s : State) :
    (shedTests s).pco = s.pco := rfl
@[simp] theorem shedTests_xu (s : State) :
    (shedTests s).xu = s.xu := rfl
@[simp] theorem shedTests_pending (s : State) :
    (shedTests s).pending = s.pending := rfl
@[simp] theorem shedTests_periods (s : State) :
    (shedTests s).periods = s.periods := rfl
@[simp] theorem reserveBegin_phase (s : State) :
    (reserveBegin s).phase = s.phase := by simp only [reserveBegin, musterBlocks_phase]
@[simp] theorem reserveBegin_resetLeft (s : State) :
    (reserveBegin s).resetLeft = s.resetLeft := by simp only [reserveBegin, musterBlocks_resetLeft]
@[simp] theorem reserveBegin_clk (s : State) :
    (reserveBegin s).clk = s.clk := by simp only [reserveBegin, musterBlocks_clk]
@[simp] theorem reserveBegin_sms (s : State) :
    (reserveBegin s).sms = s.sms := by simp only [reserveBegin, musterBlocks_sms]
@[simp] theorem reserveBegin_pgu (s : State) :
    (reserveBegin s).pgu = s.pgu := by simp only [reserveBegin, musterBlocks_pgu]
@[simp] theorem reserveBegin_pending (s : State) :
    (reserveBegin s).pending = s.pending := by simp only [reserveBegin, musterBlocks_pending]
@[simp] theorem reserveBegin_periods (s : State) :
    (reserveBegin s).periods = s.periods := by simp only [reserveBegin, musterBlocks_periods]
@[simp] theorem reserveFinish_phase (s : State) :
    (reserveFinish s).phase = s.phase := by simp only [reserveFinish, musterBlocks_phase]
@[simp] theorem reserveFinish_resetLeft (s : State) :
    (reserveFinish s).resetLeft = s.resetLeft := by simp only [reserveFinish, musterBlocks_resetLeft]
@[simp] theorem reserveFinish_clk (s : State) :
    (reserveFinish s).clk = s.clk := by simp only [reserveFinish, musterBlocks_clk]
@[simp] theorem reserveFinish_sms (s : State) :
    (reserveFinish s).sms = s.sms := by simp only [reserveFinish, musterBlocks_sms]
@[simp] theorem reserveFinish_pgu (s : State) :
    (reserveFinish s).pgu = s.pgu := by simp only [reserveFinish, musterBlocks_pgu]
@[simp] theorem reserveFinish_pending (s : State) :
    (reserveFinish s).pending = s.pending := by simp only [reserveFinish, musterBlocks_pending]
@[simp] theorem reserveFinish_periods (s : State) :
    (reserveFinish s).periods = s.periods := by simp only [reserveFinish, musterBlocks_periods]
@[simp] theorem takeTurn_phase (n : Nat) (s : State) :
    (takeTurn n s).phase = s.phase := rfl
@[simp] theorem takeTurn_resetLeft (n : Nat) (s : State) :
    (takeTurn n s).resetLeft = s.resetLeft := rfl
@[simp] theorem takeTurn_clk (n : Nat) (s : State) :
    (takeTurn n s).clk = s.clk := rfl
@[simp] theorem takeTurn_sms (n : Nat) (s : State) :
    (takeTurn n s).sms = s.sms := rfl
@[simp] theorem takeTurn_rsv (n : Nat) (s : State) :
    (takeTurn n s).rsv = s.rsv := rfl
@[simp] theorem takeTurn_pgu (n : Nat) (s : State) :
    (takeTurn n s).pgu = s.pgu := rfl
@[simp] theorem takeTurn_msc (n : Nat) (s : State) :
    (takeTurn n s).msc = s.msc := rfl
@[simp] theorem takeTurn_pco (n : Nat) (s : State) :
    (takeTurn n s).pco = s.pco := rfl
@[simp] theorem takeTurn_xu (n : Nat) (s : State) :
    (takeTurn n s).xu = s.xu := rfl
@[simp] theorem takeTurn_pending (n : Nat) (s : State) :
    (takeTurn n s).pending = s.pending := rfl
@[simp] theorem takeTurn_periods (n : Nat) (s : State) :
    (takeTurn n s).periods = s.periods := rfl
@[simp] theorem withRecord_phase (x : Nat) (r : LineRec) (s : State) :
    (withRecord x r s).phase = s.phase := by simp only [withRecord, recount_phase, shedAt_phase]
@[simp] theorem withRecord_resetLeft (x : Nat) (r : LineRec) (s : State) :
    (withRecord x r s).resetLeft = s.resetLeft := by simp only [withRecord, recount_resetLeft, shedAt_resetLeft]
@[simp] theorem withRecord_clk (x : Nat) (r : LineRec) (s : State) :
    (withRecord x r s).clk = s.clk := by simp only [withRecord, recount_clk, shedAt_clk]
@[simp] theorem withRecord_sms (x : Nat) (r : LineRec) (s : State) :
    (withRecord x r s).sms = s.sms := by simp only [withRecord, recount_sms, shedAt_sms]
@[simp] theorem withRecord_pgu (x : Nat) (r : LineRec) (s : State) :
    (withRecord x r s).pgu = s.pgu := by simp only [withRecord, recount_pgu, shedAt_pgu]
@[simp] theorem withRecord_pending (x : Nat) (r : LineRec) (s : State) :
    (withRecord x r s).pending = s.pending := by simp only [withRecord, recount_pending, shedAt_pending]
@[simp] theorem withRecord_periods (x : Nat) (r : LineRec) (s : State) :
    (withRecord x r s).periods = s.periods := by simp only [withRecord, recount_periods, shedAt_periods]
@[simp] theorem finishTxn_phase (n x idle : Nat) (r : LineRec) (s : State) :
    (finishTxn n x idle r s).phase = s.phase := by simp only [finishTxn, withRecord_phase]
@[simp] theorem finishTxn_resetLeft (n x idle : Nat) (r : LineRec) (s : State) :
    (finishTxn n x idle r s).resetLeft = s.resetLeft := by simp only [finishTxn, withRecord_resetLeft]
@[simp] theorem finishTxn_clk (n x idle : Nat) (r : LineRec) (s : State) :
    (finishTxn n x idle r s).clk = s.clk := by simp only [finishTxn, withRecord_clk]
@[simp] theorem finishTxn_sms (n x idle : Nat) (r : LineRec) (s : State) :
    (finishTxn n x idle r s).sms = s.sms := by simp only [finishTxn, withRecord_sms]
@[simp] theorem finishTxn_pgu (n x idle : Nat) (r : LineRec) (s : State) :
    (finishTxn n x idle r s).pgu = s.pgu := by simp only [finishTxn, withRecord_pgu]
@[simp] theorem finishTxn_pending (n x idle : Nat) (r : LineRec) (s : State) :
    (finishTxn n x idle r s).pending = s.pending := by simp only [finishTxn, withRecord_pending]
@[simp] theorem finishTxn_periods (n x idle : Nat) (r : LineRec) (s : State) :
    (finishTxn n x idle r s).periods = s.periods := by simp only [finishTxn, withRecord_periods]
@[simp] theorem countFail_phase (x : Nat) (s : State) :
    (countFail x s).phase = s.phase := rfl
@[simp] theorem countFail_resetLeft (x : Nat) (s : State) :
    (countFail x s).resetLeft = s.resetLeft := rfl
@[simp] theorem countFail_clk (x : Nat) (s : State) :
    (countFail x s).clk = s.clk := rfl
@[simp] theorem countFail_sms (x : Nat) (s : State) :
    (countFail x s).sms = s.sms := rfl
@[simp] theorem countFail_rsv (x : Nat) (s : State) :
    (countFail x s).rsv = s.rsv := rfl
@[simp] theorem countFail_pgu (x : Nat) (s : State) :
    (countFail x s).pgu = s.pgu := rfl
@[simp] theorem countFail_msc (x : Nat) (s : State) :
    (countFail x s).msc = s.msc := rfl
@[simp] theorem countFail_pco (x : Nat) (s : State) :
    (countFail x s).pco = s.pco := rfl
@[simp] theorem countFail_lcs (x : Nat) (s : State) :
    (countFail x s).lcs = s.lcs := rfl
@[simp] theorem countFail_pending (x : Nat) (s : State) :
    (countFail x s).pending = s.pending := rfl
@[simp] theorem countFail_periods (x : Nat) (s : State) :
    (countFail x s).periods = s.periods := rfl
@[simp] theorem rejectEdition_phase (n : Word32) (f : Failure) (s : State) :
    (rejectEdition n f s).phase = s.phase := by simp only [rejectEdition, reportCause_phase]
@[simp] theorem rejectEdition_resetLeft (n : Word32) (f : Failure) (s : State) :
    (rejectEdition n f s).resetLeft = s.resetLeft := by simp only [rejectEdition, reportCause_resetLeft]
@[simp] theorem rejectEdition_clk (n : Word32) (f : Failure) (s : State) :
    (rejectEdition n f s).clk = s.clk := by simp only [rejectEdition, reportCause_clk]
@[simp] theorem rejectEdition_sms (n : Word32) (f : Failure) (s : State) :
    (rejectEdition n f s).sms = s.sms := by simp only [rejectEdition, reportCause_sms]
@[simp] theorem rejectEdition_rsv (n : Word32) (f : Failure) (s : State) :
    (rejectEdition n f s).rsv = s.rsv := by simp only [rejectEdition, reportCause_rsv]
@[simp] theorem rejectEdition_pgu (n : Word32) (f : Failure) (s : State) :
    (rejectEdition n f s).pgu = s.pgu := by simp only [rejectEdition, reportCause_pgu]
@[simp] theorem rejectEdition_msc (n : Word32) (f : Failure) (s : State) :
    (rejectEdition n f s).msc = s.msc := by simp only [rejectEdition, reportCause_msc]
@[simp] theorem rejectEdition_pco (n : Word32) (f : Failure) (s : State) :
    (rejectEdition n f s).pco = s.pco := by simp only [rejectEdition, reportCause_pco]
@[simp] theorem rejectEdition_lcs (n : Word32) (f : Failure) (s : State) :
    (rejectEdition n f s).lcs = s.lcs := by simp only [rejectEdition, reportCause_lcs]
@[simp] theorem rejectEdition_pending (n : Word32) (f : Failure) (s : State) :
    (rejectEdition n f s).pending = s.pending := by simp only [rejectEdition, reportCause_pending]
@[simp] theorem rejectEdition_periods (n : Word32) (f : Failure) (s : State) :
    (rejectEdition n f s).periods = s.periods := by simp only [rejectEdition, reportCause_periods]
@[simp] theorem stagingFailed_phase (g : Staging) (s : State) :
    (stagingFailed g s).phase = s.phase := by simp only [stagingFailed, rejectEdition_phase]
@[simp] theorem stagingFailed_resetLeft (g : Staging) (s : State) :
    (stagingFailed g s).resetLeft = s.resetLeft := by simp only [stagingFailed, rejectEdition_resetLeft]
@[simp] theorem stagingFailed_clk (g : Staging) (s : State) :
    (stagingFailed g s).clk = s.clk := by simp only [stagingFailed, rejectEdition_clk]
@[simp] theorem stagingFailed_sms (g : Staging) (s : State) :
    (stagingFailed g s).sms = s.sms := by simp only [stagingFailed, rejectEdition_sms]
@[simp] theorem stagingFailed_rsv (g : Staging) (s : State) :
    (stagingFailed g s).rsv = s.rsv := by simp only [stagingFailed, rejectEdition_rsv]
@[simp] theorem stagingFailed_pgu (g : Staging) (s : State) :
    (stagingFailed g s).pgu = s.pgu := by simp only [stagingFailed, rejectEdition_pgu]
@[simp] theorem stagingFailed_msc (g : Staging) (s : State) :
    (stagingFailed g s).msc = s.msc := by simp only [stagingFailed, rejectEdition_msc]
@[simp] theorem stagingFailed_pco (g : Staging) (s : State) :
    (stagingFailed g s).pco = s.pco := by simp only [stagingFailed, rejectEdition_pco]
@[simp] theorem stagingFailed_lcs (g : Staging) (s : State) :
    (stagingFailed g s).lcs = s.lcs := by simp only [stagingFailed, rejectEdition_lcs]
@[simp] theorem stagingFailed_pending (g : Staging) (s : State) :
    (stagingFailed g s).pending = s.pending := by simp only [stagingFailed, rejectEdition_pending]
@[simp] theorem stagingFailed_periods (g : Staging) (s : State) :
    (stagingFailed g s).periods = s.periods := by simp only [stagingFailed, rejectEdition_periods]
@[simp] theorem graphMoved_phase (s : State) :
    (graphMoved s).phase = s.phase := rfl
@[simp] theorem graphMoved_resetLeft (s : State) :
    (graphMoved s).resetLeft = s.resetLeft := rfl
@[simp] theorem graphMoved_clk (s : State) :
    (graphMoved s).clk = s.clk := rfl
@[simp] theorem graphMoved_pgu (s : State) :
    (graphMoved s).pgu = s.pgu := rfl
@[simp] theorem graphMoved_msc (s : State) :
    (graphMoved s).msc = s.msc := rfl
@[simp] theorem graphMoved_lcs (s : State) :
    (graphMoved s).lcs = s.lcs := rfl
@[simp] theorem graphMoved_pending (s : State) :
    (graphMoved s).pending = s.pending := rfl
@[simp] theorem graphMoved_periods (s : State) :
    (graphMoved s).periods = s.periods := rfl
@[simp] theorem deliverClosure_phase (w : Word64) (s : State) :
    (deliverClosure w s).phase = s.phase := rfl
@[simp] theorem deliverClosure_resetLeft (w : Word64) (s : State) :
    (deliverClosure w s).resetLeft = s.resetLeft := rfl
@[simp] theorem deliverClosure_clk (w : Word64) (s : State) :
    (deliverClosure w s).clk = s.clk := rfl
@[simp] theorem deliverClosure_pgu (w : Word64) (s : State) :
    (deliverClosure w s).pgu = s.pgu := rfl
@[simp] theorem deliverClosure_msc (w : Word64) (s : State) :
    (deliverClosure w s).msc = s.msc := rfl
@[simp] theorem deliverClosure_lcs (w : Word64) (s : State) :
    (deliverClosure w s).lcs = s.lcs := rfl
@[simp] theorem deliverClosure_pending (w : Word64) (s : State) :
    (deliverClosure w s).pending = s.pending := rfl
@[simp] theorem deliverClosure_periods (w : Word64) (s : State) :
    (deliverClosure w s).periods = s.periods := rfl
@[simp] theorem deliverExterior_phase (b : Bool) (s : State) :
    (deliverExterior b s).phase = s.phase := rfl
@[simp] theorem deliverExterior_resetLeft (b : Bool) (s : State) :
    (deliverExterior b s).resetLeft = s.resetLeft := rfl
@[simp] theorem deliverExterior_clk (b : Bool) (s : State) :
    (deliverExterior b s).clk = s.clk := rfl
@[simp] theorem deliverExterior_pgu (b : Bool) (s : State) :
    (deliverExterior b s).pgu = s.pgu := rfl
@[simp] theorem deliverExterior_msc (b : Bool) (s : State) :
    (deliverExterior b s).msc = s.msc := rfl
@[simp] theorem deliverExterior_lcs (b : Bool) (s : State) :
    (deliverExterior b s).lcs = s.lcs := rfl
@[simp] theorem deliverExterior_pending (b : Bool) (s : State) :
    (deliverExterior b s).pending = s.pending := rfl
@[simp] theorem deliverExterior_periods (b : Bool) (s : State) :
    (deliverExterior b s).periods = s.periods := rfl
@[simp] theorem liveTaken_phase (bs : List Byte) (s : State) :
    (liveTaken bs s).phase = s.phase := rfl
@[simp] theorem liveTaken_resetLeft (bs : List Byte) (s : State) :
    (liveTaken bs s).resetLeft = s.resetLeft := rfl
@[simp] theorem liveTaken_clk (bs : List Byte) (s : State) :
    (liveTaken bs s).clk = s.clk := rfl
@[simp] theorem liveTaken_pgu (bs : List Byte) (s : State) :
    (liveTaken bs s).pgu = s.pgu := rfl
@[simp] theorem liveTaken_msc (bs : List Byte) (s : State) :
    (liveTaken bs s).msc = s.msc := rfl
@[simp] theorem liveTaken_lcs (bs : List Byte) (s : State) :
    (liveTaken bs s).lcs = s.lcs := rfl
@[simp] theorem liveTaken_pending (bs : List Byte) (s : State) :
    (liveTaken bs s).pending = s.pending := rfl
@[simp] theorem liveTaken_periods (bs : List Byte) (s : State) :
    (liveTaken bs s).periods = s.periods := rfl
@[simp] theorem acksTaken_phase (bs : List Byte) (s : State) :
    (acksTaken bs s).phase = s.phase := rfl
@[simp] theorem acksTaken_resetLeft (bs : List Byte) (s : State) :
    (acksTaken bs s).resetLeft = s.resetLeft := rfl
@[simp] theorem acksTaken_clk (bs : List Byte) (s : State) :
    (acksTaken bs s).clk = s.clk := rfl
@[simp] theorem acksTaken_sms (bs : List Byte) (s : State) :
    (acksTaken bs s).sms = s.sms := rfl
@[simp] theorem acksTaken_rsv (bs : List Byte) (s : State) :
    (acksTaken bs s).rsv = s.rsv := rfl
@[simp] theorem acksTaken_pgu (bs : List Byte) (s : State) :
    (acksTaken bs s).pgu = s.pgu := rfl
@[simp] theorem acksTaken_msc (bs : List Byte) (s : State) :
    (acksTaken bs s).msc = s.msc := rfl
@[simp] theorem acksTaken_pco (bs : List Byte) (s : State) :
    (acksTaken bs s).pco = s.pco := rfl
@[simp] theorem acksTaken_pending (bs : List Byte) (s : State) :
    (acksTaken bs s).pending = s.pending := rfl
@[simp] theorem acksTaken_periods (bs : List Byte) (s : State) :
    (acksTaken bs s).periods = s.periods := rfl
@[simp] theorem statusDone_phase (x : Nat) (c : StatusRec) (s : State) :
    (statusDone x c s).phase = s.phase := rfl
@[simp] theorem statusDone_resetLeft (x : Nat) (c : StatusRec) (s : State) :
    (statusDone x c s).resetLeft = s.resetLeft := rfl
@[simp] theorem statusDone_clk (x : Nat) (c : StatusRec) (s : State) :
    (statusDone x c s).clk = s.clk := rfl
@[simp] theorem statusDone_sms (x : Nat) (c : StatusRec) (s : State) :
    (statusDone x c s).sms = s.sms := rfl
@[simp] theorem statusDone_rsv (x : Nat) (c : StatusRec) (s : State) :
    (statusDone x c s).rsv = s.rsv := rfl
@[simp] theorem statusDone_pgu (x : Nat) (c : StatusRec) (s : State) :
    (statusDone x c s).pgu = s.pgu := rfl
@[simp] theorem statusDone_msc (x : Nat) (c : StatusRec) (s : State) :
    (statusDone x c s).msc = s.msc := rfl
@[simp] theorem statusDone_pco (x : Nat) (c : StatusRec) (s : State) :
    (statusDone x c s).pco = s.pco := rfl
@[simp] theorem statusDone_lcs (x : Nat) (c : StatusRec) (s : State) :
    (statusDone x c s).lcs = s.lcs := rfl
@[simp] theorem statusDone_pending (x : Nat) (c : StatusRec) (s : State) :
    (statusDone x c s).pending = s.pending := rfl
@[simp] theorem statusDone_periods (x : Nat) (c : StatusRec) (s : State) :
    (statusDone x c s).periods = s.periods := rfl
@[simp] theorem statusFailed_phase (x : Nat) (s : State) :
    (statusFailed x s).phase = s.phase := rfl
@[simp] theorem statusFailed_resetLeft (x : Nat) (s : State) :
    (statusFailed x s).resetLeft = s.resetLeft := rfl
@[simp] theorem statusFailed_clk (x : Nat) (s : State) :
    (statusFailed x s).clk = s.clk := rfl
@[simp] theorem statusFailed_sms (x : Nat) (s : State) :
    (statusFailed x s).sms = s.sms := rfl
@[simp] theorem statusFailed_rsv (x : Nat) (s : State) :
    (statusFailed x s).rsv = s.rsv := rfl
@[simp] theorem statusFailed_pgu (x : Nat) (s : State) :
    (statusFailed x s).pgu = s.pgu := rfl
@[simp] theorem statusFailed_msc (x : Nat) (s : State) :
    (statusFailed x s).msc = s.msc := rfl
@[simp] theorem statusFailed_pco (x : Nat) (s : State) :
    (statusFailed x s).pco = s.pco := rfl
@[simp] theorem statusFailed_lcs (x : Nat) (s : State) :
    (statusFailed x s).lcs = s.lcs := rfl
@[simp] theorem statusFailed_pending (x : Nat) (s : State) :
    (statusFailed x s).pending = s.pending := rfl
@[simp] theorem statusFailed_periods (x : Nat) (s : State) :
    (statusFailed x s).periods = s.periods := rfl
@[simp] theorem minuteState_phase (s : State) :
    (minuteState s).phase = s.phase := rfl
@[simp] theorem minuteState_resetLeft (s : State) :
    (minuteState s).resetLeft = s.resetLeft := rfl
@[simp] theorem minuteState_sms (s : State) :
    (minuteState s).sms = s.sms := rfl
@[simp] theorem minuteState_rsv (s : State) :
    (minuteState s).rsv = s.rsv := rfl
@[simp] theorem minuteState_msc (s : State) :
    (minuteState s).msc = s.msc := rfl
@[simp] theorem minuteState_lcs (s : State) :
    (minuteState s).lcs = s.lcs := rfl
@[simp] theorem minuteState_xu (s : State) :
    (minuteState s).xu = s.xu := rfl
@[simp] theorem minuteState_pending (s : State) :
    (minuteState s).pending = s.pending := rfl
@[simp] theorem minuteState_periods (s : State) :
    (minuteState s).periods = s.periods := rfl
@[simp] theorem minuteTaken_phase (s : State) :
    (minuteTaken s).phase = s.phase := rfl
@[simp] theorem minuteTaken_resetLeft (s : State) :
    (minuteTaken s).resetLeft = s.resetLeft := rfl
@[simp] theorem minuteTaken_sms (s : State) :
    (minuteTaken s).sms = s.sms := rfl
@[simp] theorem minuteTaken_msc (s : State) :
    (minuteTaken s).msc = s.msc := rfl
@[simp] theorem minuteTaken_lcs (s : State) :
    (minuteTaken s).lcs = s.lcs := rfl
@[simp] theorem minuteTaken_pending (s : State) :
    (minuteTaken s).pending = s.pending := rfl
@[simp] theorem minuteTaken_periods (s : State) :
    (minuteTaken s).periods = s.periods := rfl
@[simp] theorem moveRot_phase (x : Nat) (r : RotState) (s : State) :
    (moveRot x r s).phase = s.phase := rfl
@[simp] theorem moveRot_resetLeft (x : Nat) (r : RotState) (s : State) :
    (moveRot x r s).resetLeft = s.resetLeft := rfl
@[simp] theorem moveRot_clk (x : Nat) (r : RotState) (s : State) :
    (moveRot x r s).clk = s.clk := rfl
@[simp] theorem moveRot_sms (x : Nat) (r : RotState) (s : State) :
    (moveRot x r s).sms = s.sms := rfl
@[simp] theorem moveRot_rsv (x : Nat) (r : RotState) (s : State) :
    (moveRot x r s).rsv = s.rsv := rfl
@[simp] theorem moveRot_pgu (x : Nat) (r : RotState) (s : State) :
    (moveRot x r s).pgu = s.pgu := rfl
@[simp] theorem moveRot_msc (x : Nat) (r : RotState) (s : State) :
    (moveRot x r s).msc = s.msc := rfl
@[simp] theorem moveRot_lcs (x : Nat) (r : RotState) (s : State) :
    (moveRot x r s).lcs = s.lcs := rfl
@[simp] theorem moveRot_pending (x : Nat) (r : RotState) (s : State) :
    (moveRot x r s).pending = s.pending := rfl
@[simp] theorem moveRot_periods (x : Nat) (r : RotState) (s : State) :
    (moveRot x r s).periods = s.periods := rfl
@[simp] theorem solveTaken_phase (p : Pair) (s : State) :
    (solveTaken p s).phase = s.phase := rfl
@[simp] theorem solveTaken_resetLeft (p : Pair) (s : State) :
    (solveTaken p s).resetLeft = s.resetLeft := rfl
@[simp] theorem solveTaken_clk (p : Pair) (s : State) :
    (solveTaken p s).clk = s.clk := rfl
@[simp] theorem solveTaken_sms (p : Pair) (s : State) :
    (solveTaken p s).sms = s.sms := rfl
@[simp] theorem solveTaken_pgu (p : Pair) (s : State) :
    (solveTaken p s).pgu = s.pgu := rfl
@[simp] theorem solveTaken_lcs (p : Pair) (s : State) :
    (solveTaken p s).lcs = s.lcs := rfl
@[simp] theorem solveTaken_pending (p : Pair) (s : State) :
    (solveTaken p s).pending = s.pending := rfl
@[simp] theorem solveTaken_periods (p : Pair) (s : State) :
    (solveTaken p s).periods = s.periods := rfl
@[simp] theorem withTables_phase (t : TableSet) (s : State) :
    (withTables t s).phase = s.phase := rfl
@[simp] theorem withTables_resetLeft (t : TableSet) (s : State) :
    (withTables t s).resetLeft = s.resetLeft := rfl
@[simp] theorem withTables_clk (t : TableSet) (s : State) :
    (withTables t s).clk = s.clk := rfl
@[simp] theorem withTables_rsv (t : TableSet) (s : State) :
    (withTables t s).rsv = s.rsv := rfl
@[simp] theorem withTables_msc (t : TableSet) (s : State) :
    (withTables t s).msc = s.msc := rfl
@[simp] theorem withTables_lcs (t : TableSet) (s : State) :
    (withTables t s).lcs = s.lcs := rfl
@[simp] theorem withTables_xu (t : TableSet) (s : State) :
    (withTables t s).xu = s.xu := rfl
@[simp] theorem withTables_pending (t : TableSet) (s : State) :
    (withTables t s).pending = s.pending := rfl
@[simp] theorem withTables_periods (t : TableSet) (s : State) :
    (withTables t s).periods = s.periods := rfl
@[simp] theorem commitRoutes_phase (b s : State) :
    (commitRoutes b s).phase = s.phase := rfl
@[simp] theorem commitRoutes_resetLeft (b s : State) :
    (commitRoutes b s).resetLeft = s.resetLeft := rfl
@[simp] theorem commitRoutes_clk (b s : State) :
    (commitRoutes b s).clk = s.clk := rfl
@[simp] theorem commitRoutes_pgu (b s : State) :
    (commitRoutes b s).pgu = s.pgu := rfl
@[simp] theorem commitRoutes_pco (b s : State) :
    (commitRoutes b s).pco = s.pco := rfl
@[simp] theorem commitRoutes_lcs (b s : State) :
    (commitRoutes b s).lcs = s.lcs := rfl
@[simp] theorem commitRoutes_pending (b s : State) :
    (commitRoutes b s).pending = s.pending := rfl
@[simp] theorem commitRoutes_periods (b s : State) :
    (commitRoutes b s).periods = s.periods := rfl
@[simp] theorem commitNotices_phase (b : State) (l : List Nat) (s : State) :
    (commitNotices b l s).phase = s.phase := by simp only [commitNotices, pageBlocks_phase]
@[simp] theorem commitNotices_resetLeft (b : State) (l : List Nat) (s : State) :
    (commitNotices b l s).resetLeft = s.resetLeft := by simp only [commitNotices, pageBlocks_resetLeft]
@[simp] theorem commitNotices_clk (b : State) (l : List Nat) (s : State) :
    (commitNotices b l s).clk = s.clk := by simp only [commitNotices, pageBlocks_clk]
@[simp] theorem commitNotices_sms (b : State) (l : List Nat) (s : State) :
    (commitNotices b l s).sms = s.sms := by simp only [commitNotices, pageBlocks_sms]
@[simp] theorem commitNotices_rsv (b : State) (l : List Nat) (s : State) :
    (commitNotices b l s).rsv = s.rsv := by simp only [commitNotices, pageBlocks_rsv]
@[simp] theorem commitNotices_pgu (b : State) (l : List Nat) (s : State) :
    (commitNotices b l s).pgu = s.pgu := by simp only [commitNotices, pageBlocks_pgu]
@[simp] theorem commitNotices_msc (b : State) (l : List Nat) (s : State) :
    (commitNotices b l s).msc = s.msc := by simp only [commitNotices, pageBlocks_msc]
@[simp] theorem commitNotices_lcs (b : State) (l : List Nat) (s : State) :
    (commitNotices b l s).lcs = s.lcs := by simp only [commitNotices, pageBlocks_lcs]
@[simp] theorem commitNotices_pending (b : State) (l : List Nat) (s : State) :
    (commitNotices b l s).pending = s.pending := by simp only [commitNotices, pageBlocks_pending]
@[simp] theorem commitNotices_periods (b : State) (l : List Nat) (s : State) :
    (commitNotices b l s).periods = s.periods := by simp only [commitNotices, pageBlocks_periods]
@[simp] theorem commitTests_phase (b s : State) :
    (commitTests b s).phase = s.phase := by simp only [commitTests, musterBlocks_phase]
@[simp] theorem commitTests_resetLeft (b s : State) :
    (commitTests b s).resetLeft = s.resetLeft := by simp only [commitTests, musterBlocks_resetLeft]
@[simp] theorem commitTests_clk (b s : State) :
    (commitTests b s).clk = s.clk := by simp only [commitTests, musterBlocks_clk]
@[simp] theorem commitTests_sms (b s : State) :
    (commitTests b s).sms = s.sms := by simp only [commitTests, musterBlocks_sms]
@[simp] theorem commitTests_pgu (b s : State) :
    (commitTests b s).pgu = s.pgu := by simp only [commitTests, musterBlocks_pgu]
@[simp] theorem commitTests_pending (b s : State) :
    (commitTests b s).pending = s.pending := by simp only [commitTests, musterBlocks_pending]
@[simp] theorem commitTests_periods (b s : State) :
    (commitTests b s).periods = s.periods := by simp only [commitTests, musterBlocks_periods]
@[simp] theorem commitEdition_phase (g : Staging) (s : State) :
    (commitEdition g s).phase = s.phase := rfl
@[simp] theorem commitEdition_resetLeft (g : Staging) (s : State) :
    (commitEdition g s).resetLeft = s.resetLeft := rfl
@[simp] theorem commitEdition_pending (g : Staging) (s : State) :
    (commitEdition g s).pending = s.pending := rfl
@[simp] theorem commitEdition_periods (g : Staging) (s : State) :
    (commitEdition g s).periods = s.periods := rfl
@[simp] theorem runRequest_phase (s : State) :
    (runRequest s).phase = s.phase := by
  unfold runRequest; split <;> first | rfl | (split <;> rfl)
@[simp] theorem runRequest_resetLeft (s : State) :
    (runRequest s).resetLeft = s.resetLeft := by
  unfold runRequest; split <;> first | rfl | (split <;> rfl)
@[simp] theorem runRequest_clk (s : State) :
    (runRequest s).clk = s.clk := by
  unfold runRequest; split <;> first | rfl | (split <;> rfl)
@[simp] theorem runRequest_sms (s : State) :
    (runRequest s).sms = s.sms := by
  unfold runRequest; split <;> first | rfl | (split <;> rfl)
@[simp] theorem runRequest_rsv (s : State) :
    (runRequest s).rsv = s.rsv := by
  unfold runRequest; split <;> first | rfl | (split <;> rfl)
@[simp] theorem runRequest_pgu (s : State) :
    (runRequest s).pgu = s.pgu := by
  unfold runRequest; split <;> first | rfl | (split <;> rfl)
@[simp] theorem runRequest_msc (s : State) :
    (runRequest s).msc = s.msc := by
  unfold runRequest; split <;> first | rfl | (split <;> rfl)
@[simp] theorem runRequest_pco (s : State) :
    (runRequest s).pco = s.pco := by
  unfold runRequest; split <;> first | rfl | (split <;> rfl)
@[simp] theorem runRequest_pending (s : State) :
    (runRequest s).pending = s.pending := by
  unfold runRequest; split <;> first | rfl | (split <;> rfl)
@[simp] theorem runRequest_periods (s : State) :
    (runRequest s).periods = s.periods := by
  unfold runRequest; split <;> first | rfl | (split <;> rfl)
@[simp] theorem haltRequest_phase (s : State) :
    (haltRequest s).phase = s.phase := by
  unfold haltRequest; split <;> first | rfl | (split <;> rfl)
@[simp] theorem haltRequest_resetLeft (s : State) :
    (haltRequest s).resetLeft = s.resetLeft := by
  unfold haltRequest; split <;> first | rfl | (split <;> rfl)
@[simp] theorem haltRequest_clk (s : State) :
    (haltRequest s).clk = s.clk := by
  unfold haltRequest; split <;> first | rfl | (split <;> rfl)
@[simp] theorem haltRequest_sms (s : State) :
    (haltRequest s).sms = s.sms := by
  unfold haltRequest; split <;> first | rfl | (split <;> rfl)
@[simp] theorem haltRequest_rsv (s : State) :
    (haltRequest s).rsv = s.rsv := by
  unfold haltRequest; split <;> first | rfl | (split <;> rfl)
@[simp] theorem haltRequest_pgu (s : State) :
    (haltRequest s).pgu = s.pgu := by
  unfold haltRequest; split <;> first | rfl | (split <;> rfl)
@[simp] theorem haltRequest_msc (s : State) :
    (haltRequest s).msc = s.msc := by
  unfold haltRequest; split <;> first | rfl | (split <;> rfl)
@[simp] theorem haltRequest_pco (s : State) :
    (haltRequest s).pco = s.pco := by
  unfold haltRequest; split <;> first | rfl | (split <;> rfl)
@[simp] theorem haltRequest_pending (s : State) :
    (haltRequest s).pending = s.pending := by
  unfold haltRequest; split <;> first | rfl | (split <;> rfl)
@[simp] theorem haltRequest_periods (s : State) :
    (haltRequest s).periods = s.periods := by
  unfold haltRequest; split <;> first | rfl | (split <;> rfl)
@[simp] theorem musterResume_phase (s : State) :
    (musterResume s).phase = s.phase := by
  unfold musterResume; split <;> first | rfl | simp
@[simp] theorem musterResume_resetLeft (s : State) :
    (musterResume s).resetLeft = s.resetLeft := by
  unfold musterResume; split <;> first | rfl | simp
@[simp] theorem musterResume_clk (s : State) :
    (musterResume s).clk = s.clk := by
  unfold musterResume; split <;> first | rfl | simp
@[simp] theorem musterResume_sms (s : State) :
    (musterResume s).sms = s.sms := by
  unfold musterResume; split <;> first | rfl | simp
@[simp] theorem musterResume_rsv (s : State) :
    (musterResume s).rsv = s.rsv := by
  unfold musterResume; split <;> first | rfl | simp
@[simp] theorem musterResume_pgu (s : State) :
    (musterResume s).pgu = s.pgu := by
  unfold musterResume; split <;> first | rfl | simp
@[simp] theorem musterResume_msc (s : State) :
    (musterResume s).msc = s.msc := by
  unfold musterResume; split <;> first | rfl | simp
@[simp] theorem musterResume_pco (s : State) :
    (musterResume s).pco = s.pco := by
  unfold musterResume; split <;> first | rfl | simp
@[simp] theorem musterResume_pending (s : State) :
    (musterResume s).pending = s.pending := by
  unfold musterResume; split <;> first | rfl | simp
@[simp] theorem musterResume_periods (s : State) :
    (musterResume s).periods = s.periods := by
  unfold musterResume; split <;> first | rfl | simp
@[simp] theorem realCall_phase (s : State) :
    (realCall s).phase = s.phase := by
  unfold realCall; split <;> first | rfl | (split <;> rfl)
@[simp] theorem realCall_resetLeft (s : State) :
    (realCall s).resetLeft = s.resetLeft := by
  unfold realCall; split <;> first | rfl | (split <;> rfl)
@[simp] theorem realCall_clk (s : State) :
    (realCall s).clk = s.clk := by
  unfold realCall; split <;> first | rfl | (split <;> rfl)
@[simp] theorem realCall_sms (s : State) :
    (realCall s).sms = s.sms := by
  unfold realCall; split <;> first | rfl | (split <;> rfl)
@[simp] theorem realCall_pgu (s : State) :
    (realCall s).pgu = s.pgu := by
  unfold realCall; split <;> first | rfl | (split <;> rfl)
@[simp] theorem realCall_pending (s : State) :
    (realCall s).pending = s.pending := by
  unfold realCall; split <;> first | rfl | (split <;> rfl)
@[simp] theorem realCall_periods (s : State) :
    (realCall s).periods = s.periods := by
  unfold realCall; split <;> first | rfl | (split <;> rfl)
@[simp] theorem noAnswer_phase (n idle : Nat) (t : Txn) (s : State) :
    (noAnswer n idle t s).phase = s.phase := by
  unfold noAnswer; split <;> rfl
@[simp] theorem noAnswer_resetLeft (n idle : Nat) (t : Txn) (s : State) :
    (noAnswer n idle t s).resetLeft = s.resetLeft := by
  unfold noAnswer; split <;> rfl
@[simp] theorem noAnswer_clk (n idle : Nat) (t : Txn) (s : State) :
    (noAnswer n idle t s).clk = s.clk := by
  unfold noAnswer; split <;> rfl
@[simp] theorem noAnswer_sms (n idle : Nat) (t : Txn) (s : State) :
    (noAnswer n idle t s).sms = s.sms := by
  unfold noAnswer; split <;> rfl
@[simp] theorem noAnswer_pgu (n idle : Nat) (t : Txn) (s : State) :
    (noAnswer n idle t s).pgu = s.pgu := by
  unfold noAnswer; split <;> rfl
@[simp] theorem noAnswer_pending (n idle : Nat) (t : Txn) (s : State) :
    (noAnswer n idle t s).pending = s.pending := by
  unfold noAnswer; split <;> rfl
@[simp] theorem noAnswer_periods (n idle : Nat) (t : Txn) (s : State) :
    (noAnswer n idle t s).periods = s.periods := by
  unfold noAnswer; split <;> rfl
@[simp] theorem discardAnswer_phase (n idle : Nat) (t : Txn) (s : State) :
    (discardAnswer n idle t s).phase = s.phase := by
  simp [discardAnswer]
@[simp] theorem discardAnswer_resetLeft (n idle : Nat) (t : Txn) (s : State) :
    (discardAnswer n idle t s).resetLeft = s.resetLeft := by
  simp [discardAnswer]
@[simp] theorem discardAnswer_clk (n idle : Nat) (t : Txn) (s : State) :
    (discardAnswer n idle t s).clk = s.clk := by
  simp [discardAnswer]
@[simp] theorem discardAnswer_sms (n idle : Nat) (t : Txn) (s : State) :
    (discardAnswer n idle t s).sms = s.sms := by
  simp [discardAnswer]
@[simp] theorem discardAnswer_pgu (n idle : Nat) (t : Txn) (s : State) :
    (discardAnswer n idle t s).pgu = s.pgu := by
  simp [discardAnswer]
@[simp] theorem discardAnswer_pending (n idle : Nat) (t : Txn) (s : State) :
    (discardAnswer n idle t s).pending = s.pending := by
  simp [discardAnswer]
@[simp] theorem discardAnswer_periods (n idle : Nat) (t : Txn) (s : State) :
    (discardAnswer n idle t s).periods = s.periods := by
  simp [discardAnswer]
@[simp] theorem heldOffAnswer_phase (n : Nat) (t : Txn) (s : State) :
    (heldOffAnswer n t s).phase = s.phase := by
  unfold heldOffAnswer; split <;> rfl
@[simp] theorem heldOffAnswer_resetLeft (n : Nat) (t : Txn) (s : State) :
    (heldOffAnswer n t s).resetLeft = s.resetLeft := by
  unfold heldOffAnswer; split <;> rfl
@[simp] theorem heldOffAnswer_clk (n : Nat) (t : Txn) (s : State) :
    (heldOffAnswer n t s).clk = s.clk := by
  unfold heldOffAnswer; split <;> rfl
@[simp] theorem heldOffAnswer_sms (n : Nat) (t : Txn) (s : State) :
    (heldOffAnswer n t s).sms = s.sms := by
  unfold heldOffAnswer; split <;> rfl
@[simp] theorem heldOffAnswer_pgu (n : Nat) (t : Txn) (s : State) :
    (heldOffAnswer n t s).pgu = s.pgu := by
  unfold heldOffAnswer; split <;> rfl
@[simp] theorem heldOffAnswer_pending (n : Nat) (t : Txn) (s : State) :
    (heldOffAnswer n t s).pending = s.pending := by
  unfold heldOffAnswer; split <;> rfl
@[simp] theorem heldOffAnswer_periods (n : Nat) (t : Txn) (s : State) :
    (heldOffAnswer n t s).periods = s.periods := by
  unfold heldOffAnswer; split <;> rfl
@[simp] theorem afterTaken_phase (n x : Nat) (p : SentPage) (k : Nat) (r : LineRec) (s : State) :
    (afterTaken n x p k r s).phase = s.phase := by
  unfold afterTaken; split <;> first | rfl | (split <;> rfl)
@[simp] theorem afterTaken_resetLeft (n x : Nat) (p : SentPage) (k : Nat) (r : LineRec) (s : State) :
    (afterTaken n x p k r s).resetLeft = s.resetLeft := by
  unfold afterTaken; split <;> first | rfl | (split <;> rfl)
@[simp] theorem afterTaken_clk (n x : Nat) (p : SentPage) (k : Nat) (r : LineRec) (s : State) :
    (afterTaken n x p k r s).clk = s.clk := by
  unfold afterTaken; split <;> first | rfl | (split <;> rfl)
@[simp] theorem afterTaken_sms (n x : Nat) (p : SentPage) (k : Nat) (r : LineRec) (s : State) :
    (afterTaken n x p k r s).sms = s.sms := by
  unfold afterTaken; split <;> first | rfl | (split <;> rfl)
@[simp] theorem afterTaken_pgu (n x : Nat) (p : SentPage) (k : Nat) (r : LineRec) (s : State) :
    (afterTaken n x p k r s).pgu = s.pgu := by
  unfold afterTaken; split <;> first | rfl | (split <;> rfl)
@[simp] theorem afterTaken_pending (n x : Nat) (p : SentPage) (k : Nat) (r : LineRec) (s : State) :
    (afterTaken n x p k r s).pending = s.pending := by
  unfold afterTaken; split <;> first | rfl | (split <;> rfl)
@[simp] theorem afterTaken_periods (n x : Nat) (p : SentPage) (k : Nat) (r : LineRec) (s : State) :
    (afterTaken n x p k r s).periods = s.periods := by
  unfold afterTaken; split <;> first | rfl | (split <;> rfl)
@[simp] theorem headTaken_phase (n x : Nat) (p : SentPage) (s : State) :
    (headTaken n x p s).phase = s.phase := by
  simp [headTaken]
@[simp] theorem headTaken_resetLeft (n x : Nat) (p : SentPage) (s : State) :
    (headTaken n x p s).resetLeft = s.resetLeft := by
  simp [headTaken]
@[simp] theorem headTaken_clk (n x : Nat) (p : SentPage) (s : State) :
    (headTaken n x p s).clk = s.clk := by
  simp [headTaken]
@[simp] theorem headTaken_sms (n x : Nat) (p : SentPage) (s : State) :
    (headTaken n x p s).sms = s.sms := by
  simp [headTaken]
@[simp] theorem headTaken_pgu (n x : Nat) (p : SentPage) (s : State) :
    (headTaken n x p s).pgu = s.pgu := by
  simp [headTaken]
@[simp] theorem headTaken_pending (n x : Nat) (p : SentPage) (s : State) :
    (headTaken n x p s).pending = s.pending := by
  simp [headTaken]
@[simp] theorem headTaken_periods (n x : Nat) (p : SentPage) (s : State) :
    (headTaken n x p s).periods = s.periods := by
  simp [headTaken]
@[simp] theorem blockTaken_phase (n x : Nat) (p : SentPage) (k : Nat) (s : State) :
    (blockTaken n x p k s).phase = s.phase := by
  simp [blockTaken]
@[simp] theorem blockTaken_resetLeft (n x : Nat) (p : SentPage) (k : Nat) (s : State) :
    (blockTaken n x p k s).resetLeft = s.resetLeft := by
  simp [blockTaken]
@[simp] theorem blockTaken_clk (n x : Nat) (p : SentPage) (k : Nat) (s : State) :
    (blockTaken n x p k s).clk = s.clk := by
  simp [blockTaken]
@[simp] theorem blockTaken_sms (n x : Nat) (p : SentPage) (k : Nat) (s : State) :
    (blockTaken n x p k s).sms = s.sms := by
  simp [blockTaken]
@[simp] theorem blockTaken_pgu (n x : Nat) (p : SentPage) (k : Nat) (s : State) :
    (blockTaken n x p k s).pgu = s.pgu := by
  simp [blockTaken]
@[simp] theorem blockTaken_pending (n x : Nat) (p : SentPage) (k : Nat) (s : State) :
    (blockTaken n x p k s).pending = s.pending := by
  simp [blockTaken]
@[simp] theorem blockTaken_periods (n x : Nat) (p : SentPage) (k : Nat) (s : State) :
    (blockTaken n x p k s).periods = s.periods := by
  simp [blockTaken]
@[simp] theorem stateTaken_phase (n x : Nat) (a : StateFields) (s : State) :
    (stateTaken n x a s).phase = s.phase := by
  unfold stateTaken; dsimp only; split <;> simp
@[simp] theorem stateTaken_resetLeft (n x : Nat) (a : StateFields) (s : State) :
    (stateTaken n x a s).resetLeft = s.resetLeft := by
  unfold stateTaken; dsimp only; split <;> simp
@[simp] theorem stateTaken_clk (n x : Nat) (a : StateFields) (s : State) :
    (stateTaken n x a s).clk = s.clk := by
  unfold stateTaken; dsimp only; split <;> simp
@[simp] theorem stateTaken_sms (n x : Nat) (a : StateFields) (s : State) :
    (stateTaken n x a s).sms = s.sms := by
  unfold stateTaken; dsimp only; split <;> simp
@[simp] theorem stateTaken_pgu (n x : Nat) (a : StateFields) (s : State) :
    (stateTaken n x a s).pgu = s.pgu := by
  unfold stateTaken; dsimp only; split <;> simp
@[simp] theorem stateTaken_pending (n x : Nat) (a : StateFields) (s : State) :
    (stateTaken n x a s).pending = s.pending := by
  unfold stateTaken; dsimp only; split <;> simp
@[simp] theorem stateTaken_periods (n x : Nat) (a : StateFields) (s : State) :
    (stateTaken n x a s).periods = s.periods := by
  unfold stateTaken; dsimp only; split <;> simp
@[simp] theorem surveyReadFailed_phase (v : Survey) (s : State) :
    (surveyReadFailed v s).phase = s.phase := by
  unfold surveyReadFailed; split <;> simp
@[simp] theorem surveyReadFailed_resetLeft (v : Survey) (s : State) :
    (surveyReadFailed v s).resetLeft = s.resetLeft := by
  unfold surveyReadFailed; split <;> simp
@[simp] theorem surveyReadFailed_clk (v : Survey) (s : State) :
    (surveyReadFailed v s).clk = s.clk := by
  unfold surveyReadFailed; split <;> simp
@[simp] theorem surveyReadFailed_sms (v : Survey) (s : State) :
    (surveyReadFailed v s).sms = s.sms := by
  unfold surveyReadFailed; split <;> simp
@[simp] theorem surveyReadFailed_rsv (v : Survey) (s : State) :
    (surveyReadFailed v s).rsv = s.rsv := by
  unfold surveyReadFailed; split <;> simp
@[simp] theorem surveyReadFailed_pgu (v : Survey) (s : State) :
    (surveyReadFailed v s).pgu = s.pgu := by
  unfold surveyReadFailed; split <;> simp
@[simp] theorem surveyReadFailed_msc (v : Survey) (s : State) :
    (surveyReadFailed v s).msc = s.msc := by
  unfold surveyReadFailed; split <;> simp
@[simp] theorem surveyReadFailed_pco (v : Survey) (s : State) :
    (surveyReadFailed v s).pco = s.pco := by
  unfold surveyReadFailed; split <;> simp
@[simp] theorem surveyReadFailed_lcs (v : Survey) (s : State) :
    (surveyReadFailed v s).lcs = s.lcs := by
  unfold surveyReadFailed; split <;> simp
@[simp] theorem surveyReadFailed_pending (v : Survey) (s : State) :
    (surveyReadFailed v s).pending = s.pending := by
  unfold surveyReadFailed; split <;> simp
@[simp] theorem surveyReadFailed_periods (v : Survey) (s : State) :
    (surveyReadFailed v s).periods = s.periods := by
  unfold surveyReadFailed; split <;> simp
@[simp] theorem applyProgress_phase (n : Word32) (p : Progress) (s : State) :
    (applyProgress n p s).phase = s.phase := by
  unfold applyProgress; split <;> simp
@[simp] theorem applyProgress_resetLeft (n : Word32) (p : Progress) (s : State) :
    (applyProgress n p s).resetLeft = s.resetLeft := by
  unfold applyProgress; split <;> simp
@[simp] theorem applyProgress_clk (n : Word32) (p : Progress) (s : State) :
    (applyProgress n p s).clk = s.clk := by
  unfold applyProgress; split <;> simp
@[simp] theorem applyProgress_sms (n : Word32) (p : Progress) (s : State) :
    (applyProgress n p s).sms = s.sms := by
  unfold applyProgress; split <;> simp
@[simp] theorem applyProgress_rsv (n : Word32) (p : Progress) (s : State) :
    (applyProgress n p s).rsv = s.rsv := by
  unfold applyProgress; split <;> simp
@[simp] theorem applyProgress_pgu (n : Word32) (p : Progress) (s : State) :
    (applyProgress n p s).pgu = s.pgu := by
  unfold applyProgress; split <;> simp
@[simp] theorem applyProgress_msc (n : Word32) (p : Progress) (s : State) :
    (applyProgress n p s).msc = s.msc := by
  unfold applyProgress; split <;> simp
@[simp] theorem applyProgress_pco (n : Word32) (p : Progress) (s : State) :
    (applyProgress n p s).pco = s.pco := by
  unfold applyProgress; split <;> simp
@[simp] theorem applyProgress_lcs (n : Word32) (p : Progress) (s : State) :
    (applyProgress n p s).lcs = s.lcs := by
  unfold applyProgress; split <;> simp
@[simp] theorem applyProgress_pending (n : Word32) (p : Progress) (s : State) :
    (applyProgress n p s).pending = s.pending := by
  unfold applyProgress; split <;> simp
@[simp] theorem applyProgress_periods (n : Word32) (p : Progress) (s : State) :
    (applyProgress n p s).periods = s.periods := by
  unfold applyProgress; split <;> simp
@[simp] theorem finishValidation_phase (g : Staging) (s : State) :
    (finishValidation g s).phase = s.phase := by
  unfold finishValidation; split <;> simp
@[simp] theorem finishValidation_resetLeft (g : Staging) (s : State) :
    (finishValidation g s).resetLeft = s.resetLeft := by
  unfold finishValidation; split <;> simp
@[simp] theorem finishValidation_pending (g : Staging) (s : State) :
    (finishValidation g s).pending = s.pending := by
  unfold finishValidation; split <;> simp
@[simp] theorem finishValidation_periods (g : Staging) (s : State) :
    (finishValidation g s).periods = s.periods := by
  unfold finishValidation; split <;> simp

end Sys2Proof.Machine
end

