-- ==== Sys2Proof/Laws/Exchange.lean ====
section
/-! SUPPORT. What the Exchange Unit's operations leave as it was: the editions, the base, the interval and the enables, and
that no operation but the host's clear takes a cause away. -/

namespace Sys2Proof.Machine

/-- The fields of the Exchange Unit that only a commit, a rejection, a start of staging or a register write changes. -/
structure XuHeld where
  applied : Word32
  settled : Word32
  settle : SettleRec
  stage : Option Staging
  base : Word64
  span : Nat
  pendingHi : Word32
  interval : Nat
  enables : BitVec 7
  msiDelivery : Bool

/-- Those fields of an Exchange Unit. -/
def xuHeld (x : XuState) : XuHeld :=
  { applied := x.applied, settled := x.settled, settle := x.settle, stage := x.stage, base := x.base, span := x.span
    pendingHi := x.pendingHi, interval := x.interval, enables := x.enables, msiDelivery := x.msiDelivery }

@[simp] theorem latchBits_held (b : BitVec 7) (x : XuState) : xuHeld (latchBits b x) = xuHeld x := rfl
@[simp] theorem latch_held (c : Cause) (x : XuState) : xuHeld (latch c x) = xuHeld x := rfl
@[simp] theorem causeDue_held (c : Cause) (x : XuState) : xuHeld (causeDue c x) = xuHeld x := by
  unfold causeDue; split <;> rfl
@[simp] theorem recordFault_held (k : FaultKind) (u : Option Nat) (v : Word32) (n : Nat) (x : XuState) :
    xuHeld (recordFault k u v n x) = xuHeld x := by
  unfold recordFault; dsimp only; split <;> simp <;> rfl
@[simp] theorem reportNow_held (r : WriteReason) (x : XuState) : xuHeld (reportNow r x) = xuHeld x := by
  unfold reportNow; split <;> rfl
@[simp] theorem beginReport_held (f : ReportFields) (r : WriteReason) (x : XuState) :
    xuHeld (beginReport f r x) = xuHeld x := rfl
@[simp] theorem beginSurvey_held (x : XuState) : xuHeld (beginSurvey x) = xuHeld x := by
  unfold beginSurvey; split <;> rfl
@[simp] theorem endSurvey_held (x : XuState) : xuHeld (endSurvey x) = xuHeld x := by
  unfold endSurvey; dsimp only; split
  · rw [beginSurvey_held]; rfl
  · rfl
@[simp] theorem markStatus_held (n : Nat) (b : Bool) (x : XuState) : xuHeld (markStatus n b x) = xuHeld x := rfl
@[simp] theorem markAll_held (x : XuState) : xuHeld (markAll x) = xuHeld x := rfl
@[simp] theorem startReports_held (f : ReportFields) (x : XuState) : xuHeld (startReports f x) = xuHeld x := by
  unfold startReports
  dsimp only
  repeat' split
  all_goals first | rfl | (simp only [endSurvey_held]; first | done | rfl)
@[simp] theorem flush_held (s : State) : xuHeld (flush s).xu = xuHeld s.xu := by simp [flush]
@[simp] theorem startSurveys_held (x : XuState) : xuHeld (startSurveys x) = xuHeld x := by
  unfold startSurveys; split
  · exact beginSurvey_held x
  · rfl
@[simp] theorem noBase_held (v : Word32) (x : XuState) : xuHeld (noBase v x) = xuHeld x := by simp [noBase]
@[simp] theorem reportEnded_held (w : ReportWrite) (x : XuState) : xuHeld (reportEnded w x) = xuHeld x := by
  unfold reportEnded; split <;> simp
@[simp] theorem readLive_held (x : XuState) : xuHeld (readLive x) = xuHeld x := rfl
@[simp] theorem readAcks_held (x : XuState) : xuHeld (readAcks x) = xuHeld x := rfl
@[simp] theorem reloadSurvey_held (x : XuState) : xuHeld (reloadSurvey x) = xuHeld x := beginSurvey_held x
@[simp] theorem reportDone_held (w : ReportWrite) (x : XuState) : xuHeld (reportDone w x) = xuHeld x := by
  simp only [reportDone, reportEnded_held, latchBits_held]; rfl
@[simp] theorem reportFailed_held (v : Word32) (w : ReportWrite) (x : XuState) :
    xuHeld (reportFailed v w x) = xuHeld x := by
  simp only [reportFailed, reportEnded_held, recordFault_held]; rfl
@[simp] theorem dropWrites_held (x : XuState) : xuHeld (dropWrites x) = xuHeld x := by
  unfold dropWrites; dsimp only; split
  · rw [endSurvey_held, latchBits_held]; rfl
  · rw [latchBits_held]; rfl
@[simp] theorem baseLost_held (v : Word32) (x : XuState) : xuHeld (baseLost v x) = xuHeld x := by
  unfold baseLost; dsimp only; split
  · rw [noBase_held]; exact dropWrites_held x
  · exact dropWrites_held x
@[simp] theorem stateXu_held (n : Nat) (v : Word32) (e : StateEffect) (x : XuState) :
    xuHeld (stateXu n v e x) = xuHeld x := by
  unfold stateXu; dsimp only; split <;> split <;> simp

/-! ## On the whole part -/

@[simp] theorem claimOp_held (s : State) : xuHeld (claimOp s).xu = xuHeld s.xu := by
  unfold claimOp; dsimp only; split <;> simp

/-- A composition touches the Exchange Unit only through UNLISTED_EXIT (R42). -/
theorem composeOne_held (s : State) (acc : Tbl PageRec × XuState) (x : Nat) :
    xuHeld (composeOne s acc x).2 = xuHeld acc.2 := by
  unfold composeOne; split
  · rfl
  · dsimp only; split <;> simp

theorem composeAll_held (s : State) (m : List Nat) (acc : Tbl PageRec × XuState) :
    xuHeld (m.foldl (composeOne s) acc).2 = xuHeld acc.2 := by
  induction m generalizing acc with
  | nil => rfl
  | cons x rest ih => rw [List.foldl_cons, ih, composeOne_held]

@[simp] theorem composeMarked_held (m : List Nat) (s : State) : xuHeld (composeMarked m s).xu = xuHeld s.xu :=
  composeAll_held s m _

theorem composeEach_held {α : Type} (l : List α) (f : State → α → List Nat) (s : State) :
    xuHeld (l.foldl (fun t x => composeMarked (f t x) t) s).xu = xuHeld s.xu := by
  induction l generalizing s with
  | nil => rfl
  | cons x rest ih => rw [List.foldl_cons, ih, composeMarked_held]

@[simp] theorem pageBlocks_xu (t s : State) : (pageBlocks t s).xu = t.xu := rfl
@[simp] theorem pageBlocks_pco (t s : State) : (pageBlocks t s).pco = t.pco := rfl
@[simp] theorem musterBlocks_xu (t s : State) : (musterBlocks t s).xu = t.xu := rfl
@[simp] theorem musterBlocks_rsv (t s : State) : (musterBlocks t s).rsv = t.rsv := rfl
@[simp] theorem musterBlocks_msc (t s : State) : (musterBlocks t s).msc = t.msc := rfl
@[simp] theorem musterBlocks_pco (t s : State) : (musterBlocks t s).pco = t.pco := rfl
@[simp] theorem musterBlocks_lcs (t s : State) : (musterBlocks t s).lcs = t.lcs := rfl

@[simp] theorem timeNotice_held (g : PguState) (s : State) : xuHeld (timeNotice g s).xu = xuHeld s.xu := by
  unfold timeNotice; rw [pageBlocks_xu]; split <;> simp

@[simp] theorem pairNotices_held (p : List Pair) (s : State) : xuHeld (pairNotices p s).xu = xuHeld s.xu := by
  simp [pairNotices]

@[simp] theorem listNotices_held (g : PguState) (l : List Nat) (s : State) : xuHeld (listNotices g l s).xu = xuHeld s.xu := by
  unfold listNotices; rw [pageBlocks_xu]; exact composeEach_held _ _ s

@[simp] theorem mapNotices_held (c : MscState) (s : State) : xuHeld (mapNotices c s).xu = xuHeld s.xu := by
  unfold mapNotices; rw [pageBlocks_xu]; exact composeEach_held _ (fun _ x => [x]) s

@[simp] theorem surveyWrites_held (n : Nat) (s : State) : xuHeld (surveyWrites n s).xu = xuHeld s.xu := by
  unfold surveyWrites; dsimp only
  split
  · split <;> rfl
  · simp

@[simp] theorem enterRunning_held (s : State) : xuHeld (enterRunning s).xu = xuHeld s.xu := by
  unfold enterRunning; dsimp only
  split <;> simp only [noBase_held, startSurveys_held] <;> rfl

@[simp] theorem runRequest_held (s : State) : xuHeld (runRequest s).xu = xuHeld s.xu := by
  unfold runRequest; split
  · rfl
  · simp
  · split <;> simp

@[simp] theorem musterResume_held (s : State) : xuHeld (musterResume s).xu = xuHeld s.xu := by
  unfold musterResume; split <;> simp

@[simp] theorem haltRequest_held (s : State) : xuHeld (haltRequest s).xu = xuHeld s.xu := by
  unfold haltRequest; split
  · split
    · rfl
    · simp
  · rfl

@[simp] theorem completeHalt_held (s : State) : xuHeld (completeHalt s).xu = xuHeld s.xu := by
  unfold completeHalt; dsimp only
  split <;> simp only [reportNow_held, latch_held] <;> rfl

@[simp] theorem reportCause_held (c : Cause) (s : State) : xuHeld (reportCause c s).xu = xuHeld s.xu := by
  simp [reportCause]

@[simp] theorem announceMuster_held (s : State) : xuHeld (announceMuster s).xu = xuHeld s.xu := by
  simp [announceMuster]

@[simp] theorem enterMustering_held (s : State) : xuHeld (enterMustering s).xu = xuHeld s.xu := by
  simp [enterMustering]

@[simp] theorem completeTest_held (s : State) : xuHeld (completeTest s).xu = xuHeld s.xu := by
  unfold completeTest; dsimp only; split <;> simp

@[simp] theorem callMuster_held (k : MusterKind) (s : State) : xuHeld (callMuster k s).xu = xuHeld s.xu := by
  unfold callMuster
  simp only [musterBlocks_xu, completeTest_held, musterResume_held, mapNotices_held, announceMuster_held]
  split
  · exact claimOp_held _
  · rfl

@[simp] theorem escalate_held (s : State) : xuHeld (escalate s).xu = xuHeld s.xu := by
  simp [escalate]

@[simp] theorem realCall_held (s : State) : xuHeld (realCall s).xu = xuHeld s.xu := by
  unfold realCall; split
  · simp
  · simp
  · split <;> simp
  · split <;> simp

@[simp] theorem levelTest_held (s : State) : xuHeld (levelTest s).xu = xuHeld s.xu := by
  unfold levelTest; rw [musterBlocks_xu]; split <;> simp

@[simp] theorem endCalled_held (s : State) : xuHeld (endCalled s).xu = xuHeld s.xu := by simp [endCalled]

@[simp] theorem recount_held (s : State) : xuHeld (recount s).xu = xuHeld s.xu := by
  unfold recount; rw [musterBlocks_xu]; split <;> simp

@[simp] theorem orderCallReal_held (s : State) : xuHeld (orderCallReal s).xu = xuHeld s.xu := by
  simp [orderCallReal]

@[simp] theorem orderCallDrill_held (s : State) : xuHeld (orderCallDrill s).xu = xuHeld s.xu := by
  unfold orderCallDrill; dsimp only; rw [musterBlocks_xu]; split <;> simp

@[simp] theorem orderStandDown_held (s : State) : xuHeld (orderStandDown s).xu = xuHeld s.xu := by
  unfold orderStandDown; dsimp only; rw [musterBlocks_xu]; split <;> simp

@[simp] theorem markMoved_held (r : Tbl RotState) (s : State) : xuHeld (markMoved r s).xu = xuHeld s.xu := by
  simp [markMoved]

@[simp] theorem raiseStandbyAttention_held (s : State) : xuHeld (raiseStandbyAttention s).xu = xuHeld s.xu := by
  unfold raiseStandbyAttention; dsimp only; split <;> simp

@[simp] theorem returnToStandby_held (s : State) : xuHeld (returnToStandby s).xu = xuHeld s.xu := by
  simp only [returnToStandby, musterBlocks_xu, levelTest_held, announceMuster_held, markMoved_held,
    raiseStandbyAttention_held, claimOp_held]

@[simp] theorem reserveBegin_held (s : State) : xuHeld (reserveBegin s).xu = xuHeld s.xu := by
  simp [reserveBegin]

@[simp] theorem reserveFinish_held (s : State) : xuHeld (reserveFinish s).xu = xuHeld s.xu := by
  simp [reserveFinish]

@[simp] theorem withRecord_held (x : Nat) (r : LineRec) (s : State) : xuHeld (withRecord x r s).xu = xuHeld s.xu := by
  simp [withRecord]

@[simp] theorem finishTxn_held (n x idle : Nat) (r : LineRec) (s : State) :
    xuHeld (finishTxn n x idle r s).xu = xuHeld s.xu := by
  simp [finishTxn]

@[simp] theorem countFail_held (x : Nat) (s : State) : xuHeld (countFail x s).xu = xuHeld s.xu := by simp [countFail]

@[simp] theorem noAnswer_held (n idle : Nat) (t : Txn) (s : State) :
    xuHeld (noAnswer n idle t s).xu = xuHeld s.xu := by
  unfold noAnswer; dsimp only; split <;> simp

@[simp] theorem discardAnswer_held (n idle : Nat) (t : Txn) (s : State) :
    xuHeld (discardAnswer n idle t s).xu = xuHeld s.xu := by
  simp [discardAnswer]

@[simp] theorem heldOffAnswer_held (n : Nat) (t : Txn) (s : State) : xuHeld (heldOffAnswer n t s).xu = xuHeld s.xu := by
  unfold heldOffAnswer; dsimp only; split <;> simp

@[simp] theorem afterTaken_held (n x : Nat) (p : SentPage) (k : Nat) (r : LineRec) (s : State) :
    xuHeld (afterTaken n x p k r s).xu = xuHeld s.xu := by
  unfold afterTaken; split
  · simp
  · split <;> simp

@[simp] theorem headTaken_held (n x : Nat) (p : SentPage) (s : State) : xuHeld (headTaken n x p s).xu = xuHeld s.xu := by
  simp [headTaken]

@[simp] theorem blockTaken_held (n x : Nat) (p : SentPage) (k : Nat) (s : State) :
    xuHeld (blockTaken n x p k s).xu = xuHeld s.xu := by
  simp [blockTaken]

@[simp] theorem stateTaken_held (n x : Nat) (a : StateFields) (s : State) :
    xuHeld (stateTaken n x a s).xu = xuHeld s.xu := by
  unfold stateTaken; dsimp only; split <;> simp

@[simp] theorem graphMoved_held (s : State) : xuHeld (graphMoved s).xu = xuHeld s.xu := by
  simp only [graphMoved, pairNotices_held]; rfl

@[simp] theorem deliverClosure_held (w : Word64) (s : State) : xuHeld (deliverClosure w s).xu = xuHeld s.xu := by
  unfold deliverClosure; dsimp only; split
  · rfl
  · exact graphMoved_held _

@[simp] theorem deliverExterior_held (b : Bool) (s : State) : xuHeld (deliverExterior b s).xu = xuHeld s.xu := by
  unfold deliverExterior; dsimp only; split
  · rfl
  · exact graphMoved_held _

@[simp] theorem liveTaken_held (bs : List Byte) (s : State) : xuHeld (liveTaken bs s).xu = xuHeld s.xu := by
  simp [liveTaken]

@[simp] theorem acksTaken_held (bs : List Byte) (s : State) : xuHeld (acksTaken bs s).xu = xuHeld s.xu := by
  unfold acksTaken; dsimp only; rw [surveyWrites_held]; split <;> simp

@[simp] theorem surveyReadFailed_held (v : Survey) (s : State) : xuHeld (surveyReadFailed v s).xu = xuHeld s.xu := by
  unfold surveyReadFailed; dsimp only; split <;> simp

@[simp] theorem statusDone_held (x : Nat) (c : StatusRec) (s : State) : xuHeld (statusDone x c s).xu = xuHeld s.xu := by
  simp only [statusDone, surveyWrites_held]; rfl

@[simp] theorem statusFailed_held (x : Nat) (s : State) : xuHeld (statusFailed x s).xu = xuHeld s.xu := by
  simp [statusFailed]

@[simp] theorem minuteTaken_held (s : State) : xuHeld (minuteTaken s).xu = xuHeld s.xu := by
  simp only [minuteTaken, pageBlocks_xu, markMoved_held, listNotices_held, timeNotice_held, claimOp_held]
  simp

@[simp] theorem moveRot_held (x : Nat) (r : RotState) (s : State) : xuHeld (moveRot x r s).xu = xuHeld s.xu := by
  simp [moveRot]

@[simp] theorem solveTaken_held (p : Pair) (s : State) : xuHeld (solveTaken p s).xu = xuHeld s.xu := by
  unfold solveTaken; dsimp only; split <;> simp

end Sys2Proof.Machine
end

