-- ==== Sys2Proof/Laws/Muster.lean ====
section
/-! SUPPORT. What the muster operations do to the Muster Controller (R66 to R75), each said once. -/

namespace Sys2Proof.Machine

/-- The Muster Controller at the entry into MUSTERING (R72). -/
def endedMsc (c : MscState) : MscState := { c with state := .mustering, calledTimer := none }

@[simp] theorem composeMarked_msc' (m : List Nat) (s : State) : (composeMarked m s).msc = s.msc := rfl

@[simp] theorem enterMustering_msc (s : State) : (enterMustering s).msc = endedMsc s.msc := rfl

/-- The completion test ends CALLED or leaves the Muster Controller as it was (R72). -/
theorem completeTest_msc (s : State) :
    (completeTest s).msc = if tallyComplete s then endedMsc s.msc else s.msc := by
  unfold completeTest; dsimp only; split <;> simp

@[simp] theorem recomputeMap_msc (s : State) :
    (recomputeMap s).msc =
      { s.msc with map := if s.msc.state = .standby then s.msc.map else some (freshMap s.sms s.rsv.slots) } := rfl

/-- The Muster Controller right after a call, before the tally is tested: the map is built at a call from STANDBY and
kept otherwise (R70, R83). -/
def callBase (k : MusterKind) (s : State) : MscState :=
  { calledMsc k s.msc with
    map :=
      if s.msc.state = .standby then some (freshMap s.sms (claimOp { s with msc := calledMsc k s.msc }).rsv.slots)
      else s.msc.map }

/-- The Muster Controller after a call: CALLED, or MUSTERING where the tally was complete at once (R70, R72). -/
theorem callMuster_msc (k : MusterKind) (s : State) :
    (callMuster k s).msc = callBase k s ∨ (callMuster k s).msc = endedMsc (callBase k s) := by
  unfold callMuster
  simp only [musterBlocks_msc, completeTest_msc, musterResume_msc, mapNotices_msc, announceMuster_msc]
  unfold callBase
  by_cases h : s.msc.state = .standby
  · simp only [h, if_true]
    split
    · right; rfl
    · left; rfl
  · simp only [h, if_false]
    split
    · right; rfl
    · left; rfl

/-- The Muster Controller right after an escalation (R73). -/
theorem escalate_msc (s : State) :
    (escalate s).msc = escalatedMsc s.msc ∨ (escalate s).msc = endedMsc (escalatedMsc s.msc) := by
  unfold escalate
  simp only [musterBlocks_msc, completeTest_msc, announceMuster_msc]
  split
  · right; rfl
  · left; rfl

/-- After a REAL call by the table of R69 a REAL muster is called (R66, R70, R73). -/
theorem realCall_real (s : State) :
    (realCall s).msc.kind = .real ∧ ((realCall s).msc.state = .called ∨ (realCall s).msc.state = .mustering) := by
  have hcall : ∀ u : State, (callMuster .real u).msc.kind = .real ∧
      ((callMuster .real u).msc.state = .called ∨ (callMuster .real u).msc.state = .mustering) := by
    intro u
    rcases callMuster_msc .real u with h | h <;> rw [h] <;> simp [callBase, calledMsc, endedMsc]
  have hesc : ∀ u : State, (u.msc.state = .called ∨ u.msc.state = .mustering) → (escalate u).msc.kind = .real ∧
      ((escalate u).msc.state = .called ∨ (escalate u).msc.state = .mustering) := by
    intro u hu
    rcases escalate_msc u with h | h <;> rw [h] <;> simp [escalatedMsc, endedMsc, hu]
  unfold realCall
  split
  · exact hcall s
  · exact hcall s
  · split
    · rename_i hs hk; exact ⟨hk, .inl hs⟩
    · rename_i hs hk; exact hesc s (.inl hs)
  · split
    · rename_i hs hk; exact ⟨hk, .inr hs⟩
    · rename_i hs hk; exact hesc s (.inr hs)

/-- The test of R66, said once. -/
theorem levelTest_msc (s : State) :
    (levelTest s).msc =
      if s.sms.settings.alarmSense = .level ∧ s.msc.alarm = some true then (realCall s).msc else s.msc := by
  unfold levelTest; rw [musterBlocks_msc]; split <;> rfl

/-- A recount ends CALLED, with the test of R66, or leaves the Muster Controller as it was (R72). -/
theorem recount_msc (s : State) :
    (recount s).msc = if tallyComplete s then (levelTest (enterMustering s)).msc else s.msc := by
  unfold recount; rw [musterBlocks_msc]; split
  · simp [endCalled]
  · rfl

@[simp] theorem withRecord_msc (x : Nat) (r : LineRec) (s : State) :
    (withRecord x r s).msc = (recount (shedAt x { s with lcs := setLineRec x r s.lcs })).msc := rfl

end Sys2Proof.Machine
end

