-- ==== Sys2Proof/Laws/Exec.lean ====
section
/-! SUPPORT. What every command can do, said once: it leaves the state as it is, or its event comes about and the report
writes that this made due begin. -/

namespace Sys2Proof.Machine

/-- Does the reply window of a line's transaction stand open (R126)? -/
theorem awaiting_some {s : State} {n : Nat} {t : Txn} (h : awaiting s n = some t) :
    (lineAt s.lcs n).txn = some t ∧ windowOpen t = true := by
  unfold awaiting at h
  exact ⟨(Option.filter_eq_some_iff.mp h).1, (Option.filter_eq_some_iff.mp h).2⟩

/-- An answer to a page frame or a poll that the frame does not allow, or that fails a check. -/
def Discards (n : Nat) (s u : State) : Prop := ∃ t idle, awaiting s n = some t ∧ u = discardAnswer n idle t s

/-- What a command does when its event comes about, before the report writes it makes due begin. The five commands that
begin none say their whole effect. -/
def Effect : Instr → State → State → Prop
  | .powerOnReset, s, u => u = powerOn s
  | .functionReset _, s, u => u = functionBegin s
  | .functionResetEnd, s, u => s.phase = .function ∧ u = { s with phase := .operating, resetLeft := 0 }
  | .powerOnResetEnd, s, u => s.phase = .powerOn ∧ u = { s with phase := .operating }
  | .voyageSecond, s, u => u = { s with clk := secondTaken s.clk }
  | .unmappedAccess _ _ _, _, _ => False
  | .runRequest, s, u => u = runRequest s
  | .haltRequest, s, u => u = haltRequest s
  | .causeEnablesWrite e, s, u => u = { s with xu := withCauses s.xu.causes e s.xu }
  | .causeClear v, s, u => u = { s with xu := withCauses (s.xu.causes &&& ~~~clearedCauses v) s.xu.enables s.xu }
  | .xbaseHiWrite v, s, u => u = { s with xu := { s.xu with pendingHi := v } }
  | .xbaseLoWrite v, s, u => u = { s with xu := xbaseXu s.clk.second v s.xu }
  | .surveyWrite v, s, u => u = { s with xu := surveyXu v s.xu }
  | .callReal, s, u => u = orderCallReal s
  | .callDrill, s, u => u = orderCallDrill s
  | .standDown, s, u => u = orderStandDown s
  | .badOrder _, s, u => u = withOutcome .badOrder s
  | .alarmQualifiedTransition level, s, u =>
      s.msc.alarm = some (!level) ∧ pinHeld level s.msc.alarmPin = true
        ∧ (s.sms.settings.alarmSense = .level ∧ u = levelTest { s with msc := { s.msc with alarm := some level } }
          ∨ s.sms.settings.alarmSense = .edge ∧ level = true
              ∧ u = musterBlocks (realCall { s with msc := { s.msc with alarm := some level } }) s
          ∨ s.sms.settings.alarmSense = .edge ∧ level = false ∧ u = { s with msc := { s.msc with alarm := some level } })
  | .alarmInitialLevel level, s, u =>
      s.msc.alarm = none ∧ pinHeld level s.msc.alarmPin = true
        ∧ u = levelTest { s with msc := { s.msc with alarm := some level } }
  | .reserveQualifiedRise, s, u =>
      s.msc.reserveLevel = some false ∧ pinHeld true s.msc.reservePin = true
        ∧ u = reserveBegin { s with msc := { s.msc with reserveLevel := some true } }
  | .reserveQualifiedFall, s, u =>
      s.msc.reserveLevel = some true ∧ pinHeld false s.msc.reservePin = true
        ∧ u = reserveFinish { s with msc := { s.msc with reserveLevel := some false } }
  | .reserveInitialLevel level, s, u =>
      s.msc.reserveLevel = none ∧ pinHeld level s.msc.reservePin = true
        ∧ (level = true ∧ u = reserveBegin { s with msc := { s.msc with reserveLevel := some true } }
          ∨ level = false ∧ u = { s with msc := { s.msc with reserveLevel := some false } })
  | .minuteEvent, s, u => u = minuteTaken s
  | .calledTimerExpiry, s, u => s.msc.calledTimer = some 0 ∧ s.msc.state = .called ∧ u = endCalled s
  | .standDownHoldExpiry, s, u => s.msc.holdTimer = some 0 ∧ s.msc.state = .standingDown ∧ u = returnToStandby s
  | .surveyCountdownExpiry, s, u => u = { s with xu := reloadSurvey s.xu }
  | .stepCountdownExpiry x, s, u =>
      ∃ r n, expiredStep s x = some (r, n)
        ∧ u = moveRot x (stepBoundary s.pco.rotations s.pco.interjections (voyageMinute s.clk) n r) s
  | .interjectionCountdownExpiry x, s, u =>
      ∃ r, expiredInterj s x = some r
        ∧ u = moveRot x (interjBoundary s.pco.interjections (voyageMinute s.clk) r) s
  | .refreshCountdownExpiry x, s, u => u = { s with lcs := expireRefresh x s.lcs }
  | .solveComplete, s, u => ∃ p, solvingPair s.rsv.slots = some p ∧ u = solveTaken p s
  | .turn n, s, u => n < s.lcs.lines.length ∧ turnReady (lineAt s.lcs n) = true ∧ u = takeTurn n s
  | .silentCycleExpiry n, s, u =>
      n < s.lcs.lines.length ∧ u = { s with lcs := setLine n (silenceOver (lineAt s.lcs n)) s.lcs }
  | .stateAnswer n flags serial service assist, s, u =>
      (∃ t, awaiting s n = some t ∧ t.transfer = none
        ∧ u = stateTaken n t.station { flags, serial, service, assist } s) ∨ Discards n s u
  | .takenToPageHead n, s, u =>
      (∃ t p, awaiting s n = some t ∧ t.transfer = some (p, 0) ∧ u = headTaken n t.station p s) ∨ Discards n s u ∨ u = s
  | .takenToPageBlock n, s, u =>
      (∃ t p k, awaiting s n = some t ∧ t.transfer = some (p, k + 1) ∧ u = blockTaken n t.station p (k + 1) s)
        ∨ Discards n s u ∨ u = s
  | .heldOff n, s, u =>
      (∃ t, awaiting s n = some t ∧ t.transfer ≠ none ∧ u = heldOffAnswer n t s) ∨ Discards n s u
  | .answerDiscarded n, s, u => Discards n s u
  | .replyWindowTimeout n, s, u => ∃ t, (lineAt s.lcs n).txn = some t ∧ windowClosed t = true ∧ u = noAnswer n idlePeriods t s
  | .publishWordRead bs, s, u => u = { s with xu := publishTaken bs s.xu }
  | .liveWordsRead bs, s, u => u = liveTaken bs s
  | .ackArrayRead bs, s, u => u = acksTaken bs s
  | .statusRecordWritten, s, u => ∃ x c left, s.xu.survey = some (.status x c left) ∧ u = statusDone x c s
  | .statusWriteFailed, s, u => ∃ x c left, s.xu.survey = some (.status x c left) ∧ u = statusFailed x s
  | .reportWriteDone, s, u => ∃ w, s.xu.reportWrite = some w ∧ u = { s with xu := reportDone w s.xu }
  | .reportWriteFailed, s, u => ∃ w, s.xu.reportWrite = some w ∧ u = { s with xu := reportFailed s.clk.second w s.xu }
  | .busReadFailed .survey, s, u => ∃ v, s.xu.survey = some v ∧ surveyReads v = true ∧ u = surveyReadFailed v s
  | .busReadFailed .staging, s, u =>
      ∃ g, s.xu.stage = some g ∧ awaitsRead g = true ∧ u = stagingFailed g s
  | .noticeHeaderRead bs, s, u =>
      ∃ g, s.xu.stage = some g ∧ g.phase = .header ∧ u = applyProgress g.number (headerTaken bs g) s
  | .directoryRead bs, s, u =>
      ∃ g, s.xu.stage = some g ∧ g.phase = .directory ∧ u = applyProgress g.number (directoryTaken bs g) s
  | .noticeEntriesRead bs, s, u =>
      ∃ g, s.xu.stage = some g ∧ g.phase = .entries
        ∧ u = applyProgress g.number (takeEntries g (parseEntries bs g.count)) s
  | .recordRead bs, s, u =>
      ∃ g entry leaf sub index last, s.xu.stage = some g ∧ g.phase = .record entry leaf sub index last
        ∧ u = applyProgress g.number (takeRecord g entry leaf sub index last bs) s
  | .publishWordReread bs, s, u =>
      ∃ g, s.xu.stage = some g ∧ g.phase = .reread ∧ u = applyProgress g.number (rereadTaken bs g) s
  | .validationDone, s, u => ∃ g, s.xu.stage = some g ∧ g.phase = .validating ∧ u = finishValidation g s
  | .haltComplete, s, u => haltReady s = true ∧ u = completeHalt s

/-- The commands whose effect is whole as `Effect` says it: resets, their ends and the voyage second begin no report write
(R44, R190). -/
def quiet : Instr → Bool
  | .powerOnReset => true
  | .functionReset _ => true
  | .functionResetEnd => true
  | .powerOnResetEnd => true
  | .voyageSecond => true
  | _ => false

/-- What `answer` can answer. -/
theorem answer_cases {can : Bool} {u s t : State} (h : answer can u s = .next t) :
    t = s ∨ s.phase = .operating ∧ can = true ∧ t = flush u := by
  unfold answer at h
  injection h with h
  subst h
  by_cases hc : (operating s && can) = true
  · rw [if_pos hc]
    simp only [operating, Bool.and_eq_true, decide_eq_true_eq] at hc
    exact .inr ⟨hc.1, hc.2, rfl⟩
  · rw [if_neg hc]
    exact .inl rfl

/-- What `answer` answers where the part works and the event can come about. -/
theorem answer_takes {can : Bool} (u : State) {s : State} (hp : s.phase = .operating) (hc : can = true) :
    answer can u s = .next (flush u) := by
  simp [answer, operating, hp, hc]

/-- Everything a command can do: nothing, or its effect, followed by the report writes that are due. -/
theorem exec_effect {c : Instr} {s t : State} (h : exec c s = .next t) :
    t = s ∨ quiet c = true ∧ Effect c s t ∨ quiet c = false ∧ ∃ u, Effect c s u ∧ t = flush u := by
  have key : ∀ {can : Bool} {u : State}, answer can u s = .next t → quiet c = false → (can = true → Effect c s u) →
      t = s ∨ quiet c = true ∧ Effect c s t ∨ quiet c = false ∧ ∃ u, Effect c s u ∧ t = flush u := by
    intro can u e q f
    rcases answer_cases e with rfl | ⟨-, hc, rfl⟩
    · exact .inl rfl
    · exact .inr (.inr ⟨q, u, f hc, rfl⟩)
  cases c <;> simp only [exec] at h
  case powerOnReset => injection h with h; exact .inr (.inl ⟨rfl, h.symm⟩)
  case functionReset src =>
    simp only [execFunctionReset] at h; injection h with h
    split at h
    · exact .inr (.inl ⟨rfl, h.symm⟩)
    · exact .inl h.symm
  case functionResetEnd =>
    simp only [execFunctionResetEnd] at h; injection h with h
    split at h
    · rename_i hp; exact .inr (.inl ⟨rfl, hp, h.symm⟩)
    · exact .inl h.symm
  case powerOnResetEnd =>
    simp only [execPowerOnResetEnd] at h; injection h with h
    split at h
    · rename_i hp; exact .inr (.inl ⟨rfl, hp, h.symm⟩)
    · exact .inl h.symm
  case voyageSecond =>
    simp only [execVoyageSecond] at h; injection h with h
    split at h
    · exact .inr (.inl ⟨rfl, h.symm⟩)
    · exact .inl h.symm
  case unmappedAccess => simp only [execUnmappedAccess] at h; injection h with h; exact .inl h.symm
  case minuteEvent =>
    simp only [execMinuteEvent] at h; injection h with h
    split at h
    · exact .inr (.inr ⟨rfl, _, rfl, h.symm⟩)
    · exact .inl h.symm
  case alarmQualifiedTransition level =>
    refine key h rfl fun hc => ?_
    simp only [Bool.and_eq_true, decide_eq_true_eq] at hc
    refine ⟨hc.1, hc.2, ?_⟩
    cases hs : s.sms.settings.alarmSense
    · exact .inl ⟨rfl, rfl⟩
    · cases level
      · exact .inr (.inr ⟨rfl, rfl, rfl⟩)
      · exact .inr (.inl ⟨rfl, rfl, rfl⟩)
  case alarmInitialLevel level =>
    refine key h rfl fun hc => ?_
    simp only [Bool.and_eq_true, decide_eq_true_eq] at hc
    exact ⟨hc.1, hc.2, rfl⟩
  case reserveQualifiedRise =>
    refine key h rfl fun hc => ?_
    simp only [Bool.and_eq_true, decide_eq_true_eq] at hc
    exact ⟨hc.1, hc.2, rfl⟩
  case reserveQualifiedFall =>
    refine key h rfl fun hc => ?_
    simp only [Bool.and_eq_true, decide_eq_true_eq] at hc
    exact ⟨hc.1, hc.2, rfl⟩
  case reserveInitialLevel level =>
    refine key h rfl fun hc => ?_
    simp only [Bool.and_eq_true, decide_eq_true_eq] at hc
    refine ⟨hc.1, hc.2, ?_⟩
    cases level
    · exact .inr ⟨rfl, rfl⟩
    · exact .inl ⟨rfl, rfl⟩
  case calledTimerExpiry =>
    refine key h rfl fun hc => ?_
    simp only [Bool.and_eq_true, decide_eq_true_eq] at hc
    exact ⟨hc.1, hc.2, rfl⟩
  case standDownHoldExpiry =>
    refine key h rfl fun hc => ?_
    simp only [Bool.and_eq_true, decide_eq_true_eq] at hc
    exact ⟨hc.1, hc.2, rfl⟩
  case stepCountdownExpiry x =>
    refine key h rfl fun hc => ?_
    obtain ⟨⟨r, n⟩, he⟩ := Option.isSome_iff_exists.mp hc
    exact ⟨r, n, he, by rw [he]⟩
  case interjectionCountdownExpiry x =>
    refine key h rfl fun hc => ?_
    obtain ⟨r, he⟩ := Option.isSome_iff_exists.mp hc
    exact ⟨r, he, by rw [he]⟩
  case solveComplete =>
    refine key h rfl fun hc => ?_
    obtain ⟨p, he⟩ := Option.isSome_iff_exists.mp hc
    exact ⟨p, he, by rw [he]⟩
  case turn n =>
    refine key h rfl fun hc => ?_
    simp only [Bool.and_eq_true, decide_eq_true_eq] at hc
    exact ⟨hc.1, hc.2, rfl⟩
  case silentCycleExpiry n =>
    refine key h rfl fun hc => ?_
    simp only [Bool.and_eq_true, decide_eq_true_eq] at hc
    exact ⟨hc.1, rfl⟩
  case stateAnswer n flags serial service assist =>
    refine key h rfl fun hc => ?_
    obtain ⟨t, he⟩ := Option.isSome_iff_exists.mp hc
    rw [he]
    cases ht : t.transfer with
    | none => exact .inl ⟨t, he, ht, by simp only [ht]⟩
    | some q => exact .inr ⟨t, idlePeriods, he, by simp only [ht]⟩
  case takenToPageHead n =>
    refine key h rfl fun hc => ?_
    obtain ⟨t, he⟩ := Option.isSome_iff_exists.mp hc
    rw [he]
    match ht : t.transfer with
    | none => exact .inr (.inl ⟨t, idlePeriods, he, by simp only [ht]⟩)
    | some (p, 0) => exact .inl ⟨t, p, he, ht, by simp only [ht]⟩
    | some (_, _ + 1) => exact .inr (.inr (by simp only [ht]))
  case takenToPageBlock n =>
    refine key h rfl fun hc => ?_
    obtain ⟨t, he⟩ := Option.isSome_iff_exists.mp hc
    rw [he]
    match ht : t.transfer with
    | none => exact .inr (.inl ⟨t, idlePeriods, he, by simp only [ht]⟩)
    | some (_, 0) => exact .inr (.inr (by simp only [ht]))
    | some (p, k + 1) => exact .inl ⟨t, p, k, he, ht, by simp only [ht]⟩
  case heldOff n =>
    refine key h rfl fun hc => ?_
    obtain ⟨t, he⟩ := Option.isSome_iff_exists.mp hc
    rw [he]
    cases ht : t.transfer with
    | none => exact .inr ⟨t, idlePeriods, he, by simp only [ht]⟩
    | some q => exact .inl ⟨t, he, by simp [ht], by simp only [ht]⟩
  case answerDiscarded n =>
    refine key h rfl fun hc => ?_
    obtain ⟨t, he⟩ := Option.isSome_iff_exists.mp hc
    exact ⟨t, brokenIdle s n, he, by rw [he]⟩
  case replyWindowTimeout n =>
    refine key h rfl fun hc => ?_
    cases he : (lineAt s.lcs n).txn with
    | none => simp [he] at hc
    | some t => exact ⟨t, he, by simpa [he] using hc, rfl⟩
  case statusRecordWritten =>
    simp only [execStatusRecordWritten] at h
    split at h
    · rename_i x c left hv; exact key h rfl fun _ => ⟨x, c, left, hv, rfl⟩
    · injection h with h; exact .inl h.symm
  case statusWriteFailed =>
    simp only [execStatusWriteFailed] at h
    split at h
    · rename_i x c left hv; exact key h rfl fun _ => ⟨x, c, left, hv, rfl⟩
    · injection h with h; exact .inl h.symm
  case reportWriteDone =>
    simp only [execReportWriteDone] at h
    split at h
    · rename_i w hw; exact key h rfl fun _ => ⟨w, hw, rfl⟩
    · injection h with h; exact .inl h.symm
  case reportWriteFailed =>
    simp only [execReportWriteFailed] at h
    split at h
    · rename_i w hw; exact key h rfl fun _ => ⟨w, hw, rfl⟩
    · injection h with h; exact .inl h.symm
  case busReadFailed side =>
    cases side <;> simp only [execBusReadFailed] at h
    · refine key h rfl fun hc => ?_
      cases hv : s.xu.survey with
      | none => simp [hv] at hc
      | some v => exact ⟨v, hv, by simpa [hv] using hc, rfl⟩
    · refine key h rfl fun hc => ?_
      cases hg : s.xu.stage with
      | none => simp [hg] at hc
      | some g => exact ⟨g, hg, by simpa [hg] using hc, rfl⟩
  case noticeHeaderRead bs =>
    simp only [execNoticeHeaderRead] at h
    split at h
    · rename_i g hg
      refine key h rfl fun hc => ?_
      simp only [Bool.and_eq_true, decide_eq_true_eq] at hc
      exact ⟨g, hg, hc.1, rfl⟩
    · injection h with h; exact .inl h.symm
  case directoryRead bs =>
    simp only [execDirectoryRead] at h
    split at h
    · rename_i g hg
      refine key h rfl fun hc => ?_
      simp only [Bool.and_eq_true, decide_eq_true_eq] at hc
      exact ⟨g, hg, hc.1, rfl⟩
    · injection h with h; exact .inl h.symm
  case noticeEntriesRead bs =>
    simp only [execNoticeEntriesRead] at h
    split at h
    · rename_i g hg
      refine key h rfl fun hc => ?_
      simp only [Bool.and_eq_true, decide_eq_true_eq] at hc
      exact ⟨g, hg, hc.1, rfl⟩
    · injection h with h; exact .inl h.symm
  case recordRead bs =>
    simp only [execRecordRead] at h
    split at h
    · rename_i g hg
      split at h
      · rename_i entry leaf sub index last hp
        exact key h rfl fun _ => ⟨g, entry, leaf, sub, index, last, hg, hp, rfl⟩
      · injection h with h; exact .inl h.symm
    · injection h with h; exact .inl h.symm
  case publishWordReread bs =>
    simp only [execPublishWordReread] at h
    split at h
    · rename_i g hg
      refine key h rfl fun hc => ?_
      simp only [Bool.and_eq_true, decide_eq_true_eq] at hc
      exact ⟨g, hg, hc.1, rfl⟩
    · injection h with h; exact .inl h.symm
  case validationDone =>
    simp only [execValidationDone] at h
    split at h
    · rename_i g hg
      exact key h rfl fun hc => ⟨g, hg, of_decide_eq_true hc, rfl⟩
    · injection h with h; exact .inl h.symm
  case haltComplete => exact key h rfl fun hc => ⟨hc, rfl⟩
  all_goals exact key h rfl fun _ => rfl

end Sys2Proof.Machine
end

