-- ==== Sys2Proof/Laws/Inputs.lean ====
section
/-! SUPPORT. The pins, the reply window and the writes of the Exchange Unit, each said once: what a pin is after a period,
when a command of a pin or of an answer is taken, and what the end of a command can begin. -/

namespace Sys2Proof.Machine

open Sys2Proof.Safety

/-! ## Pins (R65, R86) -/

theorem pinHeld_iff (level : Bool) (p : PinHold) : pinHeld level p = true ↔ PinAt level p := by
  simp only [pinHeld, PinAt, Bool.and_eq_true, decide_eq_true_eq]; exact Iff.rfl

theorem pinHeld_false (level : Bool) (p : PinHold) (h : ¬PinAt level p) : pinHeld level p = false := by
  rw [← pinHeld_iff] at h; simpa using h

/-- A pin after one period (R65). -/
theorem tickPin_later (b : Bool) (p : PinHold) : PinLater p (tickPin b p) := by
  unfold tickPin; split
  · exact .inl ⟨rfl, rfl⟩
  · rename_i h; exact .inr ⟨Ne.symm h, rfl⟩

/-! ## The reply window (R126) -/

theorem windowOpen_iff (t : Txn) : windowOpen t = true ↔ Answerable t := by
  simp only [windowOpen, Answerable, Bool.and_eq_true, Bool.or_eq_true, decide_eq_true_eq, Option.isSome_iff_ne_none]
  exact Iff.rfl

theorem windowClosed_iff (t : Txn) : windowClosed t = true ↔ t.left = 0 ∧ t.coming = none := by
  simp [windowClosed]

/-- The transaction that an answer meets. -/
theorem awaiting_eq {s : State} {n : Nat} {t : Txn} (h : (lineAt s.lcs n).txn = some t) (ha : Answerable t) :
    awaiting s n = some t := by
  simp [awaiting, h, Option.filter, (windowOpen_iff t).2 ha]

/-- An answer that begins outside the reply window meets none. -/
theorem awaiting_none {s : State} {n : Nat} {t : Txn} (h : (lineAt s.lcs n).txn = some t) (ha : ¬Answerable t) :
    awaiting s n = none := by
  simp [awaiting, h, Option.filter, show windowOpen t = false by rw [← windowOpen_iff] at ha; simpa using ha]

/-! ## Surveys and report writes (R181, R183) -/

/-- The end of a survey: none is in progress, or the pending one has begun (R181). -/
theorem endSurvey_cases (x : XuState) :
    endSurvey x = { x with survey := none, surveyPending := false }
      ∨ x.surveyPending = true ∧ x.runState = .running ∧ baseValid x = true
        ∧ endSurvey x = { x with
            survey := some (.publish (inSpan x.span publishOffset 8) busPeriods), surveyPending := false
            surveyBase := x.base } := by
  unfold endSurvey; dsimp only; split
  · rename_i h; exact .inr ⟨h.1, h.2.1, h.2.2, rfl⟩
  · exact .inl rfl

/-- What the end of a command begins (R183, log 17): nothing; a write that was due; the survey's write; the end of a survey
whose report needs no write; or, with no valid base, no write at all. -/
theorem startReports_cases (f : ReportFields) (x : XuState) :
    startReports f x = x
      ∨ x.reportWrite = none
        ∧ (baseValid x = true
            ∧ ((∃ r rest, x.reportDue = r :: rest ∧ startReports f x = beginReport f r { x with reportDue := rest })
              ∨ x.survey = some .report ∧ startReports f x = beginReport f .survey x
              ∨ x.survey = some .report ∧ x.reportMark = false ∧ x.reportLast = some f ∧ startReports f x = endSurvey x)
          ∨ baseValid x = false
            ∧ (startReports f x = { x with reportDue := [] }
              ∨ x.survey = some .report ∧ startReports f x = endSurvey { x with reportDue := [] })) := by
  unfold startReports; split
  · exact .inl rfl
  · rename_i hw
    split
    · rename_i hb
      split
      · rename_i r rest hd; exact .inr ⟨hw, .inl ⟨hb, .inl ⟨r, rest, hd, rfl⟩⟩⟩
      · split
        · rename_i hs
          split
          · exact .inr ⟨hw, .inl ⟨hb, .inr (.inl ⟨hs, rfl⟩)⟩⟩
          · rename_i hc; simp at hc; exact .inr ⟨hw, .inl ⟨hb, .inr (.inr ⟨hs, hc.1, hc.2, rfl⟩)⟩⟩
        · exact .inl rfl
    · rename_i hb; simp at hb
      dsimp only; split
      · rename_i hs; exact .inr ⟨hw, .inr ⟨hb, .inr ⟨hs, rfl⟩⟩⟩
      · exact .inr ⟨hw, .inr ⟨hb, .inl rfl⟩⟩

/-- Step 4 of a survey from a station on (R181, R186): a status write begins, or the report block's turn comes, or with no
valid base the survey ends. -/
theorem surveyWrites_cases (n : Nat) (s : State) :
    (baseValid s.xu = true
      ∧ ((∃ x, nextStatus s n = some x
            ∧ (surveyWrites n s).xu = markStatus x false
                { s.xu with survey := some (.status x (statusRec s x) busPeriods), surveyBase := s.xu.base })
          ∨ nextStatus s n = none ∧ (surveyWrites n s).xu = { s.xu with survey := some .report }))
      ∨ baseValid s.xu = false ∧ (surveyWrites n s).xu = endSurvey s.xu := by
  unfold surveyWrites; dsimp only; split
  · rename_i h; refine .inl ⟨h, ?_⟩
    split
    · rename_i x hx; exact .inl ⟨x, hx, rfl⟩
    · rename_i hx; exact .inr ⟨hx, rfl⟩
  · rename_i h; exact .inr ⟨by simpa using h, rfl⟩

end Sys2Proof.Machine
end

