-- ==== Sys2Proof/Laws/Table.lean ====
section
/-! SUPPORT. The sparse tables: reading after a change, and that every change keeps the one canonical form. -/

namespace Sys2Proof.Machine

variable {α β : Type}

/-- A record put at an index is read there. -/
@[simp] theorem tblGet_put_self (t : Tbl α) (k : Nat) (v : α) : tblGet (tblPut t k v) k = some v := by
  induction t with
  | nil => simp [tblPut, tblGet]
  | cons e rest ih =>
    obtain ⟨i, a⟩ := e
    unfold tblPut
    split
    · simp [tblGet]
    · split
      · simp [tblGet]
      · rename_i h1 h2; simp [tblGet, Ne.symm h2, ih]

/-- Every other index reads as before. -/
theorem tblGet_put_ne (t : Tbl α) {k y : Nat} (v : α) (h : y ≠ k) : tblGet (tblPut t k v) y = tblGet t y := by
  induction t with
  | nil => simp [tblPut, tblGet, Ne.symm h]
  | cons e rest ih =>
    obtain ⟨i, a⟩ := e
    unfold tblPut
    split
    · simp [tblGet, Ne.symm h]
    · split
      · rename_i h1 h2; subst h2; simp [tblGet, Ne.symm h]
      · simp only [tblGet]; split
        · rfl
        · exact ih

theorem tblGet_put (t : Tbl α) (k y : Nat) (v : α) :
    tblGet (tblPut t k v) y = if y = k then some v else tblGet t y := by
  split
  · rename_i h; subst h; simp
  · rename_i h; exact tblGet_put_ne t v h

/-- A change of every record is read through. -/
@[simp] theorem tblGet_map (f : Nat → α → β) (t : Tbl α) (k : Nat) : tblGet (tblMap f t) k = (tblGet t k).map (f k) := by
  induction t with
  | nil => rfl
  | cons e rest ih =>
    obtain ⟨i, a⟩ := e
    simp only [tblMap, tblGet]; split
    · rename_i h; subst h; rfl
    · exact ih

@[simp] theorem tblKeys_map (f : Nat → α → β) (t : Tbl α) : tblKeys (tblMap f t) = tblKeys t := by
  induction t with
  | nil => rfl
  | cons e rest ih =>
    simp only [tblKeys] at ih
    simp [tblMap, tblKeys, ih]

theorem tblGetD_put_self (t : Tbl α) (k : Nat) (v d : α) : tblGetD (tblPut t k v) k d = v := by simp [tblGetD]

theorem tblGetD_put_ne (t : Tbl α) {k y : Nat} (v d : α) (h : y ≠ k) :
    tblGetD (tblPut t k v) y d = tblGetD t y d := by simp [tblGetD, tblGet_put_ne t v h]

/-- The indices listed are those in use. -/
theorem mem_keys (t : Tbl α) (k : Nat) : k ∈ tblKeys t ↔ tblHas t k = true := by
  induction t with
  | nil => simp [tblKeys, tblHas, tblGet]
  | cons e rest ih =>
    obtain ⟨i, a⟩ := e
    simp only [tblHas, tblKeys] at ih
    simp only [tblKeys, tblHas, tblGet, List.map_cons, List.mem_cons]
    split
    · rename_i h; subst h; simp
    · rename_i h; rw [ih]; constructor
      · rintro (h' | h')
        · exact absurd h'.symm h
        · exact h'
      · exact .inr

theorem get_mem {t : Tbl α} {k : Nat} {a : α} (h : tblGet t k = some a) : (k, a) ∈ t := by
  induction t with
  | nil => simp [tblGet] at h
  | cons e rest ih =>
    obtain ⟨i, b⟩ := e
    simp only [tblGet] at h
    split at h
    · rename_i hk; subst hk; injection h with h; subst h; simp
    · exact List.mem_cons_of_mem _ (ih h)

theorem keys_put (t : Tbl α) (k : Nat) (v : α) {y : Nat} (h : y ∈ tblKeys (tblPut t k v)) : y = k ∨ y ∈ tblKeys t := by
  rw [mem_keys, tblHas, tblGet_put] at h
  split at h
  · exact .inl ‹_›
  · exact .inr ((mem_keys t y).mpr h)

/-- The form, index by index. -/
theorem sorted_cons (e : Nat × α) (rest : Tbl α) :
    tblSorted (e :: rest) = true ↔ (∀ y ∈ tblKeys rest, e.1 < y) ∧ tblSorted rest = true := by
  unfold tblSorted tblKeys
  rw [decide_eq_true_iff, decide_eq_true_iff, List.map_cons, List.pairwise_cons]

/-- Putting a record keeps the form. -/
theorem sorted_put {t : Tbl α} (h : tblSorted t = true) (k : Nat) (v : α) : tblSorted (tblPut t k v) = true := by
  induction t with
  | nil => simp [tblPut, tblSorted, tblKeys]
  | cons e rest ih =>
    obtain ⟨i, a⟩ := e
    have hc := (sorted_cons _ _).mp h
    unfold tblPut
    split
    · rename_i hk
      refine (sorted_cons _ _).mpr ⟨?_, h⟩
      intro y hy
      rcases List.mem_cons.mp hy with rfl | hy
      · exact hk
      · exact Nat.lt_trans hk (hc.1 y hy)
    · split
      · rename_i h1 h2
        subst h2
        exact (sorted_cons _ _).mpr hc
      · rename_i h1 h2
        refine (sorted_cons _ _).mpr ⟨?_, ih hc.2⟩
        intro y hy
        rcases keys_put rest k v hy with rfl | hy
        · show i < y; omega
        · exact hc.1 y hy

theorem keys_del (t : Tbl α) (k : Nat) {y : Nat} (h : y ∈ tblKeys (tblDel t k)) : y ∈ tblKeys t := by
  induction t with
  | nil => exact h
  | cons e rest ih =>
    obtain ⟨i, a⟩ := e
    unfold tblDel at h
    split at h
    · exact List.mem_cons_of_mem _ h
    · rcases List.mem_cons.mp h with h | h
      · exact List.mem_cons.mpr (.inl h)
      · exact List.mem_cons_of_mem _ (ih h)

/-- Emptying an index keeps the form. -/
theorem sorted_del {t : Tbl α} (h : tblSorted t = true) (k : Nat) : tblSorted (tblDel t k) = true := by
  induction t with
  | nil => exact h
  | cons e rest ih =>
    obtain ⟨i, a⟩ := e
    have hc := (sorted_cons _ _).mp h
    unfold tblDel
    split
    · exact hc.2
    · exact (sorted_cons _ _).mpr ⟨fun y hy => hc.1 y (keys_del rest k hy), ih hc.2⟩

/-- Setting an index keeps the form. -/
theorem sorted_set {t : Tbl α} (h : tblSorted t = true) (k : Nat) (v : Option α) : tblSorted (tblSet t k v) = true := by
  cases v with
  | none => exact sorted_del h k
  | some a => exact sorted_put h k a

theorem sorted_map {t : Tbl α} (h : tblSorted t = true) (f : Nat → α → β) : tblSorted (tblMap f t) = true := by
  simpa [tblSorted] using h

end Sys2Proof.Machine
end

