-- ==== Sys2Proof/Laws/Lines.lean ====
section
/-! SUPPORT. What the operations do to the lines and the line records: the muster operations change no line record and no
transaction, and a transaction's end changes one station's record. -/

namespace Sys2Proof.Machine

/-! ## Line records and lines, read after a change -/

@[simp] theorem lineRec_setLine (n : Nat) (c : LineCtl) (l : LcsState) (x : Nat) :
    lineRec (setLine n c l) x = lineRec l x := rfl
@[simp] theorem setLine_recs (n : Nat) (c : LineCtl) (l : LcsState) : (setLine n c l).recs = l.recs := rfl
@[simp] theorem setLineRec_lines (x : Nat) (r : LineRec) (l : LcsState) : (setLineRec x r l).lines = l.lines := rfl
@[simp] theorem lineRec_set_self (x : Nat) (r : LineRec) (l : LcsState) : lineRec (setLineRec x r l) x = r :=
  tblGetD_put_self _ _ _ _
theorem lineRec_set_ne {x y : Nat} (r : LineRec) (l : LcsState) (h : y ≠ x) : lineRec (setLineRec x r l) y = lineRec l y :=
  tblGetD_put_ne _ _ _ h
theorem lineRec_of_recs {l m : LcsState} (h : m.recs = l.recs) (x : Nat) : lineRec m x = lineRec l x := by
  unfold lineRec; rw [h]
@[simp] theorem lineAt_set_self {n : Nat} (c : LineCtl) {l : LcsState} (h : n < l.lines.length) :
    lineAt (setLine n c l) n = c := by
  simp [lineAt, setLine, List.getD_eq_getElem?_getD, h]
theorem lineAt_set_ne {n k : Nat} (c : LineCtl) (l : LcsState) (h : k ≠ n) : lineAt (setLine n c l) k = lineAt l k := by
  simp [lineAt, setLine, List.getD_eq_getElem?_getD, List.getElem?_set_ne (Ne.symm h)]
@[simp] theorem setLine_length (n : Nat) (c : LineCtl) (l : LcsState) : (setLine n c l).lines.length = l.lines.length := by
  simp [setLine]

/-! ## The muster operations -/

@[simp] theorem enterRunning_recs (s : State) : (enterRunning s).lcs.recs = s.lcs.recs := rfl
@[simp] theorem beginHalt_recs (s : State) : (beginHalt s).lcs.recs = s.lcs.recs := rfl
@[simp] theorem runRequest_recs (s : State) : (runRequest s).lcs.recs = s.lcs.recs := by
  unfold runRequest; split
  · rfl
  · rfl
  · split <;> rfl
@[simp] theorem haltRequest_recs (s : State) : (haltRequest s).lcs.recs = s.lcs.recs := by
  unfold haltRequest; split
  · split <;> rfl
  · rfl
@[simp] theorem musterResume_recs (s : State) : (musterResume s).lcs.recs = s.lcs.recs := by
  unfold musterResume; split
  · rfl
  · rfl
  · exact runRequest_recs s

/-- A run request leaves the lines, or asks each to run. -/
theorem runRequest_lines (s : State) :
    (runRequest s).lcs.lines = s.lcs.lines ∨ (runRequest s).lcs.lines = s.lcs.lines.map lineRun := by
  unfold runRequest; split
  · exact .inl rfl
  · exact .inr rfl
  · split
    · exact .inr rfl
    · exact .inl rfl
theorem musterResume_lines (s : State) :
    (musterResume s).lcs.lines = s.lcs.lines ∨ (musterResume s).lcs.lines = s.lcs.lines.map lineRun := by
  unfold musterResume; split
  · exact .inl rfl
  · exact .inr rfl
  · exact runRequest_lines s

/-- What a muster operation may do to the lines: leave them, or ask each to run (R78); no line record changes. -/
def LinesKept (l m : LcsState) : Prop := m.recs = l.recs ∧ (m.lines = l.lines ∨ m.lines = l.lines.map lineRun)

theorem LinesKept.refl (l : LcsState) : LinesKept l l := ⟨rfl, .inl rfl⟩
theorem LinesKept.trans {a b c : LcsState} (h : LinesKept a b) (k : LinesKept b c) : LinesKept a c := by
  obtain ⟨h1, h2⟩ := h
  obtain ⟨k1, k2⟩ := k
  refine ⟨k1.trans h1, ?_⟩
  rcases h2 with h2 | h2 <;> rcases k2 with k2 | k2 <;> rw [k2, h2]
  · exact .inl rfl
  · exact .inr rfl
  · exact .inr rfl
  · right; rw [List.map_map]; rfl
theorem LinesKept.lineRec {l m : LcsState} (h : LinesKept l m) (x : Nat) : lineRec m x = lineRec l x := lineRec_of_recs h.1 x
theorem LinesKept.length {l m : LcsState} (h : LinesKept l m) : m.lines.length = l.lines.length := by
  rcases h.2 with h | h <;> rw [h]
  exact List.length_map ..
/-- A line without its service. -/
def lineFrame (l : LineCtl) : LineCtl := { l with service := .silent }
theorem lineFrame_txn {a b : LineCtl} (h : lineFrame a = lineFrame b) : a.txn = b.txn := by
  have k := congrArg LineCtl.txn h; exact k
theorem lineFrame_idle {a b : LineCtl} (h : lineFrame a = lineFrame b) : a.idle = b.idle := by
  have k := congrArg LineCtl.idle h; exact k

/-- Asking every line to run changes its service alone. -/
theorem runLines_frame {l m : List LineCtl} (h : m = l ∨ m = l.map lineRun) (n : Nat) :
    lineFrame (m.getD n resetLine) = lineFrame (l.getD n resetLine) := by
  rcases h with rfl | rfl
  · rfl
  · simp only [List.getD_eq_getElem?_getD, List.getElem?_map]
    cases l[n]? <;> rfl

/-- A line keeps all but its service. -/
theorem LinesKept.line {l m : LcsState} (h : LinesKept l m) (n : Nat) : lineFrame (lineAt m n) = lineFrame (lineAt l n) :=
  runLines_frame h.2 n

theorem musterResume_kept (s : State) : LinesKept s.lcs (musterResume s).lcs := ⟨musterResume_recs s, musterResume_lines s⟩
theorem callMuster_kept (k : MusterKind) (s : State) : LinesKept s.lcs (callMuster k s).lcs := by
  unfold callMuster
  simp only [musterBlocks_lcs, completeTest_lcs]
  refine LinesKept.trans ?_ (musterResume_kept _)
  rw [mapNotices_lcs, announceMuster_lcs]
  split
  · rw [recomputeMap_lcs, claimOp_lcs]; exact .refl _
  · exact .refl _
@[simp] theorem escalate_lcs (s : State) : (escalate s).lcs = s.lcs := by
  unfold escalate
  rw [musterBlocks_lcs, completeTest_lcs, announceMuster_lcs]
theorem realCall_kept (s : State) : LinesKept s.lcs (realCall s).lcs := by
  unfold realCall; split
  · exact callMuster_kept _ s
  · exact callMuster_kept _ s
  · split
    · exact .refl _
    · rw [escalate_lcs]; exact .refl _
  · split
    · exact .refl _
    · rw [escalate_lcs]; exact .refl _
theorem levelTest_kept (s : State) : LinesKept s.lcs (levelTest s).lcs := by
  unfold levelTest; rw [musterBlocks_lcs]; split
  · exact realCall_kept s
  · exact .refl _
theorem endCalled_kept (s : State) : LinesKept s.lcs (endCalled s).lcs := by
  unfold endCalled; rw [musterBlocks_lcs]
  refine LinesKept.trans ?_ (levelTest_kept _)
  rw [enterMustering_lcs]; exact .refl _
theorem recount_kept (s : State) : LinesKept s.lcs (recount s).lcs := by
  unfold recount; rw [musterBlocks_lcs]; split
  · exact endCalled_kept s
  · exact .refl _
theorem orderCallReal_kept (s : State) : LinesKept s.lcs (orderCallReal s).lcs := by
  unfold orderCallReal; rw [musterBlocks_lcs]; exact realCall_kept _
theorem orderCallDrill_kept (s : State) : LinesKept s.lcs (orderCallDrill s).lcs := by
  unfold orderCallDrill; dsimp only; rw [musterBlocks_lcs]; split
  · refine LinesKept.trans ?_ (levelTest_kept _)
    exact callMuster_kept .drill (withOutcome (callDrillOutcome s.msc) s)
  · exact .refl _
theorem orderStandDown_kept (s : State) : LinesKept s.lcs (orderStandDown s).lcs := by
  unfold orderStandDown; dsimp only; rw [musterBlocks_lcs]; split
  · exact LinesKept.trans (by rw [announceMuster_lcs]; exact .refl _) (levelTest_kept _)
  · exact .refl _

/-! ## The end of a transaction -/

/-- A record whose shed flag may have been set (R142). -/
def Shedding (r q : LineRec) : Prop := q = r ∨ q = { r with shed := true }

/-- The line record of a station changes to `r`, and may become shed; every other record stays, and no line (R142). -/
theorem withRecord_recs (x : Nat) (r : LineRec) (s : State) :
    Shedding r (lineRec (withRecord x r s).lcs x) ∧ ∀ y, y ≠ x → lineRec (withRecord x r s).lcs y = lineRec s.lcs y := by
  have hk := recount_kept (shedAt x { s with lcs := setLineRec x r s.lcs })
  unfold withRecord
  refine ⟨?_, fun y hy => ?_⟩
  · rw [hk.lineRec]
    unfold shedAt; dsimp only
    rw [lineRec_set_self]
    split
    · rw [lineRec_set_self]; exact .inr rfl
    · rw [lineRec_set_self]; exact .inl rfl
  · rw [hk.lineRec]
    unfold shedAt; dsimp only
    split
    · rw [lineRec_set_ne _ _ hy, lineRec_set_ne _ _ hy]
    · rw [lineRec_set_ne _ _ hy]

theorem withRecord_lines (x : Nat) (r : LineRec) (s : State) :
    (withRecord x r s).lcs.lines = s.lcs.lines ∨ (withRecord x r s).lcs.lines = s.lcs.lines.map lineRun := by
  have hk := (recount_kept (shedAt x { s with lcs := setLineRec x r s.lcs })).2
  have hs : (shedAt x { s with lcs := setLineRec x r s.lcs }).lcs.lines = s.lcs.lines := by
    unfold shedAt; dsimp only; split <;> rfl
  rw [hs] at hk
  exact hk

theorem withRecord_length (x : Nat) (r : LineRec) (s : State) :
    (withRecord x r s).lcs.lines.length = s.lcs.lines.length := by
  rcases withRecord_lines x r s with h | h <;> rw [h]
  exact List.length_map ..

theorem withRecord_line (x : Nat) (r : LineRec) (s : State) (n : Nat) :
    lineFrame (lineAt (withRecord x r s).lcs n) = lineFrame (lineAt s.lcs n) :=
  runLines_frame (withRecord_lines x r s) n

theorem finishTxn_recs (n x idle : Nat) (r : LineRec) (s : State) :
    Shedding r (lineRec (finishTxn n x idle r s).lcs x) ∧ ∀ y, y ≠ x → lineRec (finishTxn n x idle r s).lcs y = lineRec s.lcs y :=
  withRecord_recs x r _

/-- The line whose transaction ended is idle from here on (R124). -/
theorem finishTxn_line {n : Nat} (x idle : Nat) (r : LineRec) {s : State} (h : n < s.lcs.lines.length) :
    lineFrame (lineAt (finishTxn n x idle r s).lcs n) = lineFrame (endTxn idle (lineAt s.lcs n)) := by
  refine (withRecord_line x r { s with lcs := setLine n (endTxn idle (lineAt s.lcs n)) s.lcs } n).trans ?_
  exact congrArg lineFrame (lineAt_set_self _ h)

theorem finishTxn_length (n x idle : Nat) (r : LineRec) (s : State) :
    (finishTxn n x idle r s).lcs.lines.length = s.lcs.lines.length :=
  (withRecord_length x r _).trans (setLine_length _ _ _)

end Sys2Proof.Machine
end

