-- ==== Sys2Proof/Laws/PerInstr.lean ====
section
/-! SUPPORT. One family of statements about every command as syntax: a well-formed command names only lines and stations
that exist (R9, R124). -/

namespace Sys2Proof.Laws

/-- The line a command names, if any (R124). -/
def lineOperand : Instr → Option Nat
  | .powerOnReset => none
  | .functionReset _ => none
  | .functionResetEnd => none
  | .runRequest => none
  | .haltRequest => none
  | .causeEnablesWrite _ => none
  | .causeClear _ => none
  | .xbaseHiWrite _ => none
  | .xbaseLoWrite _ => none
  | .surveyWrite _ => none
  | .callReal => none
  | .callDrill => none
  | .standDown => none
  | .badOrder _ => none
  | .unmappedAccess _ _ _ => none
  | .alarmQualifiedTransition _ => none
  | .alarmInitialLevel _ => none
  | .reserveQualifiedRise => none
  | .reserveQualifiedFall => none
  | .reserveInitialLevel _ => none
  | .minuteEvent => none
  | .calledTimerExpiry => none
  | .standDownHoldExpiry => none
  | .surveyCountdownExpiry => none
  | .stepCountdownExpiry _ => none
  | .interjectionCountdownExpiry _ => none
  | .refreshCountdownExpiry _ => none
  | .solveComplete => none
  | .turn n => some n
  | .silentCycleExpiry n => some n
  | .stateAnswer n _ _ _ _ => some n
  | .takenToPageHead n => some n
  | .takenToPageBlock n => some n
  | .heldOff n => some n
  | .answerDiscarded n => some n
  | .replyWindowTimeout n => some n
  | .publishWordRead _ => none
  | .liveWordsRead _ => none
  | .ackArrayRead _ => none
  | .statusRecordWritten => none
  | .statusWriteFailed => none
  | .reportWriteDone => none
  | .reportWriteFailed => none
  | .busReadFailed _ => none
  | .noticeHeaderRead _ => none
  | .directoryRead _ => none
  | .noticeEntriesRead _ => none
  | .recordRead _ => none
  | .publishWordReread _ => none
  | .validationDone => none
  | .haltComplete => none
  | .powerOnResetEnd => none
  | .voyageSecond => none

/-- The station number a command names, if any (R9). -/
def stationOperand : Instr → Option Nat
  | .powerOnReset => none
  | .functionReset _ => none
  | .functionResetEnd => none
  | .runRequest => none
  | .haltRequest => none
  | .causeEnablesWrite _ => none
  | .causeClear _ => none
  | .xbaseHiWrite _ => none
  | .xbaseLoWrite _ => none
  | .surveyWrite _ => none
  | .callReal => none
  | .callDrill => none
  | .standDown => none
  | .badOrder _ => none
  | .unmappedAccess _ _ _ => none
  | .alarmQualifiedTransition _ => none
  | .alarmInitialLevel _ => none
  | .reserveQualifiedRise => none
  | .reserveQualifiedFall => none
  | .reserveInitialLevel _ => none
  | .minuteEvent => none
  | .calledTimerExpiry => none
  | .standDownHoldExpiry => none
  | .surveyCountdownExpiry => none
  | .stepCountdownExpiry x => some x
  | .interjectionCountdownExpiry x => some x
  | .refreshCountdownExpiry x => some x
  | .solveComplete => none
  | .turn _ => none
  | .silentCycleExpiry _ => none
  | .stateAnswer _ _ _ _ _ => none
  | .takenToPageHead _ => none
  | .takenToPageBlock _ => none
  | .heldOff _ => none
  | .answerDiscarded _ => none
  | .replyWindowTimeout _ => none
  | .publishWordRead _ => none
  | .liveWordsRead _ => none
  | .ackArrayRead _ => none
  | .statusRecordWritten => none
  | .statusWriteFailed => none
  | .reportWriteDone => none
  | .reportWriteFailed => none
  | .busReadFailed _ => none
  | .noticeHeaderRead _ => none
  | .directoryRead _ => none
  | .noticeEntriesRead _ => none
  | .recordRead _ => none
  | .publishWordReread _ => none
  | .validationDone => none
  | .haltComplete => none
  | .powerOnResetEnd => none
  | .voyageSecond => none

/-- A well-formed command names lines 0 to 7 and stations 0 to 495. -/
def OperandsInRange.Statement (i : Instr) : Prop :=
  i.wf = true → (∀ n, lineOperand i = some n → n < 8) ∧ ∀ x, stationOperand i = some x → x < 496

theorem OperandsInRange.powerOnReset :
    OperandsInRange.Statement (.powerOnReset) :=
  fun _ => ⟨nofun, nofun⟩

theorem OperandsInRange.functionReset (source : ResetSource) :
    OperandsInRange.Statement (.functionReset source) :=
  fun _ => ⟨nofun, nofun⟩

theorem OperandsInRange.functionResetEnd :
    OperandsInRange.Statement (.functionResetEnd) :=
  fun _ => ⟨nofun, nofun⟩

theorem OperandsInRange.runRequest :
    OperandsInRange.Statement (.runRequest) :=
  fun _ => ⟨nofun, nofun⟩

theorem OperandsInRange.haltRequest :
    OperandsInRange.Statement (.haltRequest) :=
  fun _ => ⟨nofun, nofun⟩

theorem OperandsInRange.causeEnablesWrite (enables : BitVec 7) :
    OperandsInRange.Statement (.causeEnablesWrite enables) :=
  fun _ => ⟨nofun, nofun⟩

theorem OperandsInRange.causeClear (value : Word32) :
    OperandsInRange.Statement (.causeClear value) :=
  fun _ => ⟨nofun, nofun⟩

theorem OperandsInRange.xbaseHiWrite (value : Word32) :
    OperandsInRange.Statement (.xbaseHiWrite value) :=
  fun _ => ⟨nofun, nofun⟩

theorem OperandsInRange.xbaseLoWrite (value : Word32) :
    OperandsInRange.Statement (.xbaseLoWrite value) :=
  fun _ => ⟨nofun, nofun⟩

theorem OperandsInRange.surveyWrite (value : Word32) :
    OperandsInRange.Statement (.surveyWrite value) :=
  fun _ => ⟨nofun, nofun⟩

theorem OperandsInRange.callReal :
    OperandsInRange.Statement (.callReal) :=
  fun _ => ⟨nofun, nofun⟩

theorem OperandsInRange.callDrill :
    OperandsInRange.Statement (.callDrill) :=
  fun _ => ⟨nofun, nofun⟩

theorem OperandsInRange.standDown :
    OperandsInRange.Statement (.standDown) :=
  fun _ => ⟨nofun, nofun⟩

theorem OperandsInRange.badOrder (code : BitVec 4) :
    OperandsInRange.Statement (.badOrder code) :=
  fun _ => ⟨nofun, nofun⟩

theorem OperandsInRange.unmappedAccess (offset size : Nat) (value : Word64) :
    OperandsInRange.Statement (.unmappedAccess offset size value) :=
  fun _ => ⟨nofun, nofun⟩

theorem OperandsInRange.alarmQualifiedTransition (level : Bool) :
    OperandsInRange.Statement (.alarmQualifiedTransition level) :=
  fun _ => ⟨nofun, nofun⟩

theorem OperandsInRange.alarmInitialLevel (level : Bool) :
    OperandsInRange.Statement (.alarmInitialLevel level) :=
  fun _ => ⟨nofun, nofun⟩

theorem OperandsInRange.reserveQualifiedRise :
    OperandsInRange.Statement (.reserveQualifiedRise) :=
  fun _ => ⟨nofun, nofun⟩

theorem OperandsInRange.reserveQualifiedFall :
    OperandsInRange.Statement (.reserveQualifiedFall) :=
  fun _ => ⟨nofun, nofun⟩

theorem OperandsInRange.reserveInitialLevel (level : Bool) :
    OperandsInRange.Statement (.reserveInitialLevel level) :=
  fun _ => ⟨nofun, nofun⟩

theorem OperandsInRange.minuteEvent :
    OperandsInRange.Statement (.minuteEvent) :=
  fun _ => ⟨nofun, nofun⟩

theorem OperandsInRange.calledTimerExpiry :
    OperandsInRange.Statement (.calledTimerExpiry) :=
  fun _ => ⟨nofun, nofun⟩

theorem OperandsInRange.standDownHoldExpiry :
    OperandsInRange.Statement (.standDownHoldExpiry) :=
  fun _ => ⟨nofun, nofun⟩

theorem OperandsInRange.surveyCountdownExpiry :
    OperandsInRange.Statement (.surveyCountdownExpiry) :=
  fun _ => ⟨nofun, nofun⟩

theorem OperandsInRange.stepCountdownExpiry (station : Nat) :
    OperandsInRange.Statement (.stepCountdownExpiry station) :=
  fun h => ⟨nofun, fun _ e => Option.some.inj e ▸ of_decide_eq_true h⟩

theorem OperandsInRange.interjectionCountdownExpiry (station : Nat) :
    OperandsInRange.Statement (.interjectionCountdownExpiry station) :=
  fun h => ⟨nofun, fun _ e => Option.some.inj e ▸ of_decide_eq_true h⟩

theorem OperandsInRange.refreshCountdownExpiry (station : Nat) :
    OperandsInRange.Statement (.refreshCountdownExpiry station) :=
  fun h => ⟨nofun, fun _ e => Option.some.inj e ▸ of_decide_eq_true h⟩

theorem OperandsInRange.solveComplete :
    OperandsInRange.Statement (.solveComplete) :=
  fun _ => ⟨nofun, nofun⟩

theorem OperandsInRange.turn (line : Nat) :
    OperandsInRange.Statement (.turn line) :=
  fun h => ⟨fun _ e => Option.some.inj e ▸ of_decide_eq_true h, nofun⟩

theorem OperandsInRange.silentCycleExpiry (line : Nat) :
    OperandsInRange.Statement (.silentCycleExpiry line) :=
  fun h => ⟨fun _ e => Option.some.inj e ▸ of_decide_eq_true h, nofun⟩

theorem OperandsInRange.stateAnswer (line : Nat) (flags : Byte) (serial : Word16) (service assist : Byte) :
    OperandsInRange.Statement (.stateAnswer line flags serial service assist) :=
  fun h => ⟨fun _ e => Option.some.inj e ▸ of_decide_eq_true h, nofun⟩

theorem OperandsInRange.takenToPageHead (line : Nat) :
    OperandsInRange.Statement (.takenToPageHead line) :=
  fun h => ⟨fun _ e => Option.some.inj e ▸ of_decide_eq_true h, nofun⟩

theorem OperandsInRange.takenToPageBlock (line : Nat) :
    OperandsInRange.Statement (.takenToPageBlock line) :=
  fun h => ⟨fun _ e => Option.some.inj e ▸ of_decide_eq_true h, nofun⟩

theorem OperandsInRange.heldOff (line : Nat) :
    OperandsInRange.Statement (.heldOff line) :=
  fun h => ⟨fun _ e => Option.some.inj e ▸ of_decide_eq_true h, nofun⟩

theorem OperandsInRange.answerDiscarded (line : Nat) :
    OperandsInRange.Statement (.answerDiscarded line) :=
  fun h => ⟨fun _ e => Option.some.inj e ▸ of_decide_eq_true h, nofun⟩

theorem OperandsInRange.replyWindowTimeout (line : Nat) :
    OperandsInRange.Statement (.replyWindowTimeout line) :=
  fun h => ⟨fun _ e => Option.some.inj e ▸ of_decide_eq_true h, nofun⟩

theorem OperandsInRange.publishWordRead (bytes : List Byte) :
    OperandsInRange.Statement (.publishWordRead bytes) :=
  fun _ => ⟨nofun, nofun⟩

theorem OperandsInRange.liveWordsRead (bytes : List Byte) :
    OperandsInRange.Statement (.liveWordsRead bytes) :=
  fun _ => ⟨nofun, nofun⟩

theorem OperandsInRange.ackArrayRead (bytes : List Byte) :
    OperandsInRange.Statement (.ackArrayRead bytes) :=
  fun _ => ⟨nofun, nofun⟩

theorem OperandsInRange.statusRecordWritten :
    OperandsInRange.Statement (.statusRecordWritten) :=
  fun _ => ⟨nofun, nofun⟩

theorem OperandsInRange.statusWriteFailed :
    OperandsInRange.Statement (.statusWriteFailed) :=
  fun _ => ⟨nofun, nofun⟩

theorem OperandsInRange.reportWriteDone :
    OperandsInRange.Statement (.reportWriteDone) :=
  fun _ => ⟨nofun, nofun⟩

theorem OperandsInRange.reportWriteFailed :
    OperandsInRange.Statement (.reportWriteFailed) :=
  fun _ => ⟨nofun, nofun⟩

theorem OperandsInRange.busReadFailed (side : ReadSide) :
    OperandsInRange.Statement (.busReadFailed side) :=
  fun _ => ⟨nofun, nofun⟩

theorem OperandsInRange.noticeHeaderRead (bytes : List Byte) :
    OperandsInRange.Statement (.noticeHeaderRead bytes) :=
  fun _ => ⟨nofun, nofun⟩

theorem OperandsInRange.directoryRead (bytes : List Byte) :
    OperandsInRange.Statement (.directoryRead bytes) :=
  fun _ => ⟨nofun, nofun⟩

theorem OperandsInRange.noticeEntriesRead (bytes : List Byte) :
    OperandsInRange.Statement (.noticeEntriesRead bytes) :=
  fun _ => ⟨nofun, nofun⟩

theorem OperandsInRange.recordRead (bytes : List Byte) :
    OperandsInRange.Statement (.recordRead bytes) :=
  fun _ => ⟨nofun, nofun⟩

theorem OperandsInRange.publishWordReread (bytes : List Byte) :
    OperandsInRange.Statement (.publishWordReread bytes) :=
  fun _ => ⟨nofun, nofun⟩

theorem OperandsInRange.validationDone :
    OperandsInRange.Statement (.validationDone) :=
  fun _ => ⟨nofun, nofun⟩

theorem OperandsInRange.haltComplete :
    OperandsInRange.Statement (.haltComplete) :=
  fun _ => ⟨nofun, nofun⟩

theorem OperandsInRange.powerOnResetEnd :
    OperandsInRange.Statement (.powerOnResetEnd) :=
  fun _ => ⟨nofun, nofun⟩

theorem OperandsInRange.voyageSecond :
    OperandsInRange.Statement (.voyageSecond) :=
  fun _ => ⟨nofun, nofun⟩

end Sys2Proof.Laws
end

