-- ==== Sys2Proof/Laws/Slots.lean ====
section
/-! SUPPORT. Which operations change the target slots and the waiting list, and what one claim operation leaves (R30 to
R36). -/

namespace Sys2Proof.Machine

/-- The solver after one claim operation toward these claims, and the selection after it (R34, R36). -/
def claimRsv (desired : List Claim) (r : RsvState) : RsvState :=
  { (claimStep desired r).1 with slots := solverSelect (claimStep desired r).1.slots }

@[simp] theorem claimOp_rsv (s : State) : (claimOp s).rsv = claimRsv (desiredClaims s) s.rsv := rfl

/-! ## The muster operations -/

theorem desiredClaims_called (k : MusterKind) (s : State) :
    desiredClaims { s with msc := calledMsc k s.msc } = musterClaims s.sms := by
  unfold desiredClaims calledMsc; simp

/-- A call moves the claims from STANDBY alone (R35, R70). -/
theorem callMuster_rsv (k : MusterKind) (s : State) :
    (callMuster k s).rsv = if s.msc.state = .standby then claimRsv (musterClaims s.sms) s.rsv else s.rsv := by
  unfold callMuster
  simp only [musterBlocks_rsv, completeTest_rsv, musterResume_rsv, mapNotices_rsv, announceMuster_rsv]
  split
  · rw [recomputeMap_rsv, claimOp_rsv, desiredClaims_called]
  · rfl

@[simp] theorem escalate_rsv (s : State) : (escalate s).rsv = s.rsv := by
  unfold escalate; rw [musterBlocks_rsv, completeTest_rsv, announceMuster_rsv]

theorem realCall_rsv (s : State) :
    (realCall s).rsv = if s.msc.state = .standby then claimRsv (musterClaims s.sms) s.rsv else s.rsv := by
  unfold realCall
  split
  · exact callMuster_rsv _ s
  · exact callMuster_rsv _ s
  · rename_i hs; rw [hs]; split <;> simp
  · rename_i hs; rw [hs]; split <;> simp

theorem levelTest_rsv (s : State) :
    (levelTest s).rsv =
      if s.sms.settings.alarmSense = .level ∧ s.msc.alarm = some true ∧ s.msc.state = .standby then
        claimRsv (musterClaims s.sms) s.rsv
      else s.rsv := by
  unfold levelTest
  rw [musterBlocks_rsv]
  by_cases h : s.sms.settings.alarmSense = .level ∧ s.msc.alarm = some true
  · rw [if_pos h, realCall_rsv]; simp [h]
  · rw [if_neg h, if_neg (fun k => h ⟨k.1, k.2.1⟩)]

/-- Outside STANDBY the test of R66 moves no claim. -/
theorem levelTest_rsv_of_ne {s : State} (h : s.msc.state ≠ .standby) : (levelTest s).rsv = s.rsv := by
  rw [levelTest_rsv, if_neg fun k => h k.2.2]

@[simp] theorem endCalled_rsv (s : State) : (endCalled s).rsv = s.rsv := by
  unfold endCalled
  rw [musterBlocks_rsv, levelTest_rsv_of_ne, enterMustering_rsv]
  simp [endedMsc]

@[simp] theorem recount_rsv (s : State) : (recount s).rsv = s.rsv := by
  unfold recount; rw [musterBlocks_rsv]; split <;> simp

@[simp] theorem withRecord_rsv (x : Nat) (r : LineRec) (s : State) : (withRecord x r s).rsv = s.rsv := by
  unfold withRecord; rw [recount_rsv]; rfl

@[simp] theorem finishTxn_rsv (n x idle : Nat) (r : LineRec) (s : State) : (finishTxn n x idle r s).rsv = s.rsv := by
  unfold finishTxn; rw [withRecord_rsv]

@[simp] theorem noAnswer_rsv (n idle : Nat) (t : Txn) (s : State) : (noAnswer n idle t s).rsv = s.rsv := by
  unfold noAnswer; dsimp only; split <;> simp
@[simp] theorem discardAnswer_rsv (n idle : Nat) (t : Txn) (s : State) : (discardAnswer n idle t s).rsv = s.rsv := by
  simp [discardAnswer]
@[simp] theorem heldOffAnswer_rsv (n : Nat) (t : Txn) (s : State) : (heldOffAnswer n t s).rsv = s.rsv := by
  unfold heldOffAnswer; dsimp only; split <;> simp
@[simp] theorem afterTaken_rsv (n x : Nat) (p : SentPage) (k : Nat) (r : LineRec) (s : State) :
    (afterTaken n x p k r s).rsv = s.rsv := by
  unfold afterTaken; split
  · simp
  · split <;> simp
@[simp] theorem headTaken_rsv (n x : Nat) (p : SentPage) (s : State) : (headTaken n x p s).rsv = s.rsv := by
  simp [headTaken]
@[simp] theorem blockTaken_rsv (n x : Nat) (p : SentPage) (k : Nat) (s : State) : (blockTaken n x p k s).rsv = s.rsv := by
  simp [blockTaken]
@[simp] theorem stateTaken_rsv (n x : Nat) (a : StateFields) (s : State) : (stateTaken n x a s).rsv = s.rsv := by
  unfold stateTaken; dsimp only; split <;> simp

theorem orderCallReal_rsv (s : State) :
    (orderCallReal s).rsv = if s.msc.state = .standby then claimRsv (musterClaims s.sms) s.rsv else s.rsv := by
  unfold orderCallReal; rw [musterBlocks_rsv, realCall_rsv]; rfl

/-- After a call the muster state is CALLED or MUSTERING (R70, R72). -/
theorem callMuster_state (k : MusterKind) (s : State) :
    (callMuster k s).msc.state = .called ∨ (callMuster k s).msc.state = .mustering := by
  rcases callMuster_msc k s with h | h <;> rw [h]
  · exact .inl rfl
  · exact .inr rfl

theorem orderCallDrill_rsv (s : State) :
    (orderCallDrill s).rsv = if s.msc.state = .standby then claimRsv (musterClaims s.sms) s.rsv else s.rsv := by
  unfold orderCallDrill; dsimp only; rw [musterBlocks_rsv]
  split
  · rw [levelTest_rsv_of_ne, callMuster_rsv]
    · rfl
    · rcases callMuster_state .drill (withOutcome (callDrillOutcome s.msc) s) with h | h <;> rw [h] <;> simp
  · rename_i ho
    split
    · rename_i hs; simp [callDrillOutcome, hs] at ho
    · rfl

@[simp] theorem orderStandDown_rsv (s : State) : (orderStandDown s).rsv = s.rsv := by
  unfold orderStandDown; dsimp only; rw [musterBlocks_rsv]
  split
  · rw [levelTest_rsv_of_ne, announceMuster_rsv]
    · rfl
    · rw [announceMuster_msc]; simp [stoodDownMsc]
  · rfl

@[simp] theorem reserveBegin_rsv (s : State) : (reserveBegin s).rsv = s.rsv := by
  unfold reserveBegin; dsimp only; rw [musterBlocks_rsv, recount_rsv, reportCause_rsv, shedTests_rsv, composeMarked_rsv]
@[simp] theorem reserveFinish_rsv (s : State) : (reserveFinish s).rsv = s.rsv := by
  unfold reserveFinish; dsimp only; rw [musterBlocks_rsv, recount_rsv, reportCause_rsv, composeMarked_rsv]

/-! ## One claim operation (R30, R31, R34) -/

/-- Every claim that a list of slots holds or that waits. -/
def SlotsPlace (slots : List Slot) (waiting : List Claim) (c : Claim) : Prop := claimHeld slots c = true ∨ c ∈ waiting

/-- Every claim on the slots is one of these. -/
def SlotsWithin (claims : List Claim) (slots : List Slot) : Prop :=
  ∀ sl ∈ slots, ∀ w ∈ sl.holders, ({ who := w, pair := sl.pair } : Claim) ∈ claims

/-- A slot is EMPTY exactly when nothing holds it (R26). -/
def SlotsFit (slots : List Slot) : Prop := ∀ sl ∈ slots, sl.state = .empty ↔ sl.holders = []

theorem claimHeld_iff {slots : List Slot} {c : Claim} :
    claimHeld slots c = true ↔ ∃ sl ∈ slots, sl.pair = c.pair ∧ c.who ∈ sl.holders := by
  simp [claimHeld]

theorem claimHeld_cons {sl : Slot} {slots : List Slot} {c : Claim} :
    claimHeld (sl :: slots) c = true ↔ (sl.pair = c.pair ∧ c.who ∈ sl.holders) ∨ claimHeld slots c = true := by
  simp [claimHeld]

/-- What serving the waiting list may do to one slot: nothing, or one more holder of its pair, or, on an EMPTY slot, a
first holder. -/
theorem attach_spec {c : Claim} {slots out : List Slot} (h : attachClaim c slots = some out) :
    claimHeld out c = true ∧ (∀ d, claimHeld slots d = true → claimHeld out d = true)
      ∧ (∀ claims, SlotsWithin claims slots → c ∈ claims → SlotsWithin claims out)
      ∧ (SlotsFit slots → SlotsFit out) ∧ out.map Slot.state = slots.map Slot.state ∧ out.length = slots.length := by
  induction slots generalizing out with
  | nil => cases h
  | cons sl rest ih =>
    unfold attachClaim at h
    split at h
    · rename_i hc
      injection h with h; subst h
      refine ⟨?_, ?_, ?_, ?_, rfl, rfl⟩
      · rw [claimHeld_cons]; left; simp [hc.2]
      · intro d hd
        rw [claimHeld_cons] at hd ⊢
        rcases hd with ⟨h1, h2⟩ | hd
        · left; exact ⟨h1, List.mem_append.mpr (.inl h2)⟩
        · exact .inr hd
      · intro claims hw hm x hx w hw'
        rcases List.mem_cons.mp hx with rfl | hx
        · rcases List.mem_append.mp hw' with hw' | hw'
          · exact hw sl List.mem_cons_self w hw'
          · rw [List.mem_singleton] at hw'; subst hw'
            rw [hc.2]; exact hm
        · exact hw x (List.mem_cons_of_mem _ hx) w hw'
      · intro hf x hx
        rcases List.mem_cons.mp hx with rfl | hx
        · simp [hc.1]
        · exact hf x (List.mem_cons_of_mem _ hx)
    · cases hr : attachClaim c rest with
      | none => rw [hr] at h; cases h
      | some o =>
        rw [hr] at h; injection h with h; subst h
        obtain ⟨i1, i2, i3, i4, i5, i6⟩ := ih hr
        refine ⟨?_, ?_, ?_, ?_, ?_, ?_⟩
        · rw [claimHeld_cons]; exact .inr i1
        · intro d hd
          rw [claimHeld_cons] at hd ⊢
          exact hd.imp_right (i2 d)
        · intro claims hw hm x hx
          rcases List.mem_cons.mp hx with rfl | hx
          · exact hw x List.mem_cons_self
          · exact i3 claims (fun y hy => hw y (List.mem_cons_of_mem _ hy)) hm x hx
        · intro hf x hx
          rcases List.mem_cons.mp hx with rfl | hx
          · exact hf x List.mem_cons_self
          · exact i4 (fun y hy => hf y (List.mem_cons_of_mem _ hy)) x hx
        · simp [i5]
        · simp [i6]

/-- What taking an EMPTY slot does (R30). -/
theorem takeEmpty_spec {c : Claim} {slots out : List Slot} (h : takeEmpty c slots = some out) (hfit : SlotsFit slots) :
    claimHeld out c = true ∧ (∀ d, claimHeld slots d = true → claimHeld out d = true)
      ∧ (∀ claims, SlotsWithin claims slots → c ∈ claims → SlotsWithin claims out)
      ∧ SlotsFit out ∧ out.length = slots.length
      ∧ (out.filter fun sl => decide (sl.state = .solving)).length
          = (slots.filter fun sl => decide (sl.state = .solving)).length := by
  induction slots generalizing out with
  | nil => cases h
  | cons sl rest ih =>
    unfold takeEmpty at h
    split at h
    · rename_i hc
      injection h with h; subst h
      have hn := (hfit sl List.mem_cons_self).mp hc
      refine ⟨?_, ?_, ?_, ?_, rfl, ?_⟩
      · rw [claimHeld_cons]; left; simp
      · intro d hd
        rw [claimHeld_cons] at hd ⊢
        rcases hd with ⟨-, h2⟩ | hd
        · rw [hn] at h2; cases h2
        · exact .inr hd
      · intro claims hw hm x hx w hw'
        rcases List.mem_cons.mp hx with rfl | hx
        · rw [List.mem_singleton] at hw'; subst hw'; exact hm
        · exact hw x (List.mem_cons_of_mem _ hx) w hw'
      · intro x hx
        rcases List.mem_cons.mp hx with rfl | hx
        · simp
        · exact hfit x (List.mem_cons_of_mem _ hx)
      · simp [hc]
    · cases hr : takeEmpty c rest with
      | none => rw [hr] at h; cases h
      | some o =>
        rw [hr] at h; injection h with h; subst h
        obtain ⟨i1, i2, i3, i4, i5, i6⟩ := ih hr fun y hy => hfit y (List.mem_cons_of_mem _ hy)
        refine ⟨?_, ?_, ?_, ?_, ?_, ?_⟩
        · rw [claimHeld_cons]; exact .inr i1
        · intro d hd
          rw [claimHeld_cons] at hd ⊢
          exact hd.imp_right (i2 d)
        · intro claims hw hm x hx
          rcases List.mem_cons.mp hx with rfl | hx
          · exact hw x List.mem_cons_self
          · exact i3 claims (fun y hy => hw y (List.mem_cons_of_mem _ hy)) hm x hx
        · intro x hx
          rcases List.mem_cons.mp hx with rfl | hx
          · exact hfit x List.mem_cons_self
          · exact i4 x hx
        · simp [i5]
        · simp only [List.filter_cons]; split <;> simp [i6]

/-- Serving the waiting list (R32, R34): every claim is then held or waits, no claim is lost and none is added. -/
theorem serve_spec (todo : List Claim) (slots : List Slot) (hfit : SlotsFit slots) :
    (∀ c ∈ todo, SlotsPlace (serveClaims todo slots).1 (serveClaims todo slots).2 c)
      ∧ (∀ d, claimHeld slots d = true → claimHeld (serveClaims todo slots).1 d = true)
      ∧ (∀ claims, SlotsWithin claims slots → (∀ c ∈ todo, c ∈ claims) → SlotsWithin claims (serveClaims todo slots).1)
      ∧ SlotsFit (serveClaims todo slots).1 ∧ (serveClaims todo slots).1.length = slots.length
      ∧ (∀ c ∈ (serveClaims todo slots).2, c ∈ todo)
      ∧ ((serveClaims todo slots).1.filter fun sl => decide (sl.state = .solving)).length
          = (slots.filter fun sl => decide (sl.state = .solving)).length := by
  induction todo generalizing slots with
  | nil => simp [serveClaims, hfit]
  | cons c rest ih =>
    unfold serveClaims
    split
    · rename_i out ho
      obtain ⟨a1, a2, a3, a4, a5, a6⟩ := attach_spec ho
      obtain ⟨i1, i2, i3, i4, i5, i6, i7⟩ := ih out (a4 hfit)
      refine ⟨?_, fun d hd => i2 d (a2 d hd), ?_, i4, i5.trans a6, fun x hx => List.mem_cons_of_mem _ (i6 x hx), ?_⟩
      · intro x hx
        rcases List.mem_cons.mp hx with rfl | hx
        · exact .inl (i2 _ a1)
        · exact i1 x hx
      · intro claims hw hm
        exact i3 claims (a3 claims hw (hm c List.mem_cons_self)) fun x hx => hm x (List.mem_cons_of_mem _ hx)
      · rw [i7]
        have : ∀ l : List Slot, (l.filter fun sl => decide (sl.state = .solving)).length
            = ((l.map Slot.state).filter fun st => decide (st = .solving)).length := by
          intro l; rw [List.filter_map, List.length_map]; rfl
        rw [this, this, a5]
    · split
      · rename_i out ho
        obtain ⟨a1, a2, a3, a4, a5, a6⟩ := takeEmpty_spec ho hfit
        obtain ⟨i1, i2, i3, i4, i5, i6, i7⟩ := ih out a4
        refine ⟨?_, fun d hd => i2 d (a2 d hd), ?_, i4, i5.trans a5, fun x hx => List.mem_cons_of_mem _ (i6 x hx), i7.trans a6⟩
        · intro x hx
          rcases List.mem_cons.mp hx with rfl | hx
          · exact .inl (i2 _ a1)
          · exact i1 x hx
        · intro claims hw hm
          exact i3 claims (a3 claims hw (hm c List.mem_cons_self)) fun x hx => hm x (List.mem_cons_of_mem _ hx)
      · obtain ⟨i1, i2, i3, i4, i5, i6, i7⟩ := ih slots hfit
        refine ⟨?_, i2, ?_, i4, i5, ?_, i7⟩
        · intro x hx
          rcases List.mem_cons.mp hx with rfl | hx
          · exact .inr List.mem_cons_self
          · exact (i1 x hx).imp_right (List.mem_cons_of_mem _)
        · intro claims hw hm
          exact i3 claims hw fun x hx => hm x (List.mem_cons_of_mem _ hx)
        · intro x hx
          rcases List.mem_cons.mp hx with rfl | hx
          · exact List.mem_cons_self
          · exact List.mem_cons_of_mem _ (i6 x hx)

/-- The withdrawal at a slot (R31). -/
theorem withdraw_fit (desired : List Claim) (sl : Slot) (h : sl.state = .empty ↔ sl.holders = []) :
    ((withdrawFrom desired sl).state = .empty ↔ (withdrawFrom desired sl).holders = [])
      ∧ (∀ w ∈ (withdrawFrom desired sl).holders, ({ who := w, pair := (withdrawFrom desired sl).pair } : Claim) ∈ desired)
      ∧ ((withdrawFrom desired sl).state = .solving → sl.state = .solving) := by
  unfold withdrawFrom; dsimp only
  split
  · simp [emptySlot]
  · rename_i hk
    refine ⟨?_, ?_, id⟩
    · constructor
      · intro he
        have := h.mp he
        exact absurd (by rw [this]; rfl) hk
      · intro he; exact absurd he hk
    · intro w hw
      exact of_decide_eq_true (List.mem_filter.mp hw).2

/-! ## The solver's selection (R36) -/

/-- How many slots are SOLVING. -/
def solvingCount (slots : List Slot) : Nat := (slots.filter fun sl => decide (sl.state = .solving)).length

/-- What the solver's choice leaves of a slot: its pair, its holders, its vector and the epoch of that. -/
def slotFrame (sl : Slot) : Pair × List Claimant × Option RouteVec × Word32 :=
  (sl.pair, sl.holders, sl.vector, sl.vectorEpoch)

theorem selectIn_some {r : Regime} {slots out : List Slot} (h : selectIn r slots = some out) :
    solvingCount out = solvingCount slots + 1 ∧ out.map slotFrame = slots.map slotFrame
      ∧ (SlotsFit slots → SlotsFit out) ∧ (∃ sl ∈ out, sl.state = .solving) := by
  induction slots generalizing out with
  | nil => cases h
  | cons sl rest ih =>
    unfold selectIn at h
    split at h
    · rename_i hc
      injection h with h; subst h
      refine ⟨?_, rfl, ?_, _, List.mem_cons_self, rfl⟩
      · simp [solvingCount, hc.1]
      · intro hf x hx
        rcases List.mem_cons.mp hx with rfl | hx
        · have := hf sl List.mem_cons_self
          rw [hc.1] at this
          simpa using this
        · exact hf x (List.mem_cons_of_mem _ hx)
    · cases hr : selectIn r rest with
      | none => rw [hr] at h; cases h
      | some o =>
        rw [hr] at h; injection h with h; subst h
        obtain ⟨i1, i2, i3, x, hx, hxs⟩ := ih hr
        refine ⟨?_, by simp [i2], ?_, x, List.mem_cons_of_mem _ hx, hxs⟩
        · unfold solvingCount at i1 ⊢
          simp only [List.filter_cons]; split <;> simp [i1]
        · intro hf y hy
          rcases List.mem_cons.mp hy with rfl | hy
          · exact hf y List.mem_cons_self
          · exact i3 (fun z hz => hf z (List.mem_cons_of_mem _ hz)) y hy

theorem selectIn_none {r : Regime} {slots : List Slot} (h : selectIn r slots = none) :
    ∀ sl ∈ slots, sl.state = .queued → sl.pair.regime ≠ r := by
  induction slots with
  | nil => simp
  | cons sl rest ih =>
    unfold selectIn at h
    split at h
    · cases h
    · rename_i hc
      intro x hx hq hr
      rcases List.mem_cons.mp hx with rfl | hx
      · exact hc ⟨hq, hr⟩
      · exact ih (Option.map_eq_none_iff.mp h) x hx hq hr

/-- After a selection at most one slot is SOLVING, and one is while a slot is QUEUED (R36); nothing else changes. -/
theorem solverSelect_spec (slots : List Slot) :
    (solvingCount slots ≤ 1 → solvingCount (solverSelect slots) ≤ 1)
      ∧ ((∃ sl ∈ solverSelect slots, sl.state = .queued) → ∃ sl ∈ solverSelect slots, sl.state = .solving)
      ∧ (solverSelect slots).map slotFrame = slots.map slotFrame ∧ (SlotsFit slots → SlotsFit (solverSelect slots)) := by
  unfold solverSelect
  split
  · rename_i hb
    refine ⟨id, fun _ => ?_, rfl, id⟩
    simpa [solverBusy] using hb
  · rename_i hb
    have h0 : solvingCount slots = 0 := by
      unfold solvingCount
      rw [List.length_eq_zero_iff, List.filter_eq_nil_iff]
      simpa [solverBusy] using hb
    split
    · rename_i out ho
      obtain ⟨a1, a2, a3, a4⟩ := selectIn_some ho
      exact ⟨fun _ => by omega, fun _ => a4, a2, a3⟩
    · rename_i hm
      cases hn : selectIn .normal slots with
      | some out =>
        obtain ⟨a1, a2, a3, a4⟩ := selectIn_some hn
        exact ⟨fun _ => by simp only [Option.getD_some]; omega, fun _ => a4, a2, a3⟩
      | none =>
        refine ⟨id, ?_, rfl, id⟩
        rintro ⟨sl, hs, hq⟩
        cases hr : sl.pair.regime
        · exact absurd hr (selectIn_none hn sl hs hq)
        · exact absurd hr (selectIn_none hm sl hs hq)

theorem frame_held {a b : List Slot} (h : b.map slotFrame = a.map slotFrame) (c : Claim) :
    claimHeld b c = claimHeld a c := by
  have key : ∀ l : List Slot, claimHeld l c = (l.map slotFrame).any fun q => decide (q.1 = c.pair) && decide (c.who ∈ q.2.1) := by
    intro l; rw [List.any_map]; rfl
  rw [key, key, h]

theorem frame_within {a b : List Slot} (h : b.map slotFrame = a.map slotFrame) (claims : List Claim)
    (hw : SlotsWithin claims a) : SlotsWithin claims b := by
  intro sl hs w hw'
  have : slotFrame sl ∈ a.map slotFrame := h ▸ List.mem_map_of_mem hs
  obtain ⟨x, hx, he⟩ := List.mem_map.mp this
  injection he with h1 h2
  injection h2 with h2 h3
  rw [← h1]
  exact hw x hx w (h2 ▸ hw')

/-- The withdrawals of an event, said once (R31, R36): the claims left are ones whose condition holds, and the solver has
selected again. -/
theorem withdrawAll_spec (desired : List Claim) (slots : List Slot) (hfit : SlotsFit slots) :
    SlotsFit (withdrawAll desired slots) ∧ SlotsWithin desired (withdrawAll desired slots)
      ∧ (withdrawAll desired slots).length = slots.length
      ∧ (solvingCount slots ≤ 1 → solvingCount (withdrawAll desired slots) ≤ 1) := by
  have hfit0 : SlotsFit (slots.map (withdrawFrom desired)) := by
    intro sl hs
    obtain ⟨x, hx, rfl⟩ := List.mem_map.mp hs
    exact (withdraw_fit desired x (hfit x hx)).1
  have hwith0 : SlotsWithin desired (slots.map (withdrawFrom desired)) := by
    intro sl hs
    obtain ⟨x, hx, rfl⟩ := List.mem_map.mp hs
    exact (withdraw_fit desired x (hfit x hx)).2.1
  have hcount0 : ∀ l : List Slot, (∀ x ∈ l, x.state = .empty ↔ x.holders = []) →
      solvingCount (l.map (withdrawFrom desired)) ≤ solvingCount l := by
    intro l
    induction l with
    | nil => intro _; exact Nat.le_refl _
    | cons x rest ih =>
      intro hf
      have hx := (withdraw_fit desired x (hf x List.mem_cons_self)).2.2
      have hi := ih fun y hy => hf y (List.mem_cons_of_mem _ hy)
      unfold solvingCount at hi ⊢
      simp only [List.map_cons, List.filter_cons, decide_eq_true_eq]
      by_cases hq : (withdrawFrom desired x).state = .solving
      · simp only [hq, hx hq, if_true, List.length_cons]; omega
      · simp only [hq, if_false]
        split
        · simp only [List.length_cons]; omega
        · exact hi
  obtain ⟨q1, -, q3, q4⟩ := solverSelect_spec (slots.map (withdrawFrom desired))
  refine ⟨q4 hfit0, frame_within q3 desired hwith0, ?_, fun h1 => q1 ((hcount0 slots hfit).trans h1)⟩
  have := congrArg List.length q3
  simpa [withdrawAll] using this

/-- One claim operation, said once (R31, R34, R36): afterwards every claim whose condition holds is held or waits, no
other is, and the solver works while a slot is QUEUED. -/
theorem claimRsv_spec (desired : List Claim) (r : RsvState) (hfit : SlotsFit r.slots) :
    (∀ c ∈ desired, SlotsPlace (claimRsv desired r).slots (claimRsv desired r).waiting c)
      ∧ SlotsWithin desired (claimRsv desired r).slots ∧ (∀ c ∈ (claimRsv desired r).waiting, c ∈ desired)
      ∧ SlotsFit (claimRsv desired r).slots ∧ (claimRsv desired r).slots.length = r.slots.length
      ∧ (solvingCount r.slots ≤ 1 → solvingCount (claimRsv desired r).slots ≤ 1)
      ∧ ((∃ sl ∈ (claimRsv desired r).slots, sl.state = .queued) →
          ∃ sl ∈ (claimRsv desired r).slots, sl.state = .solving) := by
  obtain ⟨w1, w2, w3, w4⟩ := withdrawAll_spec desired r.slots hfit
  have made : ∀ c ∈ desired.filter fun c => !claimHeld (withdrawAll desired r.slots) c, c ∈ desired :=
    fun c hc => (List.mem_filter.mp hc).1
  obtain ⟨s1, s2, s3, s4, s5, s6, s7⟩ :=
    serve_spec (desired.filter fun c => !claimHeld (withdrawAll desired r.slots) c) _ w1
  have hcount : solvingCount (claimStep desired r).1.slots = solvingCount (withdrawAll desired r.slots) := s7
  obtain ⟨q1, q2, q3, q4⟩ := solverSelect_spec (claimStep desired r).1.slots
  refine ⟨?_, frame_within q3 desired (s3 desired w2 made), fun c hc => made c (s6 c hc), q4 s4, ?_,
    fun h1 => q1 (hcount ▸ w4 h1), q2⟩
  · intro c hc
    have hp : SlotsPlace (claimStep desired r).1.slots (claimStep desired r).1.waiting c := by
      by_cases hh : claimHeld (withdrawAll desired r.slots) c = true
      · exact .inl (s2 c hh)
      · exact s1 c (List.mem_filter.mpr ⟨hc, by simpa using hh⟩)
    rcases hp with hp | hp
    · left
      show claimHeld (solverSelect (claimStep desired r).1.slots) c = true
      rw [frame_held q3]; exact hp
    · exact .inr hp
  · have hl : (solverSelect (claimStep desired r).1.slots).length = (claimStep desired r).1.slots.length := by
      have := congrArg List.length q3
      simpa using this
    exact hl.trans (s5.trans w3)

end Sys2Proof.Machine
end

