-- ==== Sys2Proof/Tests/Slice0.lean ====
section
/-! SUPPORT. Tests: the smoke of WellFormed, the manual's worked examples, and a witness for every statement that has
hypotheses. Expected values come from spec/, by the section each docstring names, or by hand from its rules. -/

namespace Sys2Proof.Tests

open Sys2Proof.Machine Sys2Proof.Safety

set_option Elab.async false

/-- The state a command leaves. -/
def after (c : Instr) (s : State) : State :=
  match exec c s with
  | .next t => t
  | _ => s

/-! ## WellFormed refuses an ill-formed term at each check -/

theorem test_wf_badOrder :
    (Instr.badOrder 0).wf = true ∧ (Instr.badOrder 1).wf = false ∧ (Instr.badOrder 2).wf = false
      ∧ (Instr.badOrder 3).wf = false ∧ (Instr.badOrder 4).wf = true := by decide

theorem test_wf_unmapped :
    (Instr.unmappedAccess 0x14 4 0).wf = false ∧ (Instr.unmappedAccess 0x14 2 0).wf = true
      ∧ (Instr.unmappedAccess 0x18 4 0).wf = true ∧ (Instr.unmappedAccess 0x00 4 0).wf = false := by decide

theorem test_wf_station :
    (Instr.stepCountdownExpiry 495).wf = true ∧ (Instr.stepCountdownExpiry 496).wf = false
      ∧ (Instr.interjectionCountdownExpiry 496).wf = false ∧ (Instr.refreshCountdownExpiry 496).wf = false := by decide

theorem test_wf_line :
    (Instr.turn 7).wf = true ∧ (Instr.turn 8).wf = false ∧ (Instr.silentCycleExpiry 8).wf = false
      ∧ (Instr.stateAnswer 8 0 0 0 0).wf = false ∧ (Instr.takenToPageHead 8).wf = false
      ∧ (Instr.takenToPageBlock 8).wf = false ∧ (Instr.heldOff 8).wf = false ∧ (Instr.answerDiscarded 8).wf = false
      ∧ (Instr.replyWindowTimeout 8).wf = false := by decide

theorem test_wf_bytes :
    (Instr.publishWordRead []).wf = false ∧ (Instr.liveWordsRead []).wf = false ∧ (Instr.ackArrayRead []).wf = false
      ∧ (Instr.noticeHeaderRead [0]).wf = false ∧ (Instr.directoryRead []).wf = false
      ∧ (Instr.noticeEntriesRead [0]).wf = false ∧ (Instr.recordRead []).wf = false
      ∧ (Instr.publishWordReread []).wf = false ∧ (Instr.recordRead [0, 0, 0, 0]).wf = true := by decide

/-! ## Formats and arithmetic -/

/-- R125: the check value of the nine ASCII digits. -/
theorem test_crc16_check : crc16 [0x31, 0x32, 0x33, 0x34, 0x35, 0x36, 0x37, 0x38, 0x39] = 0x29B1#16 := by decide +kernel

/-- Every serial of a page or of a muster goes from 65535 to 1 (R71, R91). -/
theorem test_serial_wraps : nextSerial 0xFFFF#16 = 1#16 ∧ nextSerial 5#16 = 6#16 := by decide

/-- The report block is 256 bytes and a status record 32 (R195). -/
theorem test_layout_lengths :
    (reportBytes 1 (reportFields State.reset)).length = 256 ∧ (statusBytes absentStatus).length = 32 := by
  decide +kernel

/-- R175 to R179: the six registers as they read right after a power-on reset. -/
theorem test_registers_at_reset :
    [0x00, 0x04, 0x08, 0x0C, 0x10, 0x14].map (fun o => readReg State.reset o 4) = [0, 0, 0, 0, 50, 0] := by
  decide +kernel

/-! ## Section 2.5: one target in both regimes -/

/-- An edge of section 2.5, with passage BOTH. -/
def edge (kind : EdgeKind) (rise : Rise) (a b length group : Nat) : EdgeRec :=
  { kind, rise, passage := .both, nodeA := a, nodeB := b, length, group }

/-- The six nodes and six edges of section 2.5, with the default Settings. -/
def fragment : SmsState :=
  { resetSms with
    nodes := [(0, { deck := 5 }), (1, { deck := 5 }), (2, { deck := 6 }), (3, { deck := 6 }), (4, { deck := 5 })
      , (5, { deck := 6 })]
    edges := [(0, edge .corridor .level 0 1 180 0), (1, edge .stair .aDown 1 2 45 0)
      , (2, edge .corridor .level 2 3 220 0), (3, edge .corridor .level 0 4 90 0)
      , (4, edge .lift .level 4 5 30 0), (5, edge .corridor .level 5 3 160 12)] }

/-- Node 3 in a regime. -/
def toC (r : Regime) : Pair := { node := 3, regime := r }

/-- The distances and next hops of nodes 0 to 5 in a vector. -/
def hops (v : RouteVec) : List (Nat × Option Nat) := (List.range 6).map fun u => ((hopOf v u).dist, (hopOf v u).next)

theorem test_solve_muster : hops (solve fragment (toC .muster)) =
    [(468, some 0), (288, some 1), (220, some 2), (0, none), (558, some 3), (160, some 5)] := by decide +kernel

theorem test_solve_normal : hops (solve fragment (toC .normal)) =
    [(479, some 0), (299, some 1), (220, some 2), (0, none), (569, some 3), (160, some 5)] := by decide +kernel

/-- R25: 468 and 558 are one minute at a walk rate of 720, and a far distance reads 99. -/
theorem test_walking_minutes : walkingMinutes 720 468 = 1 ∧ walkingMinutes 720 558 = 1 ∧ walkingMinutes 720 721 = 2
    ∧ walkingMinutes 720 0 = 0 ∧ walkingMinutes 720 65534 = 99 := by decide

/-- Section 2.5: group 12 closed bars edge 5 in both regimes, so node 5 cannot reach node 3 without the lift. -/
theorem test_solve_closed :
    (hops (solve { fragment with closure := 0x1000#64 } (toC .muster))).getD 5 (0, none) = (65535, none) := by
  decide +kernel

/-! ## Section 3.9: windows, states and countdowns -/

/-- A programme entry of section 3.9. -/
def entry (start duration : Nat) (venue : Option Nat) (audience : Word16) (cancelled : Bool) : ProgRec :=
  { start, duration, venue, venueLabel := [], title := [], category := .show_, audience, cancelled }

/-- A screen without rotation, landmarks or served stations. -/
def screen (kind : StationKind) (node : Nat) (mask value : Word16) : StationRec :=
  { kind, node, label := [], essential := false, assigned := 0, rotation := 0, tag := 0, selMask := mask
    selValue := value, landmarks := [], served := [], exits := [] }

/-- The zone of section 3.9 at voyage minute 12,345. -/
def evening : State :=
  { State.reset with
    clk := { second := 740700, prescale := 0, minuteDue := true }
    sms := { resetSms with
      nodes := [(118, { deck := 4 }), (212, { deck := 5 }), (340, { deck := 11 })]
      stations := [(10, screen .waypoint 0 1 1), (70, screen .lobby 0 0 0)] }
    pgu := { resetPgu with
      clockChanges := [(3, { atMinute := 1000, newOffset := 120 }), (5, { atMinute := 12380, newOffset := 60 })]
      programme := [(4, entry 12400 120 (some 340) 3 false), (9, entry 12360 30 none 1 false)
        , (17, entry 12370 45 (some 212) 1 false), (22, entry 12375 20 (some 212) 1 true)
        , (30, entry 12330 60 (some 118) 2 false)] }
    pco := { resetPco with rots := [(10, freshRot 0), (70, freshRot 0)] } }

/-- At minute 12,345 the offset is +120, ship time 15:45 and the programme day 8. -/
theorem test_evening_time : (after .minuteEvent evening).pgu.offset = 120
    ∧ (after .minuteEvent evening).pgu.lastTime = some (945, 8) := by decide +kernel

theorem test_evening_states : (after .minuteEvent evening).pgu.states =
    [(4, .pending), (9, .soon), (17, .soon), (22, .soon), (30, .running)] := by decide +kernel

/-- Claims are held for entries 30 and 17 alone. -/
theorem test_evening_claims : ((after .minuteEvent evening).rsv.slots.filter fun sl => sl.holders ≠ []).map
    (fun sl => (sl.pair.node, sl.holders)) = [(118, [.programme 30]), (212, [.programme 17])] := by decide +kernel

/-- The two lists at minute 12,345, each line with its entry, countdown and route. -/
theorem test_evening_lists : (after .minuteEvent evening).pgu.lists.map (fun e =>
      (e.1, e.2.map fun l => (l.entry, l.countdown, l.route))) =
    [(10, [(17, some 25, some 212), (22, some 30, none)])
     , (70, [(30, none, none), (9, some 15, none), (17, some 25, none), (22, some 30, none), (4, none, none)])] := by
  decide +kernel

/-! ## Chapter 6: the walk of rotation 4 -/

/-- The steps of rotation 4. -/
def rotation4 : List RotStep :=
  [.programme 25, .notice 7 10, .loop 0 2, .landmarks 15, .empty, .empty, .empty, .empty]

/-- The walks of the worked example at t = 0, 35, 113 and 128. -/
theorem test_rotation_walks : startWalk rotation4 = (0, [0, 0, 2, 0, 0, 0, 0, 0])
    ∧ walk rotation4 64 2 [0, 0, 2, 0, 0, 0, 0, 0] = (0, [0, 0, 1, 0, 0, 0, 0, 0])
    ∧ walk rotation4 64 2 [0, 0, 0, 0, 0, 0, 0, 0] = (3, [0, 0, 2, 0, 0, 0, 0, 0])
    ∧ walk rotation4 64 4 [0, 0, 2, 0, 0, 0, 0, 0] = (0, [0, 0, 2, 0, 0, 0, 0, 0]) := by decide +kernel

/-! ## Chapter 8: presses and acknowledgements -/

/-- R151 and R152: with pending 62, an acknowledgement that clears it and 5 presses; pair first leaves pending 5 and
loses none, STATE first loses 4 and leaves pending 1 after the pair. -/
theorem test_presses_and_pair :
    (addPresses 62 62 5).2 = 0 ∧ ((addPresses 62 62 5).1 - 62#8).toNat = 5
      ∧ (addPresses 62 0 5).2 = 4 ∧ ((addPresses 62 0 5).1 - takeAck (addPresses 62 0 5).1 62).toNat = 1 := by decide

/-- R152: an acknowledgement more than 63 behind the tally is taken as the tally. -/
theorem test_ack_boundary : takeAck 73 10 = 10#8 ∧ takeAck 74 10 = 74#8 ∧ takeAck 10 75 = 10#8 := by decide

/-- R150: an increment is taken mod 256. -/
theorem test_press_increment : pressIncrement 3 200 = 59 ∧ pressIncrement 200 200 = 0 := by decide

/-! ## Chapter 9: edition 412 rejected -/

/-- The bytes of a record, padded with zeros. -/
def record (n : Nat) (l : List Nat) : List Byte := ((l ++ List.replicate n 0).take n).map (BitVec.ofNat 8)

/-- A record in the stage. -/
def stagedAt (leaf index entry : Nat) (bytes : List Byte) : Staged := { leaf, sub := 0, index, entry, bytes := some bytes }

/-- The records that entries 0 and 1 of edition 412 stage: node 700, and edges 3000 to 3002. -/
def stage412 : List Staged :=
  [ stagedAt 1 700 0 (record 4 [1, 6])
  , stagedAt 2 3000 1 (record 16 [1, 0, 0, 0, 41, 0, 188, 2, 100])
  , stagedAt 2 3001 1 (record 16 [1, 0, 0, 0, 188, 2, 190, 2, 136, 19])
  , stagedAt 2 3002 1 (record 16 [1, 0, 0, 0, 188, 2, 193, 2, 100]) ]

/-- The working copies name nodes 41 and 702, not 705. -/
def working : TableSet := { tablesOf State.reset with nodes := [(41, { deck := 6 }), (702, { deck := 6 })] }

/-- Edge 3002's node 705 is empty: DANGLING, entry 1, record 3002. -/
theorem test_dangling_charge :
    validate (postEdition stage412 working) stage412 stage412 =
      some { reason := .dangling, entry := some 1, record := some 3002, leaf := some 2 } := by decide +kernel

/-- Edge 3001's length 5000 is held as 4000. -/
theorem test_length_clamped :
    (tblGet (postEdition stage412 working).edges 3001).map EdgeRec.length = some 4000 := by decide +kernel

/-- With node 705 staged too, as edition 413 does, nothing is charged. -/
theorem test_repaired_edition :
    (let l := stage412 ++ [stagedAt 1 705 5 (record 4 [1, 6])]
     validate (postEdition l working) l l) = none := by decide +kernel

/-! ## Chapter 4: a muster from call to standby -/

/-- A cabin of the example, assigned muster station 2 (C). -/
def cabin (node : Nat) (exits : List (Nat × Arrow)) : StationRec :=
  { screen .waypoint node 0 0 with kind := .cabin, essential := true, assigned := 2, exits }

/-- A station that was heard and shows no page. -/
def heardRec (door : Option DoorRec) : LineRec :=
  { emptyLineRec with heard := true, baseline := true, lastHeard := some 0, door }

/-- A pin that has held this level for 20 ms (R65). -/
def pinned (level : Bool) : PinHold := { level, held := 500000 }

/-- The ship of chapter 4's example: stations 130, 131, 140 and 150, muster stations 0 (A) and 2 (C), last serial 5. -/
def ship : State :=
  { State.reset with
    sms := { fragment with
      nodes := fragment.nodes ++ [(20, { deck := 7 })]
      edges := fragment.edges ++ [(6, edge .corridor .level 0 20 300 0)]
      stations := [(130, cabin 5 [(5, .left), (4, .right)]), (131, cabin 0 [(0, .right), (3, .left)])
        , (140, { screen .waypoint 4 0 0 with essential := true, served := [2, 0], exits := [(3, .ahead), (4, .up)] })
        , (150, { screen .lobby 2 0 0 with served := [2], exits := [(2, .left), (1, .up)] })]
      musters := [(0, { isOpen := true, node := 20, alternate := none, label := [] })
        , (2, { isOpen := true, node := 3, alternate := some 0, label := [] })] }
    msc := { resetMsc with
      serial := 5, alarmPin := pinned true, alarm := some false, reservePin := pinned true, reserveLevel := some false }
    pco := { resetPco with rots := [(140, freshRot 0), (150, freshRot 0)] }
    lcs := { lines := List.replicate 8 { resetLine with service := .inService, idle := 0 }
             recs := [(130, heardRec (some freshDoor)), (131, heardRec (some freshDoor)), (140, heardRec none)
               , (150, heardRec none)] }
    xu := { resetXu with runState := .running, base := 0x140000000#64, span := 1 } }

/-- The ship after the qualified alarm level rises, and after both MUSTER slots are solved. -/
def shipCalled : State := after (.alarmQualifiedTransition true) ship
def shipSolved : State := after .solveComplete (after .solveComplete shipCalled)

/-- Both pins have gone to this level and held it for 20 ms. -/
def pinsAt (level : Bool) (s : State) : State :=
  { s with msc := { s.msc with alarmPin := pinned level, reservePin := pinned level } }

theorem test_call : shipCalled.msc.state = .called ∧ shipCalled.msc.kind = .real ∧ shipCalled.msc.serial = 6#16
    ∧ countedCount shipCalled = 4 ∧ tally shipCalled = 0 := by decide +kernel

theorem test_call_slots : (shipCalled.rsv.slots.take 3).map (fun sl => (sl.pair.node, sl.holders)) =
    [(20, [.muster 0]), (3, [.muster 2]), (0, [])] := by decide +kernel

theorem test_call_map : shipCalled.msc.map = some
    [(130, .cabin (some 2) false), (131, .cabin (some 2) false), (140, .screen [2, 0]), (150, .screen [2])] := by
  decide +kernel

/-- Doors 130 and 131 after both READY notices: C to the left and to the right, 1 minute. -/
theorem test_doors_solved : [130, 131].map (fun x => (desiredPage shipSolved.pco x).map Page.body) =
    [some (.doorMuster [] (some (2, [], .left, some 1)) false false)
     , some (.doorMuster [] (some (2, [], .right, some 1)) false false)] := by decide +kernel

/-- The reserve regime takes lobby 150 out of the count and blanks it. -/
theorem test_reserve_count : countedCount (after .reserveQualifiedRise shipSolved) = 3
    ∧ (desiredPage (after .reserveQualifiedRise shipSolved).pco 150).map Page.body = some .blank := by decide +kernel

/-- STAND_DOWN is refused while the alarm is asserted, and accepted once it is clear. -/
theorem test_stand_down : (after .standDown shipSolved).msc.outcome = .refusedAlarmAsserted
    ∧ (after .standDown (after (.alarmQualifiedTransition false) (pinsAt false shipSolved))).msc.state = .standingDown := by
  decide +kernel

/-- A turn of line 2 goes to cabin 130, whose muster page waits. -/
theorem test_turn_goes_to_muster : ((lineAt (after (.turn 2) shipCalled).lcs 2).txn.map Txn.station) = some 130 := by
  decide +kernel

/-! ## The lines' bits, answers and the ship inputs -/

/-- R124: the bits of 0xD3 on TXD: a start bit of 0, the data from the least significant bit, a stop bit of 1. -/
theorem test_byte_levels : byteLevels 0xD3 = [false, true, true, false, false, true, false, true, true, true] := by decide

/-- R126: an answer begins at the first 0xD3, ends with its CRC or at a gap of 30 µs (750 periods), and bytes before and
after it are no part of it. -/
theorem test_answer_in :
    answerIn [(0, 0x11), (0, 0xD3), (0, 1), (749, 0x82), (0, 0), (0, 5), (0, 6), (0, 0x99)] =
        some [0xD3, 1, 0x82, 0, 5, 6]
      ∧ answerIn [(0, 0xD3), (750, 1)] = some [0xD3] ∧ answerIn [(0, 0x11), (0, 1)] = none := by decide

/-- R65: a level held one period short of 20 ms is not taken. -/
theorem test_pin_guard :
    (after (.alarmQualifiedTransition true)
        { ship with msc := { ship.msc with alarmPin := { level := true, held := 499999 } } }).msc.alarm = some false
      ∧ shipCalled.msc.alarm = some true := by decide +kernel

/-- R31, R36: a solve whose slot is emptied goes on with the QUEUED slot of higher index, not with the claim that takes the
freed slot. -/
theorem test_withdraw_selects_first :
    (let queued (n i : Nat) : Slot :=
       { state := .queued, pair := { node := n, regime := .normal }, holders := [.landmark i], vector := none, vectorEpoch := 0 }
     let claim (n i : Nat) : Claim := { who := .landmark i, pair := { node := n, regime := .normal } }
     let r := claimStep [claim 8 2, claim 9 3]
       { slots := [{ queued 7 1 with state := .solving }, queued 8 2], waiting := [claim 9 3] }
     r.1.slots.map fun sl => (sl.pair.node, sl.state)) = [(9, .queued), (8, .solving)] := by decide +kernel

/-! ## Witnesses: a state and operands that meet the hypotheses of each statement, clause by clause -/

/-- The part with its Exchange Unit in this run state, a base valid when the span is not 0. -/
def withRun (r : RunState) (span : Nat) : State :=
  { State.reset with xu := { resetXu with runState := r, base := 0x140000000#64, span } }

/-- The part with this Muster Controller. -/
def withMsc (c : MscState) (s : State) : State := { s with msc := c }

/-- A Muster Controller in a state and kind, its timers about to run out. -/
def mscIn (state : MusterState) (kind : MusterKind) : MscState :=
  { resetMsc with
    state, kind, serial := 65535
    calledTimer := if state = .called then some 0 else none
    holdTimer := if state = .standingDown then some 0 else none
    map := if state = .standby then none else some [] }

/-- The part held in a reset. -/
def held (p : ResetPhase) : State := { State.reset with phase := p }

/-- The part sensing its alarm by edges. -/
def edgeSensed (alarm : Option Bool) : State :=
  { State.reset with
    sms := { resetSms with settings := { defaultSettings with alarmSense := .edge } }
    msc := { resetMsc with alarm } }

/-- The ship with this transaction on line 2, station 131 configured. -/
def inFlight (transfer : Option (SentPage × Nat)) (left : Nat) : State :=
  { ship with
    lcs := { ship.lcs with
      lines := ship.lcs.lines.set 2 { resetLine with service := .inService, txn := some { station := 131, transfer, left } } } }

/-- The ship with station 131's line record changed. -/
def with131 (r : LineRec) (s : State) : State := { s with lcs := setLineRec 131 r s.lcs }

/-- A line of a lobby page. -/
def pageLine : LobbyLine :=
  { title := [], venueLabel := [], deck := none, startTime := 0, mark := 0, cancelled := false, countdown := none, icon := 0 }

/-- A BLANK page, of no blocks, and a door page of one block. -/
def blankPage : SentPage := { serial := 7, page := { body := .blank, musterSerial := 0 }, full := false }
def doorPage : SentPage := { serial := 8, page := { body := .doorStandard [] 2 [], musterSerial := 0 }, full := true }

/-- The part with a survey or a staging in hand. -/
def surveying (v : Survey) : State :=
  { withRun .running 1 with xu := { (withRun .running 1).xu with survey := some v } }
def staging (phase : StagePhase) : Staging :=
  { newStaging 1 0x8000 (withRun .running 1).xu with phase, count := 1, directory := List.replicate 23 ⟨0, 4, 4096⟩ }
def stagingIn (g : Staging) : State :=
  { withRun .running 1 with xu := { (withRun .running 1).xu with stage := some g } }

/-- Station 140 at a step of rotation 4 whose time is over, with or without interjection 2 due. -/
def atStep (position : Position) (n : Nat) (due : Bool) : RotState :=
  { freshRot 4 with
    position, countdown := some 0, loops := [0, 0, 2, 0, 0, 0, 0, 0], resume := some (n, 5)
    due := (List.replicate 16 false).set 2 due }
def rotating (r : RotState) : State :=
  { ship with
    pco := { ship.pco with
      rotations := [(4, { steps := rotation4 })]
      notices := [(7, { lines := [], dest := none }), (11, { lines := [], dest := none })]
      interjections := [(2, { notice := 11, tagMask := 0, tagValue := 0, start := 0, stop := 9, period := 0, dwell := 8
                              hold := false })]
      rots := [(140, r), (150, freshRot 0)] } }

/-- A report write in progress. -/
def reporting (reason : WriteReason) : State :=
  { ship with
    xu := { ship.xu with
      reportWrite := some { base := ship.xu.base, fields := reportFields ship, serial := 1, reason, covers := 4, left := 0 } } }

theorem witness_StepRunsFront :
    ({ State.reset with pending := [.turn 0, .badOrder 7] } : State).pending = .turn 0 :: [.badOrder 7] := rfl

/-- A pin that has held its level for one period less than 20 ms, and a line at the end of a reply window; every other timer one
period before its end, and the two phases of a reset. -/
theorem witness_IdleStepIsOnePeriod : ship.pending = [] ∧ ship.phase = .operating
    ∧ (∃ l ∈ ship.lcs.lines, l.service = .inService ∧ l.txn = none ∧ l.idle = 0 ∧ l.silence = none)
    ∧ PinAt true (tickPin true { level := true, held := 499999 })
    ∧ ¬PinAt true (tickPin true { level := true, held := 499998 })
    ∧ tickPin true (pinned false) = { level := true, held := 1 }
    ∧ (inFlight none 1).pending = [] ∧ ((lineAt (inFlight none 1).lcs 2).txn.map Txn.left) = some 1
    ∧ (tickTimers { ship with xu := { ship.xu with countdown := some 1 } }).xu.countdown = some 0
    ∧ (busEvents (tickTimers (surveying (.live true 1)))).contains (.busReadFailed .survey) = true
    ∧ (busEvents (tickTimers (surveying (.live false 9)))).contains (.busReadFailed .survey) = true
    ∧ (busEvents (tickTimers (surveying (.live true 2)))).contains (.busReadFailed .survey) = false
    ∧ (busEvents (tickTimers (surveying (.status 495 absentStatus 1)))).contains .statusWriteFailed = true
    ∧ (busEvents (tickTimers (stagingIn { staging .header with left := 1 }))).contains (.busReadFailed .staging) = true
    ∧ (busEvents (tickTimers (reporting .immediate))).contains .reportWriteFailed = true
    ∧ (refreshEvents (tickTimers (with131 (heardRec (some { freshDoor with refresh := some 1 })) ship))).contains
        (.refreshCountdownExpiry 131) = true
    ∧ (rotEvents (tickTimers (rotating { atStep (.step 1) 1 false with countdown := some 1 }))).contains
        (.stepCountdownExpiry 140) = true
    ∧ (rotEvents (tickTimers (rotating { atStep (.interj 2) 1 false with countdown := some 1 }))).contains
        (.interjectionCountdownExpiry 140) = true
    ∧ (busEvents (tickTimers (withRun .halting 1))).contains .haltComplete = true
    ∧ ((held .function).pending = [] ∧ (held .function).phase = .function)
    ∧ (held .powerOn).pending = [] ∧ (held .powerOn).phase = .powerOn := by
  unfold PinAt; decide +kernel

/-- R124, R126: a transaction inside its reply window, one at the window's end, and one still in the idle time before its CALL
frame of 6 bytes. -/
theorem witness_IdleStepIsOnePeriod_transaction :
    (tickTxn 2 0 { station := 131, transfer := none, left := 75000 }) = { station := 131, transfer := none, left := 74999 }
    ∧ (tickTxn 2 0 { station := 131, transfer := none, left := 2 }).left = 1
    ∧ (tickTxn 2 0 { station := 131, transfer := none, left := 1 }).left = 0
    ∧ (tickTxn 2 0 { station := 131, transfer := none, left := 0, coming := some 1 }).coming = some 0
    ∧ 250 * (txnFrame { station := 131, transfer := none, left := 77250 }).length + 75000 < 77250
    ∧ ((inFlight none 77250).lcs.lines[2]?.map LineCtl.idle).isSome = true := by decide +kernel

theorem witness_FunctionResetKeepsClock : ship.phase = .operating ∧ (held .function).phase = .function
    ∧ (held .powerOn).phase ≠ .operating := by decide

theorem witness_HeldInResetDiscards : (held .powerOn).phase ≠ .operating ∧ actsInReset .callReal = false
    ∧ (held .powerOn).phase = .powerOn ∧ (held .function).phase = .function := by decide

theorem witness_RunStates :
    (((withRun .halted 1).xu.runState ≠ .running ∧ baseValid (withRun .halted 1).xu = true)
      ∧ ((withRun .halting 16).xu.runState ≠ .running ∧ baseValid (withRun .halting 16).xu = true)
      ∧ ((withRun .halted 0).xu.runState = .halted ∧ baseValid (withRun .halted 0).xu = false)
      ∧ ((withRun .halting 0).xu.runState = .halting ∧ baseValid (withRun .halting 0).xu = false)
      ∧ (withRun .running 1).xu.runState = .running)
    ∧ (ship.phase = .operating ∧ ship.xu.runState = .running ∧ ship.msc.state = .standby)
      ∧ (shipCalled.phase = .operating ∧ shipCalled.xu.runState = .running ∧ shipCalled.msc.state ≠ .standby)
      ∧ ((withRun .halting 1).xu.runState ≠ .running ∧ (withRun .halting 1).xu.stage = none
        ∧ (withRun .halting 1).xu.survey = none ∧ ∀ l ∈ (withRun .halting 1).lcs.lines, l.service = .silent)
      ∧ (after .haltComplete (withRun .halting 1)).xu.runState = .halted
      ∧ (after .haltComplete (withRun .halting 0)).xu.causes = 32#7 := by decide +kernel

/-- R181, R188: a run request marks a survey pending while one is in progress; the halt's report write begins at once, or is due
after the one in progress. -/
theorem witness_RunStates_writes :
    (let s := { surveying (.live true 9) with xu := { (surveying (.live true 9)).xu with runState := .halting } }
     (after .runRequest s).xu.survey = some (.live true 9) ∧ (after .runRequest s).xu.surveyPending = true)
    ∧ (after .runRequest (withRun .halted 1)).xu.survey = some (.publish true 1250000)
    ∧ (after .haltComplete (withRun .halting 1)).xu.reportWrite.map ReportWrite.reason = some .halt
    ∧ (let s := { reporting .immediate with
                  xu := { (reporting .immediate).xu with runState := .halting }
                  lcs := resetLcs }
       s.xu.stage = none ∧ s.xu.survey = none ∧ baseValid s.xu = true ∧ (∀ l ∈ s.lcs.lines, l.service = .silent)
        ∧ (after .haltComplete s).xu.runState = .halted
        ∧ (after .haltComplete s).xu.reportDue = [.halt]) := by decide +kernel

/-- The enables bring about an MSI where a cause is latched, and none where one was enabled before; and a command that is neither
a reset nor a write of CAUSE or its enables. -/
theorem witness_CausesLatched :
    ((after (.causeEnablesWrite 1) { ship with xu := { ship.xu with causes := 1 } }).xu.msiSent = 1
      ∧ (after (.causeEnablesWrite 3) { ship with xu := { ship.xu with causes := 3, enables := 1 } }).xu.msiSent = 0)
    ∧ isReset .callReal = false ∧ (∀ v, Instr.callReal ≠ .causeClear v) ∧ (∀ e, Instr.callReal ≠ .causeEnablesWrite e)
    ∧ exec .callReal shipCalled = .next (after .callReal shipCalled) :=
  ⟨by decide +kernel, rfl, fun _ h => Instr.noConfusion h, fun _ h => Instr.noConfusion h, rfl⟩

/-- R187: a cause that a command latches sends the MSI where it is enabled and none was, and not while delivery is off. -/
theorem witness_CausesLatched_msi :
    (let s := { withRun .halting 0 with xu := { (withRun .halting 0).xu with enables := 32, causes := 1 } }
     s.xu.causes &&& s.xu.enables = 0 ∧ s.xu.msiDelivery = true ∧ (after .haltComplete s).xu.causes = 33#7
      ∧ (after .haltComplete s).xu.msiSent = 1)
    ∧ (let s := { withRun .halting 0 with xu := { (withRun .halting 0).xu with enables := 1 } }
       (after .haltComplete s).xu.causes = 32#7 ∧ (after .haltComplete s).xu.msiSent = 0)
    ∧ (let s := { withRun .halting 0 with xu := { (withRun .halting 0).xu with enables := 32, msiDelivery := false } }
       (after .haltComplete s).xu.causes = 32#7 ∧ (after .haltComplete s).xu.msiSent = 0) := by decide +kernel

/-- R177, R189: a base lost, a base gained, one valid base changed for another, and none before or after. -/
theorem witness_XbaseWrites :
    ((withRun .running 1).xu.runState = .running ∧ baseValid (withRun .running 1).xu = true
        ∧ (after (.xbaseLoWrite 0) (withRun .running 1)).xu.span = 0)
      ∧ ((withRun .running 0).xu.runState = .running ∧ baseValid (withRun .running 0).xu = false
        ∧ (after (.xbaseLoWrite 31) (withRun .running 0)).xu.span = 16)
      ∧ (after (.xbaseLoWrite 2) (withRun .running 1)).xu.span = 2
      ∧ (after (.xbaseLoWrite 2) (withRun .running 1)).xu.reportMark = true
      ∧ (after (.xbaseLoWrite 2) (withRun .running 1)).xu.survey = none
      ∧ (after (.xbaseLoWrite 0x1000) (withRun .running 0)).xu.span = 0
      ∧ (withRun .halting 1).xu.runState ≠ .running := by decide +kernel

/-- R183, R187: with the base lost a halt's report write that covers MUSTER and a waiting SETTLED are dropped and latched, with
HALTED and the FAULT of NO_BASE; a status write is dropped with its survey. R181: a base gained while a read is in progress. -/
theorem witness_XbaseWrites_dropped :
    (let s := { reporting .halt with xu := { (reporting .halt).xu with waiting := 1 } }
     let t := after (.xbaseLoWrite 0) s
     s.xu.runState = .running ∧ baseValid s.xu = true ∧ t.xu.causes = 53#7 ∧ t.xu.waiting = 0 ∧ t.xu.reportWrite = none
      ∧ t.xu.counters = s.xu.counters)
    ∧ (after (.xbaseLoWrite 0) (surveying (.status 495 absentStatus 9))).xu.survey = none
    ∧ (let s := { surveying (.live true 9) with xu := { (surveying (.live true 9)).xu with span := 0 } }
       baseValid s.xu = false ∧ (after (.xbaseLoWrite 1) s).xu.survey = some (.live true 9)
        ∧ (after (.xbaseLoWrite 1) s).xu.surveyPending = true) := by decide +kernel

/-- R178 at the ends of the range: 9 is held as 10, and 1023 as 1000. -/
theorem witness_SurveyWrite : (withRun .running 1).phase = .operating
    ∧ (after (.surveyWrite 9) (withRun .running 1)).xu.interval = 10
    ∧ (after (.surveyWrite 0xFFFFFFFF) (withRun .halted 1)).xu.interval = 1000 := by decide +kernel

/-- R181: a write of SURVEY while a survey is in progress marks one pending; at that survey's report step it has begun. -/
theorem witness_SurveyWrite_pending :
    (after (.surveyWrite 20) (surveying (.live true 9))).xu.surveyPending = true
    ∧ (after (.surveyWrite 20) (surveying (.live true 9))).xu.survey = some (.live true 9)
    ∧ (let s := { surveying .report with
                  xu := { (surveying .report).xu with reportLast := some (reportFields (surveying .report)) } }
       (after (.surveyWrite 20) s).xu.survey = some (.publish true 1250000)) := by decide +kernel

/-- R175, R176, R179: order codes 3 and 4 at the edge of the orders, and MUSTER in a REAL muster of serial 6. -/
theorem witness_ControlAndUnmapped : (ship.phase = .operating ∧ RegistersInRange ship)
    ∧ ((held .function).phase ≠ .operating ∧ (held .powerOn).phase ≠ .operating)
    ∧ writeCommands 0x14 4 0x13 = [.standDown] ∧ writeCommands 0x14 4 4 = [.badOrder 4] ∧ writeCommands 0x14 4 0 = [.badOrder 0]
    ∧ writeCommands 0x00 4 0x7F01 = [.causeEnablesWrite 0x7F, .runRequest]
    ∧ writeCommands 0x00 4 0x7F03 = [.functionReset .controlWrite] ∧ writeCommands 0x18 4 1 = [.unmappedAccess 0x18 4 1]
    ∧ readReg ship 0x00 4 = 1 ∧ readReg ship 0x08 4 = 0x40000001#32 ∧ readReg ship 0x10 4 = 50#32
    ∧ readReg shipCalled 0x14 4 = 0x00060011#32 ∧ readReg ship 0x18 4 = 0 ∧ readReg ship 0x00 8 = 0 := by
  unfold RegistersInRange; decide +kernel

/-- From STANDBY and from STANDING_DOWN, and a tally complete at once. -/
theorem witness_CallsAccepted :
    (ship.phase = .operating ∧ ship.msc.state = .standby ∧ AlarmAnswered ship
      ∧ SlotsHeld ship ∧ ¬AllConfirmed ship (nextSerial ship.msc.serial)
      ∧ AllConfirmed State.reset (nextSerial State.reset.msc.serial))
    ∧ (∀ drill : Bool, AlarmAnswered (withMsc (mscIn .standingDown .drill) ship)
      ∧ (withMsc (mscIn .standingDown .drill) ship).msc.state = .standingDown
      ∧ (drill = true → (withMsc (mscIn .standingDown .drill) ship).msc.kind ≠ .real))
    ∧ (withMsc (mscIn .standingDown .real) ship).msc.kind = .real := by
  unfold AlarmAnswered SlotsHeld AllConfirmed; decide +kernel

/-- A call in each run state other than RUNNING, with and without a base (`Resumed`). -/
theorem witness_CallsAccepted_resumes :
    (∀ q ∈ [(RunState.halted, 1), (.halted, 0), (.halting, 1), (.halting, 0)],
        (withRun q.1 q.2).phase = .operating ∧ (withRun q.1 q.2).msc.state = .standby ∧ AlarmAnswered (withRun q.1 q.2)
          ∧ SlotsHeld (withRun q.1 q.2))
    ∧ ((after .callReal (withRun .halted 1)).xu.runState = .running
      ∧ (after .callReal (withRun .halted 1)).xu.survey.isSome = true)
    ∧ (after .callReal (withRun .halted 0)).xu.runState = .halted
    ∧ (after .callReal (withRun .halting 1)).xu.causes.getLsbD 6 = true
    ∧ (after .callReal (withRun .halting 0)).xu.runState = .running
    ∧ (after .callReal { ship with xu := { ship.xu with runState := .halted, span := 0 } }).xu.lastFault.kind = .noBase
    ∧ ¬AllConfirmed { ship with xu := { ship.xu with runState := .halted, span := 0 } } 6 := by
  unfold AlarmAnswered SlotsHeld AllConfirmed; decide +kernel

theorem witness_RealOrderEscalates :
    ((withMsc (mscIn .called .drill) ship).msc.state = .called ∧ (withMsc (mscIn .called .drill) ship).msc.kind ≠ .real)
      ∧ ((withMsc (mscIn .mustering .drill) ship).msc.state = .mustering
        ∧ (withMsc (mscIn .mustering .drill) ship).msc.kind ≠ .real) := by decide

theorem witness_OrdersNotCalling :
    (shipSolved.msc.state = .called ∧ shipSolved.msc.kind = .real ∧ shipSolved.sms.settings.alarmSense = .level
        ∧ shipSolved.msc.alarm = some true)
      ∧ (withMsc (mscIn .mustering .real) ship).msc.state = .mustering
      ∧ AlarmAnswered (withMsc (mscIn .mustering .real) ship)
      ∧ (withMsc (mscIn .mustering .real) ship).msc.alarm ≠ some true
      ∧ (withMsc (mscIn .mustering .drill) ship).msc.kind ≠ .real ∧ ship.msc.state = .standby
      ∧ (withMsc (mscIn .standingDown .real) ship).msc.state = .standingDown := by
  unfold AlarmAnswered; decide +kernel

/-- LEVEL and EDGE, rising and falling, a first level, and a pin one period short of its 20 ms. -/
theorem witness_AlarmSensing :
    (ship.sms.settings.alarmSense = .level ∧ ship.msc.alarm = some (!true) ∧ PinAt true ship.msc.alarmPin)
      ∧ (shipCalled.msc.alarm = some (!false) ∧ shipCalled.sms.settings.alarmSense = .level
        ∧ PinAt false (pinsAt false shipCalled).msc.alarmPin)
      ∧ (State.reset.msc.alarm = none ∧ PinAt false (pinsAt false State.reset).msc.alarmPin)
      ∧ ((edgeSensed (some false)).sms.settings.alarmSense = .edge ∧ (edgeSensed (some false)).msc.state = .standby
        ∧ PinAt true (pinsAt true (edgeSensed (some false))).msc.alarmPin)
      ∧ (edgeSensed (some true)).msc.alarm = some true ∧ (edgeSensed none).msc.alarm = none
      ∧ (let s := pinsAt true (withMsc { mscIn .mustering .real with alarm := some false } (edgeSensed none))
         PinAt true s.msc.alarmPin ∧ s.msc.state = .mustering ∧ s.msc.kind = .real ∧ s.msc.alarm = some false)
      ∧ ¬PinAt true { level := true, held := 499999 } ∧ ¬PinAt true (pinned false) := by
  unfold PinAt; decide +kernel

/-- R35, R70, R79, R73: the alarm's rise from STANDBY with the slots held, and in a DRILL. -/
theorem witness_AlarmSensing_called : SlotsHeld ship
    ∧ (let s := withMsc { mscIn .mustering .drill with alarm := some false, alarmPin := pinned true } ship
       s.msc.kind ≠ .real ∧ (after (.alarmQualifiedTransition true) s).msc.kind = .real
        ∧ (after (.alarmQualifiedTransition true) s).msc.serial = 1) := by
  unfold SlotsHeld; decide +kernel

theorem witness_ReserveRegime :
    (AlarmAnswered ship ∧ ship.msc.reserveLevel = some false ∧ PinAt true ship.msc.reservePin)
      ∧ (AlarmAnswered (pinsAt true State.reset) ∧ State.reset.msc.reserveLevel = none
        ∧ PinAt true (pinsAt true State.reset).msc.reservePin)
      ∧ (AlarmAnswered (pinsAt false (after .reserveQualifiedRise ship))
        ∧ PinAt false (pinsAt false (after .reserveQualifiedRise ship)).msc.reservePin
        ∧ (pinsAt false (after .reserveQualifiedRise ship)).msc.reserveLevel = some true)
      ∧ (∃ st, tblGet ship.sms.stations 150 = some st ∧ st.essential = false)
      ∧ ¬PinAt false ship.msc.reservePin := by
  refine ⟨?_, ?_, ?_, ⟨_, rfl, rfl⟩, ?_⟩ <;> unfold PinAt <;> (try unfold AlarmAnswered) <;> decide +kernel

/-- R86: an essential station keeps its page; and with lobby 150 alone not confirmed, the regime ends CALLED. -/
theorem witness_ReserveRegime_counted :
    ((tblGet shipCalled.sms.stations 130).map StationRec.essential = some true
      ∧ pageRec (after .reserveQualifiedRise shipCalled).pco 130 = pageRec shipCalled.pco 130)
    ∧ (let s : State := withMsc { mscIn .called .drill with serial := 6, reservePin := pinned true, reserveLevel := some false }
          { ship with sms := { ship.sms with stations := [(150, screen .lobby 2 0 0)] } }
       AlarmAnswered s ∧ ¬AllConfirmed s 6 ∧ (after .reserveQualifiedRise s).msc.state = .mustering) := by
  unfold AlarmAnswered AllConfirmed; decide +kernel

theorem witness_MusterTimersExpire :
    (AlarmAnswered (withMsc (mscIn .called .drill) ship) ∧ (withMsc (mscIn .called .drill) ship).msc.calledTimer = some 0)
    ∧ AlarmAnswered (withMsc (mscIn .standingDown .real) ship) ∧ SlotsHeld (withMsc (mscIn .standingDown .real) ship)
    ∧ (withMsc (mscIn .standingDown .real) ship).msc.holdTimer = some 0 := by
  unfold AlarmAnswered SlotsHeld; decide +kernel

/-- R122: at the return to STANDBY a due interjection takes over from step 1, which keeps its 7 periods; a step and an
interjection that stopped with no time left end; and one that stopped with time left goes on. -/
theorem witness_MusterTimersExpire_rotations :
    (let back (r : RotState) : Option RotState :=
       tblGet (after .standDownHoldExpiry (withMsc (mscIn .standingDown .real) (rotating r))).pco.rots 140
     ((back { atStep (.step 1) 1 true with countdown := some 7 }).map fun q => (q.position, q.resume))
        = some (.interj 2, some (1, 7))
      ∧ ((back (atStep (.step 1) 1 false)).map fun q => (q.position, q.countdown, q.loops))
        = some (.step 0, some 625000000, [0, 0, 1, 0, 0, 0, 0, 0])
      ∧ ((back (atStep (.interj 2) 3 false)).map fun q => (q.position, q.countdown, q.resume)) = some (.step 3, some 5, none)
      ∧ back { atStep (.interj 2) 3 true with countdown := some 7 }
          = some { atStep (.interj 2) 3 true with countdown := some 7 })
    ∧ SlotsHeld (withMsc (mscIn .standingDown .real) (rotating (atStep (.step 1) 1 true))) := by
  unfold SlotsHeld; decide +kernel

/-- R155, R187: a cabin with one press pending at the return: attention, and one report write for ATTENTION and MUSTER. -/
theorem witness_MusterTimersExpire_attention :
    (let s := with131 (heardRec (some { freshDoor with serviceTally := 1 })) (withMsc (mscIn .standingDown .real) ship)
     let t := after .standDownHoldExpiry s
     baseValid s.xu = true ∧ ((lineRec s.lcs 131).door.map pendingService) = some 1
      ∧ ((lineRec t.lcs 131).door.map DoorRec.attention) = some true
      ∧ t.xu.reportWrite.map ReportWrite.covers = some 6#7
      ∧ tblHas s.sms.stations 131 = true) := by decide +kernel

/-- R44, R45: the second wraps to 0, which is a multiple of 60. R140: the count goes from 7 to 0. -/
theorem witness_TimersRunOut :
    (after .voyageSecond
        { ship with clk := { second := 0xFFFFFFFF, prescale := 25000000, minuteDue := false } }).clk
      = { second := 0, prescale := 0, minuteDue := true }
    ∧ ((lineRec (with131 (heardRec (some { freshDoor with refresh := some 0 })) ship).lcs 131).door.bind DoorRec.refresh)
      = some 0
    ∧ (after .surveyCountdownExpiry { ship with xu := { ship.xu with countdown := some 0 } }).xu.survey.isSome = true
    ∧ (after .surveyCountdownExpiry
        { ship with xu := { ship.xu with countdown := some 0, survey := some .report } }).xu.surveyPending = true
    ∧ (after (.silentCycleExpiry 7)
        { ship with lcs := { ship.lcs with
            lines := ship.lcs.lines.set 7 { resetLine with cycleCount := 7, silence := some 0 } } }).lcs.lines[7]?.map
      LineCtl.cycleCount = some 0 := by decide +kernel

/-- The clock change that applies at minute 12,345 is record 3; an interjection that begins is due at once (R117). -/
theorem witness_MinuteEventEvaluates : SlotsHeld evening ∧ TablesCanonical evening ∧ evening.clk.minuteDue = true
    ∧ (tblGet evening.pgu.clockChanges 3).map ClockRec.atMinute = some 1000
    ∧ (let s := { rotating (atStep (.step 1) 1 false) with clk := { second := 0, prescale := 0, minuteDue := true } }
       SlotsHeld s ∧ TablesCanonical s ∧ s.clk.minuteDue = true
        ∧ ((tblGet (after .minuteEvent s).pco.rots 140).map fun q => (q.due.getD 2 false, q.position))
            = some (true, .step 1)
        ∧ ((tblGet (after .minuteEvent s).pco.rots 150).map RotState.position) = some (.interj 2)
        ∧ ((tblGet (after .minuteEvent evening).pco.rots 10).map RotState.position) = some .default) := by
  unfold SlotsHeld TablesCanonical; decide +kernel

/-- Station 140 shows interjection 2, which is active to minute 8 (R119): at minute 8 it stays; at minute 9 it gives way to its
resume step with that step's time, in STANDBY and in a muster. -/
def showing (second : Nat) : State :=
  { rotating (atStep (.interj 2) 3 false) with
    clk := { second := BitVec.ofNat 32 second, prescale := 0, minuteDue := true } }

/-- The rotation state of station 140 after the minute event. -/
def shownAfter (s : State) : Option RotState := tblGet (after .minuteEvent s).pco.rots 140

theorem witness_MinuteEventEvaluates_showing :
    SlotsHeld (showing 539) ∧ TablesCanonical (showing 539)
    ∧ ((shownAfter (showing 539)).map fun q => (q.position, q.countdown)) = some (.interj 2, some 0)
    ∧ (shownAfter (showing 539)).bind RotState.resume = some (3, 5)
    ∧ ((shownAfter (showing 540)).map fun q => (q.position, q.countdown)) = some (.step 3, some 5)
    ∧ ((shownAfter (withMsc (mscIn .mustering .drill) (showing 540))).map fun q => (q.position, q.countdown))
        = some (.step 3, some 5) := by
  refine ⟨?_, ?_, ?_⟩ <;> (try unfold SlotsHeld) <;> (try unfold TablesCanonical) <;> decide +kernel

/-- The zone of section 3.9 with 63 more entries that run (R32, R34): all 64 slots are taken and entry 17 is left waiting; at
the next minute event it still waits, and CLAIM_WAIT stays. -/
def crowded : State :=
  { evening with
    pgu := { evening.pgu with
      programme := evening.pgu.programme ++ (List.range 63).map fun i => (31 + i, entry 12330 60 (some i) 0 false) } }

/-- Voyage minute 12,346, its event due. -/
def aMinuteLater : ClockState := { second := 740760, prescale := 0, minuteDue := true }

theorem witness_MinuteEventEvaluates_waiting : SlotsHeld crowded
    ∧ (after .minuteEvent crowded).rsv.waiting.map Claim.who = [.programme 17]
    ∧ (after .minuteEvent crowded).xu.counters.claimWait = 1
    ∧ (after .minuteEvent { after .minuteEvent crowded with clk := aMinuteLater }).xu.counters.claimWait = 1 := by
  refine ⟨?_, ?_⟩ <;> (try unfold SlotsHeld) <;> decide +kernel

/-- R62, R94: a minute later the ship time and the countdowns in lobby 70's list are new, and its page with them. -/
theorem witness_MinuteEventEvaluates_sources :
    (let s := { composeMarked [70] (after .minuteEvent evening) with clk := aMinuteLater }
     Source.time ∈ (pageRec s.pco 70).sources ∧ Source.list ∈ (pageRec s.pco 70).sources
      ∧ SourceMoved s (after .minuteEvent s) 70 .time ∧ SourceMoved s (after .minuteEvent s) 70 .list
      ∧ desiredPage (after .minuteEvent s).pco 70 ≠ desiredPage s.pco 70) := by
  unfold SourceMoved; decide +kernel

/-- R111, R112, R118: from step 1 the LOOP leads back to step 0; step 7 goes on at 0; a due interjection is shown. -/
theorem witness_RotationBoundaries :
    walk rotation4 walkFuel (if 7 ≤ 1 then 0 else 1 + 1) [0, 0, 2, 0, 0, 0, 0, 0] = (0, [0, 0, 1, 0, 0, 0, 0, 0])
      ∧ walk rotation4 walkFuel (if 7 ≤ 7 then 0 else 7 + 1) [0, 0, 2, 0, 0, 0, 0, 0] = (0, [0, 0, 2, 0, 0, 0, 0, 0])
      ∧ lowestDue (atStep (.step 1) 1 false) = none ∧ lowestDue (atStep (.step 1) 1 true) = some 2
      ∧ (tblGet (after (.stepCountdownExpiry 140) (rotating (atStep (.step 1) 1 true))).pco.rots 140).map RotState.position
          = some (.interj 2)
      ∧ (tblGet (after (.interjectionCountdownExpiry 140) (rotating (atStep (.interj 2) 3 false))).pco.rots 140).map
          RotState.position = some (.step 3) := by decide +kernel

/-- R95, R110: screen 140 is configured, and shows the notice of interjection 2 after the boundary. -/
theorem witness_RotationBoundaries_page :
    (tblGet ship.sms.stations 140).map StationRec.kind = some .waypoint
    ∧ ((desiredPage (after (.stepCountdownExpiry 140) (rotating (atStep (.step 1) 1 true))).pco 140).map
        fun p => bodyKind p.body) = some .notice := by decide +kernel

/-- R118, R120: interjection 2, still due at its own end, is shown afresh with its dwell of 8 s, and step 3 is kept. -/
theorem witness_RotationBoundaries_afresh :
    lowestDue (atStep (.interj 2) 3 true) = some 2
    ∧ ((tblGet (after (.interjectionCountdownExpiry 140) (rotating (atStep (.interj 2) 3 true))).pco.rots 140).map
        fun q => (q.position, q.countdown, q.resume)) = some (.interj 2, some 200000000, some (3, 5))
    ∧ ((tblGet (after (.interjectionCountdownExpiry 140) (rotating (atStep (.interj 2) 3 true))).pco.rots 140).bind
        fun q => q.lastShown.getD 2 none) = some 0 := by decide +kernel

theorem witness_SolveCompletes : (shipCalled.rsv.slots[0]?.map Slot.state) = some .solving
    ∧ (shipCalled.rsv.slots[1]?.map Slot.state) = some .queued ∧ SolverSelects shipCalled
    ∧ (shipSolved.rsv.slots.take 2).map Slot.state = [.ready, .ready]
    ∧ (toC .muster ∈ (pageRec (after .solveComplete shipCalled).pco 130).draws)
    ∧ shipCalled.msc.state ≠ .standby := by
  unfold SolverSelects; decide +kernel

/-- A slot held for a landmark at its node. -/
def slotIn (state : SlotState) (node : Nat) (regime : Regime) : Slot :=
  { state, pair := { node, regime }, holders := [.landmark node], vector := none, vectorEpoch := 0 }

/-- R30, R36: the selection with and without a MUSTER slot; a claim that shares a slot, takes the lowest EMPTY one, or waits. -/
theorem witness_SolveCompletes_service :
    (solverSelect [slotIn .queued 1 .normal, slotIn .queued 2 .muster, slotIn .queued 3 .muster]
        = [slotIn .queued 1 .normal, slotIn .solving 2 .muster, slotIn .queued 3 .muster])
    ∧ (solverSelect [slotIn .ready 1 .normal, slotIn .queued 2 .normal, slotIn .queued 3 .normal]
        = [slotIn .ready 1 .normal, slotIn .solving 2 .normal, slotIn .queued 3 .normal])
    ∧ (let claim (n : Nat) : Claim := { who := .landmark 9, pair := { node := n, regime := .normal } }
       serveClaims [claim 1] [emptySlot, slotIn .ready 1 .normal]
          = ([emptySlot, { slotIn .ready 1 .normal with holders := [.landmark 1, .landmark 9] }], [])
        ∧ ((serveClaims [claim 4] [slotIn .ready 1 .normal, emptySlot, emptySlot]).1.map fun sl => (sl.pair.node, sl.state))
          = [(1, .ready), (4, .queued), (0, .empty)]
        ∧ serveClaims [claim 4, claim 1] [slotIn .ready 1 .normal]
          = ([{ slotIn .ready 1 .normal with holders := [.landmark 1, .landmark 9] }], [claim 4])) := by decide +kernel

/-- R22, R23, section 2.5: from node 0 two ways lead to node 3, of cost 468 and, by the lift, barred in MUSTER. -/
theorem witness_SolverResult : tblSorted fragment.edges = true
    ∧ (∀ e g, tblGet fragment.edges e = some g → g.nodeA < 1024 ∧ g.nodeB < 1024)
    ∧ Way fragment .muster 0 [(0, 1), (1, 2), (2, 3)] 3 ∧ wayCost fragment .muster 0 [(0, 1), (1, 2), (2, 3)] = 468
    ∧ NextHop fragment .muster (fun u => (hopOf (solve fragment (toC .muster)) u).dist) 0 0
    ∧ (hopOf (solve fragment (toC .muster)) 6).dist = 65535 := by
  refine ⟨by decide, fun e g h => ?_, ?_, by decide +kernel, ?_, by decide +kernel⟩
  · have k : ∀ p ∈ fragment.edges, p.2.nodeA < 1024 ∧ p.2.nodeB < 1024 := by decide
    exact k _ (get_mem h)
  · exact ⟨⟨_, rfl, by decide⟩, ⟨_, rfl, by decide⟩, ⟨_, rfl, by decide⟩, rfl⟩
  · exact ⟨_, 1, rfl, by decide +kernel, by decide +kernel, by decide +kernel⟩

/-- R80 to R82: before any solve C is UNKNOWN, after it REACHABLE; A is OUT where it is closed; with none in use all are. -/
theorem witness_EffectiveStations :
    (tblSorted ship.sms.musters = true
      ∧ stationClass ship.sms.musters shipCalled.rsv.slots 5 2 = .unknown
      ∧ stationClass ship.sms.musters shipSolved.rsv.slots 5 2 = .reachable 160
      ∧ OutAt ship.sms.musters shipSolved.rsv.slots 9 2 ∧ OutAt [] shipSolved.rsv.slots 5 2)
    ∧ (let closed : Tbl MusterRec := [(0, { isOpen := true, node := 20, alternate := none, label := [] })
          , (2, { isOpen := false, node := 3, alternate := some 0, label := [] })]
       OutAt closed shipSolved.rsv.slots 0 2 ∧ ¬OutAt closed shipSolved.rsv.slots 0 0
        ∧ effectiveStation closed shipSolved.rsv.slots (cabin 0 []) = (some 0, true)
        ∧ effectiveStation [] shipSolved.rsv.slots (cabin 0 []) = (none, false)
        ∧ shownStations closed shipSolved.rsv.slots { cabin 0 [] with kind := .lobby, served := [2] } = [0])
    ∧ (tblGet ship.sms.stations 150).map StationRec.served = some [2] := by
  unfold OutAt; decide +kernel

/-- Section 3.9: the view at minute 12,345, by start; entry 9 has no venue. -/
theorem witness_ProgrammeLists : tblSorted evening.pgu.programme = true
    ∧ orderedView evening.pgu.programme = [30, 9, 17, 22, 4]
    ∧ (orderedView [(3, entry 7 1 none 0 false), (8, entry 7 1 none 0 false)]) = [3, 8]
    ∧ ((tblGet (after .minuteEvent evening).pgu.lists 10).map fun l => l.map ListLine.deck) = some [some 5, some 5]
    ∧ ((tblGet (after .minuteEvent evening).pgu.lists 70).map fun l => (l.map ListLine.deck).take 2)
        = some [some 4, none] := by decide +kernel

/-- R91: serial 65535 is followed by 1, and an equal page keeps its serial. R96: one station for each kind. -/
theorem witness_CompositionTaken :
    (let s := { ship with pco := { ship.pco with pages := [(130, { emptyPageRec with serial := 65535 })] } }
     (pageRec (composeMarked [130, 130] s).pco 130).serial = 1#16
      ∧ (pageRec (composeMarked [130] (composeMarked [130] s)).pco 130).serial = 1#16
      ∧ tblGet s.sms.stations 495 = none ∧ (pageRec (composeMarked [495] s).pco 495).serial = 0#16)
    ∧ Lit ship (cabin 5 []) ∧ ¬Lit { ship with msc := { ship.msc with reserve := true } } (screen .lobby 2 0 0)
    ∧ shownAt ship 140 = .default ∧ shownAt (rotating (atStep (.step 1) 1 false)) 140 = .step 1
    ∧ stepAt (rotating (atStep (.step 1) 1 false)) 140 1 = .notice 7 10
    ∧ stepAt (rotating (atStep (.step 3) 1 false)) 140 3 = .landmarks 15
    ∧ stepAt (rotating (atStep (.step 0) 1 false)) 140 0 = .programme 25
    ∧ shownAt (rotating (atStep (.interj 2) 1 false)) 140 = .interj 2 := by
  unfold Lit; decide +kernel

/-- Each kind of page, at a station of the ship: the body of a door, a screen and a notice in STANDBY and in muster. -/
theorem witness_PageBodies :
    (let kind (s : State) (x : Nat) (st : StationRec) : PageKind := bodyKind (candidate s x st).page.body
     let way : StationRec := screen .waypoint 4 0 0
     kind ship 130 (cabin 5 []) = .doorStandard ∧ kind shipCalled 130 (cabin 5 []) = .doorMuster
      ∧ kind ship 140 way = .wayProgramme ∧ kind shipCalled 140 way = .screenMuster
      ∧ kind ship 150 (screen .lobby 2 0 0) = .lobbyProgramme
      ∧ kind (rotating (atStep (.step 1) 1 false)) 140 way = .notice
      ∧ kind (rotating (atStep (.step 3) 1 false)) 140 way = .wayLandmarks
      ∧ kind { ship with msc := { ship.msc with reserve := true } } 140 way = .blank)
    ∧ mapAt shipCalled.msc 130 = some (.cabin (some 2) false) ∧ mapAt shipCalled.msc 140 = some (.screen [2, 0])
    ∧ mapAt shipCalled.msc 495 = none ∧ (tblGet ship.sms.musters 2).isSome = true := by decide +kernel

/-- R20: the examples of its table, and both ways of a STAIR. -/
theorem witness_TraversalCosts :
    traversalBarred fragment .normal (edge .corridor .level 0 1 180 0) 0 1 = false
      ∧ traversalCost fragment .normal (edge .corridor .level 0 1 180 0) 0 = 180
      ∧ traversalCost fragment .muster (edge .stair .aDown 1 2 45 0) 1 = 68
      ∧ traversalCost fragment .normal (edge .stair .aDown 1 2 45 0) 2 = 113
      ∧ traversalCost fragment .normal (edge .lift .level 4 5 30 0) 4 = 630
      ∧ traversalBarred fragment .muster (edge .lift .level 4 5 30 0) 4 5 = true
      ∧ (∀ k, kindWeight (regimeWeights fragment.settings .normal) k ≤ 15)
      ∧ (regimeWeights fragment.settings .normal).liftFixed ≤ 2000 := by
  refine ⟨by decide, by decide, by decide, by decide, by decide, by decide, fun k => ?_, by decide⟩
  cases k <;> decide

/-- R40: the arrow of each case, at the stations of the ship. -/
theorem witness_ArrowSixCases :
    (slotOf shipCalled.rsv.slots (toC .muster)).map (fun sl => sl.vector.isSome) = some false
      ∧ (slotOf shipSolved.rsv.slots (toC .muster)).map (fun sl => sl.vector.isSome) = some true
      ∧ (arrowFor shipCalled.sms shipCalled.rsv.slots (cabin 5 []) (toC .muster)).arrow = .pending
      ∧ (arrowFor ship.sms shipSolved.rsv.slots (cabin 3 []) (toC .muster)).arrow = .here
      ∧ (arrowFor ship.sms shipSolved.rsv.slots (cabin 9 []) (toC .muster)).arrow = .noRoute
      ∧ (arrowFor ship.sms shipSolved.rsv.slots (cabin 5 [(5, .left)]) (toC .muster)).arrow = .left
      ∧ (arrowFor ship.sms shipSolved.rsv.slots (cabin 5 [(4, .up)]) (toC .muster)).unlisted = true
      ∧ (arrowFor { ship.sms with edges := [] } (shipSolved.rsv.slots.map staleSlot) (cabin 5 [(5, .left)])
          (toC .muster)).arrow = .withheld := by decide +kernel

theorem witness_TurnOrder :
    (TablesCanonical shipCalled ∧ 2 < shipCalled.lcs.lines.length ∧ turnReady (lineAt shipCalled.lcs 2) = true
        ∧ ∃ y ∈ lineStations shipCalled 2, musterWaiting shipCalled y = true)
      ∧ (TablesCanonical ship ∧ turnReady (lineAt ship.lcs 2) = true
        ∧ (∀ y ∈ lineStations ship 2, musterWaiting ship y = false) ∧ cycleNext ship 2 0 0 = some 130
        ∧ cycleNext ship 2 0 27 = none ∧ cycleNext ship 2 1 0 = some 130)
      ∧ (turnReady (lineAt ship.lcs 0) = true ∧ cycleNext ship 0 0 0 = none) ∧ tblSorted ship.sms.stations = true
      ∧ (let s := with131 { heardRec (some freshDoor) with misses := 4 } ship
         lineStatus s 131 = .lost ∧ cycleNext s 2 0 7 = some 131 ∧ cycleNext s 2 1 7 = some 140) := by
  unfold TablesCanonical; decide +kernel

theorem witness_TurnCarries :
    (turnTxn shipCalled 130).transfer.isSome = true ∧ (turnTxn ship 130).transfer.isSome = false
      ∧ (turnTxn shipCalled 130).transfer.map (fun e => (e.1.full, e.2)) = some (true, 0)
      ∧ (turnTxn shipCalled 140).transfer.map (fun e => e.1.full) = some false := by decide +kernel

/-- The waiting record of page 8. -/
def waiting8 : Waiting := { serial := 8, kind := .doorStandard, musterSerial := 0 }

/-- Station 131 with page 7 confirmed and page 8 waiting, in a poll. -/
def polled : State :=
  with131 { heardRec (some freshDoor) with confSerial := 7, waiting := some waiting8 } (inFlight none 75000)

theorem witness_StateAnswers :
    ((lineAt polled.lcs 2).txn = some { station := 131, transfer := none, left := 75000 }
        ∧ Answerable { station := 131, transfer := none, left := 75000 }
        ∧ (lineRec polled.lcs 131).baseline = true ∧ (0x0D#8).getLsbD 1 = false)
      ∧ (lineRec (after (.stateAnswer 2 0 8 0 0) polled).lcs 131).confKind = some .doorStandard
      ∧ (lineRec (after (.stateAnswer 2 0 7 0 0) polled).lcs 131).waiting = none
      ∧ (lineRec (after (.stateAnswer 2 1 7 0 0) polled).lcs 131).waiting = some waiting8
      ∧ (lineRec (after (.stateAnswer 2 1 9 0 0) polled).lcs 131).confSerial = 9#16
      ∧ (lineRec (with131 { emptyLineRec with door := some freshDoor } polled).lcs 131).baseline = false
      ∧ (0x02#8).getLsbD 1 = true
      ∧ (lineRec (after (.stateAnswer 2 2 8 9 9) polled).lcs 131).confSerial = 0#16
      ∧ ((lineRec (after (.stateAnswer 2 2 8 9 9) polled).lcs 131).door.map DoorRec.lastService) = some 9#8 := by
  unfold Answerable; decide +kernel

/-- A DRILL of serial 6 with only station 131 configured, whose muster page 8 waits. -/
def lastToConfirm : State :=
  withMsc { mscIn .called .drill with serial := 6, alarm := some false, calledTimer := some 9 }
    { with131 { heardRec (some freshDoor) with confSerial := 7, waiting := some { waiting8 with musterSerial := 6 } }
        (inFlight none 75000) with
      sms := { ship.sms with stations := [(131, cabin 0 [])] } }

/-- R72, R84, R85: the last counted station confirms page 8 and CALLED ends; with page 7, still confirmed, it lasts; and on the
ship, where the other three have not confirmed, it lasts too. -/
theorem witness_StateAnswers_recount :
    (lastToConfirm.msc.state = .called ∧ AlarmAnswered lastToConfirm)
    ∧ (AllConfirmed (after (.stateAnswer 2 0 8 0 0) lastToConfirm) 6
      ∧ (after (.stateAnswer 2 0 8 0 0) lastToConfirm).msc.state = .mustering)
    ∧ (¬AllConfirmed (after (.stateAnswer 2 0 7 0 0) lastToConfirm) 6
      ∧ (after (.stateAnswer 2 0 7 0 0) lastToConfirm).msc = lastToConfirm.msc)
    ∧ (after (.stateAnswer 2 0 8 0 0) { lastToConfirm with sms := ship.sms }).msc.state = .called := by
  unfold AlarmAnswered AllConfirmed; decide +kernel

/-- R151: at pending 62 two presses fill the count to 63 and one is lost. R154: an acknowledgement behind the held one lets
assistance pending rise from 0, which sets attention (log 42). -/
theorem witness_PressesAndAcks :
    (let s := with131 (heardRec (some { freshDoor with serviceTally := 62 })) polled
     ((lineRec (after (.stateAnswer 2 0 0 2 0) s).lcs 131).door.map pendingService,
       (after (.stateAnswer 2 0 0 2 0) s).xu.counters.lostPresses)) = (some 63, 1)
    ∧ (let s := { ship with xu := (surveying (.acks true 0)).xu }
     s.xu.survey = some (.acks true 0) ∧ tblHas s.sms.stations 131 = true ∧ tblHas s.sms.stations 132 = false
      ∧ ((lineRec s.lcs 131).door.map DoorRec.synced) = some false
      ∧ ((lineRec (after (.ackArrayRead (List.replicate 1984 9)) s).lcs 131).door.map
          fun d => (d.synced, d.serviceTally, pendingService d)) = some (true, 9#8, 0))
    ∧ (let d := { freshDoor with synced := true, serviceTally := 9, serviceAck := 9, assistTally := 9, assistAck := 9 }
       let s := with131 (heardRec (some d)) { ship with xu := (surveying (.acks true 0)).xu }
       ((lineRec (after (.ackArrayRead (List.replicate 1984 8)) s).lcs 131).door.map
          fun e => (pendingAssist e, e.attention)) = some (1, true)
        ∧ ((lineRec (after (.ackArrayRead (List.replicate 1984 9)) s).lcs 131).door.map DoorRec.attention)
            = some false) := by decide +kernel

/-- R153, R154: a first press sets attention, and ATTENTION waits for the report write. -/
theorem witness_PressesAndAcks_attention :
    ((lineRec (after (.stateAnswer 2 0 0 1 0) polled).lcs 131).door.map DoorRec.attention) = some true
    ∧ (after (.stateAnswer 2 0 0 1 0) polled).xu.waiting = 2#7 := by decide +kernel

theorem witness_TakenAnswers :
    (lineAt (inFlight (some (blankPage, 0)) 1).lcs 2).txn = some { station := 131, transfer := some (blankPage, 0), left := 1 }
      ∧ Answerable { station := 131, transfer := some (blankPage, 0), left := 1 }
      ∧ Answerable { station := 131, transfer := some (blankPage, 0), left := 0, coming := some 1 }
      ∧ blockCount blankPage.page.body = 0 ∧ blockCount doorPage.page.body = 1
      ∧ abandons (inFlight (some (doorPage, 0)) 1) 131 doorPage = false
      ∧ abandons { inFlight (some (doorPage, 0)) 1 with sms := resetSms } 131 doorPage = true
      ∧ (lineRec (after (.takenToPageBlock 2) (inFlight (some (doorPage, 1)) 1)).lcs 131).waiting = some waiting8
      ∧ ((lineRec (after (.takenToPageHead 2) (inFlight (some (blankPage, 0)) 1)).lcs 131).waiting).map Waiting.serial
          = some 7#16 := by
  unfold Answerable; decide +kernel

/-- R137: a DOUBTFUL and a LOST station are ONLINE at a TAKEN in the middle of a transfer of 2 blocks; a block missed after it
is miss 1. -/
theorem witness_TakenAnswers_online :
    (let lobby : SentPage := { serial := 8, page := { body := .lobbyProgramme 0 1 (List.replicate 3 pageLine), musterSerial := 0 }
                               full := false }
     let s (misses : Nat) : State := with131 { heardRec (some freshDoor) with misses } (inFlight (some (lobby, 0)) 1)
     2 ≤ blockCount lobby.page.body ∧ tblHas (s 2).sms.stations 131 = true ∧ 1 ≤ (s 2).sms.settings.missLimit
      ∧ lineStatus (s 2) 131 = .doubtful ∧ lineStatus (s 9) 131 = .lost
      ∧ lineStatus (after (.takenToPageHead 2) (s 2)) 131 = .online ∧ lineStatus (after (.takenToPageHead 2) (s 9)) 131 = .online
      ∧ ((lineAt (after (.takenToPageHead 2) (s 9)).lcs 2).txn.map Txn.transfer) = some (some (lobby, 1))
      ∧ (lineRec (after (.answerDiscarded 2)
          { s 9 with lcs := { (after (.takenToPageHead 2) (s 9)).lcs with
              lines := (inFlight (some (lobby, 1)) 1).lcs.lines } }).lcs 131).misses = 1) := by decide +kernel

/-- R133: a muster called during the transfer of page 8 abandons it; the muster page itself goes on. -/
theorem witness_TakenAnswers_abandoned :
    (desiredPage shipCalled.pco 131).map (fun g => (bodyKind g.body, g.musterSerial)) = some (.doorMuster, 6#16)
    ∧ shipCalled.msc.serial = 6#16 ∧ desiredSerial shipCalled.pco 131 ≠ doorPage.serial
    ∧ abandons shipCalled 131 doorPage = true
    ∧ abandons shipCalled 131 { doorPage with serial := desiredSerial shipCalled.pco 131 } = false := by decide +kernel

/-- HELD_OFF is heard; a discarded answer to a block, a STATE to it, and a timeout at its end are misses. -/
theorem witness_HeldOffAndMissed :
    (after (.heldOff 2) (inFlight (some (doorPage, 1)) 75000)).xu.counters.transferFail = 1
      ∧ (after (.heldOff 2) (inFlight (some (doorPage, 0)) 75000)).xu.counters.transferFail = 0
      ∧ (lineRec (after (.answerDiscarded 2) (inFlight (some (doorPage, 1)) 75000)).lcs 131).errors = 1
      ∧ (after (.stateAnswer 2 0 0 0 0) (inFlight (some (doorPage, 1)) 1)).xu.counters.lineCrc = 1
      ∧ (after (.takenToPageHead 2) (inFlight none 1)).xu.counters.lineCrc = 1
      ∧ (lineRec (after (.replyWindowTimeout 2) (inFlight none 0)).lcs 131).misses = 1
      ∧ ¬Answerable { station := 131, transfer := none, left := 75001 }
      ∧ ¬Answerable { station := 131, transfer := none, left := 0 } := by
  unfold Answerable; decide +kernel

/-- R72, R84: the same DRILL at station 131's fourth miss, which makes it LOST: it is counted no more, and CALLED ends. -/
def lastToBeLost : State :=
  { lastToConfirm with
    lcs := { setLineRec 131 { heardRec (some freshDoor) with misses := 3 } lastToConfirm.lcs with
      lines := lastToConfirm.lcs.lines.set 2
        { resetLine with service := .inService, txn := some { station := 131, transfer := none, left := 0 } } } }

theorem witness_HeldOffAndMissed_recount :
    ¬AllConfirmed lastToBeLost 6 ∧ (after (.replyWindowTimeout 2) lastToBeLost).msc.state = .mustering
    ∧ AllConfirmed (after (.replyWindowTimeout 2) lastToBeLost) 6 := by
  unfold AllConfirmed; decide +kernel

/-- R142: lobby 150 is LOST at miss 4 under the regime, and shed; at the beginning of the regime too; a cabin is essential. -/
theorem witness_ShedUnderReserve :
    (let s := after .reserveQualifiedRise
        { ship with lcs := { ship.lcs with
            lines := ship.lcs.lines.set 2
              { resetLine with service := .inService, txn := some { station := 150, transfer := none, left := 0 } }
            recs := [(150, { heardRec none with misses := 3 })] } }
     (tblGet s.sms.stations 150).map StationRec.essential = some false
      ∧ (lineRec s.lcs 150).shed = false
      ∧ (lineRec (after (.replyWindowTimeout 2) s).lcs 150).shed = true)
    ∧ (lineRec (after .reserveQualifiedRise
        { ship with lcs := { ship.lcs with recs := [(150, { heardRec none with misses := 4 })] } }).lcs 150).shed = true
    ∧ tblHas ship.lcs.recs 150 = true ∧ 1 ≤ ship.sms.settings.missLimit := by decide +kernel

/-- R124, R126: a block frame of 55 bytes before, at its first and at its last period on the line; answers to a poll and to a
page frame, one of them cut short by a gap. -/
theorem witness_FramesOnTheLine :
    (let l (left : Nat) : LineCtl := lineAt (inFlight (some (doorPage, 1)) left).lcs 2
     [88751, 88750, 75001, 75000].map (fun left => (dirLevel (l left), txdLevel (l left)))
        = [(false, true), (true, false), (true, true), (false, true)]
      ∧ [88726, 88725].map (fun left => txdLevel (l left)) = [false, true])
    ∧ (let poll : Txn := { station := 131, transfer := none, left := 1 }
       let head : Txn := { station := 131, transfer := some (doorPage, 0), left := 1 }
       let sent (bs : List Byte) : List (Nat × Byte) := (0, 0x55#8) :: bs.map fun b => (0, b)
       receivedCommand 2 poll (sent (frameBytes 8 0x81 [1, 2, 3, 4, 5])) = .stateAnswer 2 1 0x302 4 5
        ∧ receivedCommand 2 head (sent (frameBytes 8 0x82 [])) = .takenToPageHead 2
        ∧ receivedCommand 2 { head with transfer := some (doorPage, 1) } (sent (frameBytes 8 0x82 [])) = .takenToPageBlock 2
        ∧ receivedCommand 2 head (sent (frameBytes 8 0x83 [])) = .heldOff 2
        ∧ receivedCommand 2 poll (sent (frameBytes 8 0x83 [])) = .answerDiscarded 2
        ∧ receivedCommand 2 head (sent [0xD3, 8, 0x82] ++ [(750, 0), (0, 0), (0, 0)]) = .answerDiscarded 2
        ∧ receivedCommand 2 head [(0, 0x55)] = .replyWindowTimeout 2) := by decide +kernel

/-- R197: the lengths of the bodies with two lines, four lines of a notice, and without any. -/
theorem witness_PageBodyBytes :
    (let land : LandLine := { label := [0x42], deck := 6, arrow := .left, minutes := none }
     (bodyBytes (.wayLandmarks [land, land])).length = 42 ∧ [land, land][1]? = some land
      ∧ (bodyBytes (.wayLandmarks [land, land])).drop 38 = [6, 2, 0xFF, 0])
    ∧ (bodyBytes (.notice [[], [0x43], [], []] (some (.up, some 9)))).drop 160 = [8, 9, 0, 0]
    ∧ (bodyBytes (.screenMuster [] true)) = [1, 1, 0, 0] := by decide +kernel

/-- R160: 1 is above settled 0 and 0 is not. R16, R17: both words change and the epoch rises twice; bit 0 of the map is no
group. -/
theorem witness_SurveyWordsRead :
    (surveying (.publish true 0)).xu.survey = some (.publish true 0)
      ∧ (after (.publishWordRead (record 8 [1])) (surveying (.publish true 0))).xu.stage.isSome = true
      ∧ (after (.publishWordRead (record 8 [0])) (surveying (.publish true 0))).xu.stage.isSome = false
    ∧ (surveying (.live true 0)).xu.survey = some (.live true 0)
      ∧ (after (.liveWordsRead (record 12 [3, 0, 0, 0, 0, 0, 0, 0, 1])) (surveying (.live true 0))).sms.epoch = 2#32
      ∧ (after (.liveWordsRead (record 12 [1])) (surveying (.live true 0))).sms.epoch = 0#32 := by decide +kernel

/-- R28, R94: the live words change, the epoch rises, and door 130 draws from a slot with a vector. -/
theorem witness_SurveyWordsRead_drawn :
    (let s := { shipSolved with xu := (surveying (.live true 0)).xu }
     let t := after (.liveWordsRead (record 12 [3, 0, 0, 0, 0, 0, 0, 0, 1])) s
     t.sms.epoch ≠ s.sms.epoch ∧ (tblGet s.sms.stations 130).isSome = true
      ∧ (∃ sl ∈ s.rsv.slots, sl.vector ≠ none ∧ sl.pair ∈ (pageRec s.pco 130).draws)) := by decide +kernel

theorem witness_BusWritesEnd :
    (surveying (.status 495 absentStatus 0)).xu.survey = some (.status 495 absentStatus 0)
      ∧ (after .statusRecordWritten (surveying (.status 495 absentStatus 0))).phase = .operating
      ∧ (after .reportWriteDone (reporting .immediate)).xu.causes = 4#7
      ∧ (after .reportWriteDone (reporting .halt)).xu.causes = 36#7
      ∧ (after .reportWriteFailed (reporting .halt)).xu.causes = 48#7 := by decide +kernel

/-- R183: with the halt's write and an immediate one due, the halt's begins; a failed write has the block written again. -/
theorem witness_BusWritesEnd_due :
    (let s := { reporting .immediate with xu := { (reporting .immediate).xu with reportDue := [.halt, .immediate] } }
     baseValid s.xu = true ∧ (after .reportWriteDone s).xu.reportDue = [.immediate]
      ∧ (after .reportWriteDone s).xu.reportWrite.map ReportWrite.reason = some .halt
      ∧ (after .reportWriteFailed s).xu.reportWrite.map (fun w => (w.reason, w.covers)) = some (.halt, 4#7))
    ∧ (after .reportWriteFailed (reporting .immediate)).xu.reportMark = true
    ∧ (after .reportWriteFailed (reporting .immediate)).xu.waiting = 4#7 := by decide +kernel

/-- R180, R183, R186: a call begins a report write, and the acknowledge array the status write of station 0; the report
block lies at 0x0800 of the area and the record of station 495 at 0x5DE0. -/
theorem witness_ReportsBegin :
    (shipCalled.xu.reportWrite.map fun w => (w.serial, w.base)) = some (1#32, 0x140000000#64)
      ∧ ship.xu.reportWrite = none
      ∧ (after (.ackArrayRead []) (surveying (.acks true 0))).xu.survey = some (.status 0 absentStatus 1250000)
      ∧ ((busWrites shipCalled.xu).map fun w => (w.address, w.bytes.length)) =
          [(0x140000800#64, 4), (0x140000804#64, 248), (0x1400008FC#64, 4)]
      ∧ ((busWrites (surveying (.status 495 absentStatus 0)).xu).map fun w => (w.address, w.bytes.length))
          = [(0x5DE0#64, 32)] := by decide +kernel

theorem witness_BusReadFails :
    (surveyReads (.acks false 9) = true ∧ (surveying (.publish true 0)).xu.survey = some (.publish true 0))
      ∧ ((staging (.record 0 1 0 7 9)).phase ≠ .validating
        ∧ (after (.busReadFailed .staging) (stagingIn (staging (.record 0 1 0 7 9)))).xu.settle.record = some 7) := by
  decide +kernel

/-- R172, R187: SETTLED with no base, with a base and no write in progress, and behind a write in progress. -/
theorem witness_BusReadFails_settled :
    (after (.busReadFailed .staging) (stagingIn (staging .header))).xu.reportWrite.map ReportWrite.covers = some 17#7
    ∧ (let s := stagingIn (staging .header)
       (after (.busReadFailed .staging) { s with xu := { s.xu with span := 0 } }).xu.causes = 17#7)
    ∧ (let s := { reporting .immediate with xu := { (reporting .immediate).xu with stage := some (staging .header) } }
       (after (.busReadFailed .staging) s).xu.waiting = 17#7
        ∧ (after (.busReadFailed .staging) s).xu.reportDue = [.immediate]) := by decide +kernel

/-- A notice of 96 entries is read on, and one of 97 is OVERSIZE; a re-read of the edition in hand and of another one. -/
theorem witness_HeaderDirectoryReread :
    readIssued (staging .header) = true ∧ readIssued (staging .directory) = true
      ∧ (after (.noticeHeaderRead (record 8 [1, 0, 0, 0, 96])) (stagingIn (staging .header))).xu.stage.isSome = true
      ∧ (after (.noticeHeaderRead (record 8 [1, 0, 0, 0, 97])) (stagingIn (staging .header))).xu.settle.reason = .oversize
      ∧ (after (.noticeHeaderRead (record 8 [2])) (stagingIn (staging .header))).xu.settle.reason = .disturbed
      ∧ (after (.noticeHeaderRead (record 8 [1, 0, 0, 0, 0, 0, 1])) (stagingIn (staging .header))).xu.settle.reason
          = .badField
    ∧ readIssued (staging .reread) = true
      ∧ (after (.publishWordReread (record 8 [1, 0, 0, 0, 77])) (stagingIn (staging .reread))).xu.stage.map Staging.phase
          = some .validating
      ∧ (after (.publishWordReread (record 8 [2])) (stagingIn (staging .reread))).xu.settle.reason = .disturbed := by
  decide +kernel

/-- R180, R193: the two reads of a directory at base 0x140000000, and entry 16, of line 1's Station table, from the second. -/
theorem witness_HeaderDirectoryReread_directory :
    ((stagingBusReads (staging .directory)).map fun r => (r.address, r.size))
      = [(0x140000000#64, 192), (0x140000100#64, 112)]
    ∧ ((after (.directoryRead (List.replicate 192 0 ++ record 112 [0, 0x90, 0, 0, 64, 0, 0, 0, 62]))
          (stagingIn (staging .directory))).xu.stage.map fun g => tableEntry g 3 1)
      = some { offset := 0x9000, size := 64, count := 62 } := by decide +kernel

/-- An empty range, a CLEAR and a SET_CLOCK are taken and the last read follows; a PUT of node 700 waits for its record. -/
theorem witness_EntriesAndRecords :
    (readIssued (staging .entries) = true
        ∧ parseEntry (record 8 [1, 1, 0, 0, 188, 2]) 0 = .put 1 0 700 1 true
        ∧ checkEntry { staging .entries with highest := 11 } 0 (.put 1 0 700 1 true) = none
        ∧ (checkEntry { staging .entries with highest := 11 } 0 (.put 1 0 4096 1 true)).map Failure.reason = some .badIndex
        ∧ (checkEntry (staging .entries) 0 (.put 1 0 700 1 true)).map Failure.reason = some .badLeaf)
      ∧ readIssued (staging (.record 0 1 0 7 7)) = true ∧ readIssued (staging (.record 0 1 0 7 8)) = true
      ∧ (staging (.record 0 1 0 7 7)).rest = []
      ∧ takeEntries { staging .entries with highest := 11 }
            [(0, .put 1 0 0 0 false), (1, .clear 1 0 3 2 false), (2, .setClock 60)] =
          .going { staging .reread with
            highest := 11, clock := some 60, staged := [3, 4].map fun i => { leaf := 1, sub := 0, index := i, entry := 1, bytes := none } }
      ∧ takeEntries { staging .entries with highest := 11 } [(0, .setClock 60), (1, .setClock 61)] =
          .failed { reason := .duplicate, entry := some 1, record := none, leaf := none } := by decide +kernel

/-- R163, R164: each check at its boundary, in a table of 4096 records of which 1024 are nodes' capacity. -/
theorem witness_EntryChecks :
    (let g := { staging .entries with highest := 11 }
     let reason (e : Entry) : Option Reason := (checkEntry g 0 e).map Failure.reason
     g.highest ≤ 11 ∧ reason (.put 1 0 1023 1 true) = none ∧ reason (.put 1 0 1023 2 false) = some .badIndex
      ∧ (checkEntry g 0 (.put 1 0 1020 9 false)).map Failure.record = some (some 1024)
      ∧ reason (.clear 12 0 0 0 false) = some .badLeaf ∧ reason (.clear 0 0 0 0 false) = some .badLeaf
      ∧ reason (.clear 3 7 61 1 true) = none ∧ reason (.clear 3 8 0 0 false) = some .badLeaf
      ∧ reason (.clear 1 1 0 0 false) = some .badLeaf ∧ reason (.put 2 0 0 1 true) = some .badLeaf
      ∧ reason (.clear 2 0 0 1 true) = none)
    ∧ parseEntry (record 8 [5, 0, 0, 0, 60]) 0 = .setClock 60 ∧ parseEntry (record 8 [5, 1]) 0 = .bad none
    ∧ parseEntry (record 8 [6]) 0 = .bad none ∧ parseEntry (record 8 [2, 3, 7, 1]) 0 = .bad (some 3)
    ∧ parseEntry (record 8 [4, 3, 7, 0, 5, 0, 2]) 0 = .clear 3 7 5 2 false := by decide +kernel

/-- R3, R4, R6, R7, R47, R51, R109, R114, R115: a record of each leaf that passes, and one that fails a check. -/
theorem witness_BadFields :
    (badBytes 1 0 (record 4 [1, 20]) = false ∧ badBytes 1 0 (record 4 [1, 21]) = true)
      ∧ (badBytes 2 0 (record 16 [1, 1, 2, 0, 0, 0, 255, 3]) = false ∧ badBytes 2 0 (record 16 [1, 0, 1, 0, 0, 0, 1]) = true)
      ∧ (badBytes 3 0 (record 64 [1, 2]) = false ∧ badBytes 3 0 (record 64 [1, 0]) = true)
      ∧ (badBytes 4 3 (record 24 [1, 1, 0, 0, 4]) = false ∧ badBytes 4 4 (record 24 [1, 1, 0, 0, 4]) = true)
      ∧ (badBytes 5 0 (record 20 [1]) = false ∧ badBytes 5 0 (record 20 [1, 1]) = true)
      ∧ (badBytes 6 0 (record 64 [1, 7]) = false ∧ badBytes 6 0 (record 64 [1, 8]) = true)
      ∧ (badBytes 7 1 (record 68 [1, 0, 0, 0, 1]) = false ∧ badBytes 7 0 (record 68 [1, 0, 0, 0, 1]) = true
        ∧ badBytes 7 1 (record 68 [1]) = true)
      ∧ (badBytes 8 0 (record 164 [1]) = false ∧ badBytes 8 0 (record 164 [1, 0, 0, 4]) = true)
      ∧ (badBytes 9 0 (record 20 [1, 31, 0, 0, 0, 0, 0, 0, 0, 0, 0, 0, 1]) = false ∧ badBytes 9 0 (record 20 [1]) = true)
      ∧ (badBytes 10 0 (record 8 [1]) = false ∧ badBytes 10 0 (record 8 [1, 1]) = true)
      ∧ (let r := stagedAt 2 0 0 (record 16 [2])
         r.leaf ≠ 11 ∧ badField working r = true ∧ badField working (stagedAt 2 0 0 (record 16 [0, 9])) = false) := by
  decide +kernel

/-- R14, R168: node 700 emptied under an in-use edge, and two muster stations at one node; canonical sets, staged records
apart. -/
theorem witness_ValidationCharges :
    (SetCanonical working ∧ stage412.Pairwise fun a b => ¬(a.leaf = b.leaf ∧ tableIndex a = tableIndex b))
      ∧ (let t := postEdition stage412 working
         SetCanonical t ∧ recordReason t stage412 (stagedAt 1 702 9 (record 4 [0])) = none
          ∧ recordReason t stage412 (stagedAt 1 705 9 (record 4 [0])) = some .dangling
          ∧ recordReason t stage412 (stagedAt 1 705 9 (record 4 [1, 0])) = some .badField)
      ∧ (let l := [stagedAt 4 1 0 (record 24 [1, 0, 41]), stagedAt 4 3 0 (record 24 [1, 0, 41])]
         let l := l.map fun r => { r with bytes := r.bytes.map fun b => b.set 4 255 }
         SetCanonical (postEdition l working) ∧ validate (postEdition l working) l l =
          some { reason := .duplicate, entry := some 0, record := some 3, leaf := some 4 }) := by
  unfold SetCanonical; decide +kernel

/-- A rejection; then one node is committed, and a SET_CLOCK with it. -/
theorem witness_ValidationEnds :
    (after .validationDone (stagingIn { staging .validating with staged := stage412 })).xu.settle =
      { outcome := .rejected, reason := .dangling, entry := some 1, record := some 3000 }
    ∧ (let g := { staging .validating with staged := [stagedAt 1 700 0 (record 4 [1, 6])], clock := some 60 }
       let t := after .validationDone (stagingIn g)
       (validate (postEdition g.staged (tablesOf (stagingIn g))) g.staged g.staged, t.xu.applied, t.clk.second, t.sms.epoch))
      = (none, 1#32, 60#32, 1#32) := by decide +kernel

/-- R25, R94: a commit that changes notice 11, which screen 140 shows, and one that changes walk_rate in a muster whose doors
draw from a slot with a vector. -/
theorem witness_ValidationEnds_sources :
    (let committing (r : Staged) (s : State) : State :=
       { s with xu := { ship.xu with stage := some { staging .validating with staged := [r] } } }
     let s := committing (stagedAt 8 11 0 (record 164 [1])) (after (.stepCountdownExpiry 140) (rotating (atStep (.step 1) 1 true)))
     let t := after .validationDone s
     let u := committing (stagedAt 11 0 0 (record 32 [1])) shipSolved
     TablesCanonical s ∧ Source.notice 11 ∈ (pageRec s.pco 140).sources ∧ SourceMoved s t 140 (.notice 11)
      ∧ (tblGet t.sms.stations 140).isSome = true ∧ t.xu.applied = 1
      ∧ TablesCanonical u ∧ (after .validationDone u).sms.settings.walkRate ≠ u.sms.settings.walkRate
      ∧ (∃ sl ∈ u.rsv.slots, sl.vector ≠ none ∧ sl.pair ∈ (pageRec u.pco 131).draws)) := by
  unfold TablesCanonical SourceMoved; decide +kernel

/-- On the ship: an edition that empties station 130, gives screen 140 rotation 4, which starts, and leaves 131; the
interjection that is active is shown at 150, which stood at its default page. -/
theorem witness_CommitTells :
    (let g : Staging :=
       { staging .validating with
         staged := [{ stagedAt 3 6 0 (record 64 [0]) with sub := 2 }
           , { stagedAt 3 16 1 (record 64 ([1, 2, 4, 0] ++ List.replicate 9 0 ++ [1, 0, 4])) with sub := 2 }] }
     let s : State :=
       { rotating (atStep (.step 1) 1 false) with
         xu := { ship.xu with stage := some g } }
     let t := after .validationDone s
     s.phase = .operating ∧ validate (postEdition g.staged (tablesOf s)) g.staged g.staged = none ∧ SlotsHeld s ∧ TablesCanonical s
      ∧ (tblGet t.sms.stations 130 = none ∧ lineRec t.lcs 130 = emptyLineRec)
      ∧ (tblGet t.sms.stations 131).map StationRec.kind = some .cabin ∧ lineRec t.lcs 131 = heardRec (some freshDoor)
      ∧ ((tblGet t.pco.rots 140).map fun q => (q.rotation, q.position, q.countdown, q.loops))
          = some (4, .step 0, some 625000000, [0, 0, 2, 0, 0, 0, 0, 0])
      ∧ ((tblGet t.pco.rots 150).map fun q => (q.rotation, q.position)) = some (0, .interj 2)) := by
  unfold SlotsHeld TablesCanonical; decide +kernel

/-- The ship with screen 140 on interjection 2, and one record of an edition to commit. -/
def amending (r : Staged) : State :=
  { rotating (atStep (.interj 2) 3 false) with
    xu := { ship.xu with stage := some { staging .validating with staged := [r] } }
    pco := { (rotating (atStep (.interj 2) 3 false)).pco with active := [2] } }

/-- What screen 140 shows after the commit: position, countdown and resume step. -/
def amended (s : State) : Option (Position × Option Nat × Option (Nat × Nat)) :=
  (tblGet (after .validationDone s).pco.rots 140).map fun q => (q.position, q.countdown, q.resume)

/-- R119: a commit empties interjection 2 while screen 140 shows it, which returns to step 3 with its time, in STANDBY and in a
muster; and one that changes its dwell has it shown afresh, the resume step kept. -/
theorem witness_CommitTells_showing :
    (amending (stagedAt 9 2 0 (record 20 [0]))).msc.state = .standby
    ∧ amended (amending (stagedAt 9 2 0 (record 20 [0]))) = some (.step 3, some 5, none)
    ∧ amended (withMsc (mscIn .called .drill) (amending (stagedAt 9 2 0 (record 20 [0])))) = some (.step 3, some 5, none)
    ∧ amended (amending (stagedAt 9 2 0 (record 20 [1, 11, 0, 0, 0, 0, 0, 0, 0, 0, 0, 0, 9, 0, 0, 0, 0, 0, 9])))
        = some (.interj 2, some 225000000, some (3, 5))
    ∧ SlotsHeld (amending (stagedAt 9 2 0 (record 20 [0]))) ∧ TablesCanonical (amending (stagedAt 9 2 0 (record 20 [0]))) := by
  refine ⟨?_, ?_, ?_, ?_, ?_, ?_⟩ <;> (try unfold SlotsHeld) <;> (try unfold TablesCanonical) <;> decide +kernel

/-- R2: clamped at both ends; R12: a cabin keeps no screen field; R15: Settings of zeros, and with one byte set. -/
theorem witness_HeldForms :
    ((parseEdge (record 16 [1])).length = 1 ∧ (parseEdge (record 16 [1, 0, 0, 0, 0, 0, 0, 0, 0xA1, 0x0F])).length = 4000)
    ∧ (parseStation (record 64 ([1, 1] ++ List.replicate 12 0 ++ [5, 6, 7, 0, 8]))).rotation = 0
    ∧ (parseStation (record 64 ([1, 2] ++ List.replicate 12 0 ++ [5, 6, 7, 0, 8]))).rotation = 6
    ∧ (parseClock (record 8 [1, 0, 0x30, 0xFD])).newOffset = -720 ∧ (parseClock (record 8 [1, 0, 0x2F, 0xFD])).newOffset = -720
    ∧ (zeroBytes (record 32 []) 0 32 = true ∧ (parseSettings (record 32 [])).walkRate = 720)
    ∧ zeroBytes (record 32 [1]) 0 32 = false ∧ (parseSettings (record 32 [1])).walkRate = 300 := by decide +kernel

theorem witness_MusterCoherentKept : MusterCoherent shipCalled ∧ step shipCalled = .next (tick shipCalled) :=
  ⟨by unfold MusterCoherent; decide +kernel, rfl⟩

theorem witness_AlarmAnsweredKept : AlarmAnswered shipCalled ∧ step shipCalled = .next (tick shipCalled) :=
  ⟨by unfold AlarmAnswered; decide +kernel, rfl⟩

/-- An edition in hand, above the settled one. -/
theorem witness_EditionsOrderedKept :
    (stagingIn (staging .header)).xu.applied ≤ (stagingIn (staging .header)).xu.settled
      ∧ (stagingIn (staging .header)).xu.settled < (staging .header).number
      ∧ (stagingIn (staging .header)).pending.head?.map isReset ≠ some true := by decide

/-- A cabin at pending 63. -/
theorem witness_PendingBoundedKept :
    (lineRec (with131 (heardRec (some { freshDoor with serviceTally := 63 })) ship).lcs 131).door.map pendingService
      = some 63 := by decide +kernel

theorem witness_SolverSelectsKept : SolverSelects shipCalled ∧ SlotsHeld shipCalled
    ∧ step shipCalled = .next (tick shipCalled) :=
  ⟨by unfold SolverSelects; decide +kernel, by unfold SlotsHeld; decide +kernel, rfl⟩

theorem witness_RegistersInRangeKept : RegistersInRange ship ∧ step ship = .next (tick ship) :=
  ⟨by unfold RegistersInRange; decide +kernel, rfl⟩

theorem witness_TablesCanonicalKept : TablesCanonical ship ∧ step ship = .next (tick ship) :=
  ⟨by unfold TablesCanonical; decide +kernel, rfl⟩

/-- One node on the highest deck, one edge of full length. -/
def ranged : State :=
  { State.reset with
    sms := { resetSms with nodes := [(41, { deck := 20 })], edges := [(7, edge .stair .aUp 41 1023 4000 63)] } }

theorem witness_RecordsInRangeKept : RecordsInRange ranged ∧ TablesCanonical ranged ∧ step ranged = .next (tick ranged) := by
  refine ⟨⟨?_, ?_, nofun, nofun, nofun, ?_, nofun, nofun, nofun, nofun, nofun⟩, by unfold TablesCanonical; decide, rfl⟩
  · intro i n h
    have k : ∀ p ∈ ranged.sms.nodes, 1 ≤ p.2.deck ∧ p.2.deck ≤ 20 := by decide
    exact k _ (get_mem h)
  · intro i e h
    have k : ∀ p ∈ ranged.sms.edges, EdgeInRange p.2 := by unfold EdgeInRange; decide
    exact k _ (get_mem h)
  · refine ⟨⟨fun k => ?_, by decide⟩, ⟨fun k => ?_, by decide⟩, by decide⟩ <;> cases k <;> decide

theorem witness_TablesOnlyByCommit : isReset .minuteEvent = false ∧ Instr.minuteEvent ≠ .validationDone
    ∧ exec .minuteEvent evening = .next (after .minuteEvent evening) := ⟨rfl, by decide, rfl⟩

theorem witness_ConfirmedOnlyByState : isReset (.stateAnswer 2 0 8 0 0) = false
    ∧ exec (.stateAnswer 2 0 8 0 0) polled = .next (after (.stateAnswer 2 0 8 0 0) polled) := ⟨rfl, rfl⟩

end Sys2Proof.Tests
end

