-- ==== Sys2Proof/Proofs/Routes.lean ====
section
/-! PROOFS. The cost of a walkable traversal (R5, R18 to R20), and the arrow of a station with its minutes (R40 to R42). -/

namespace Sys2Proof.Machine

/-! ## Traversal kinds, weights and costs (R5, R18, R20) -/

section Traversals

variable {m : SmsState} {r : Regime} {e : EdgeRec} {u v : Nat}

theorem traversalKind_corridor (h : e.kind = .corridor) : traversalKind e u = .corridor := by
  simp [traversalKind, h]

theorem traversalKind_lift (h : e.kind = .lift) : traversalKind e u = .lift := by
  simp [traversalKind, h]

theorem traversalKind_exterior (h : e.kind = .exterior) : traversalKind e u = .exterior := by
  simp [traversalKind, h]

/-- A STAIR is walked up when it rises from the end it is walked from. -/
theorem traversalKind_stair (h : e.kind = .stair) :
    traversalKind e u = if (e.rise = .aUp ↔ u = e.nodeA) then .stairUp else .stairDown := by
  simp [traversalKind, h]

/-- Weight 0 bars a traversal (R19), so a walkable one has a weight of at least 1. -/
theorem kindWeight_pos_of_walkable (h : traversalBarred m r e u v = false) :
    0 < kindWeight (regimeWeights m.settings r) (traversalKind e u) := by
  simp only [traversalBarred, Bool.or_eq_false_iff, decide_eq_false_iff_not] at h
  obtain ⟨⟨⟨-, hweight⟩, -⟩, -⟩ := h
  exact Nat.pos_of_ne_zero hweight

theorem traversalCost_eq : traversalCost m r e u =
    (e.length * kindWeight (regimeWeights m.settings r) (traversalKind e u) + 3) / 4
      + (if e.kind = .lift then (regimeWeights m.settings r).liftFixed else 0) := rfl

/-- Length and weight of at least 1 round up to a cost of at least 1. -/
theorem traversalCost_pos (hwalk : traversalBarred m r e u v = false) (hlen : 1 ≤ e.length) :
    1 ≤ traversalCost m r e u := by
  have hprod : 0 < e.length * kindWeight (regimeWeights m.settings r) (traversalKind e u) :=
    Nat.mul_pos hlen (kindWeight_pos_of_walkable hwalk)
  rw [traversalCost_eq]
  omega

/-- The greatest cost is 4000 × 15 / 4 + 2000 (R20). -/
theorem traversalCost_le (hlen : e.length ≤ 4000)
    (hweight : kindWeight (regimeWeights m.settings r) (traversalKind e u) ≤ 15)
    (hlift : (regimeWeights m.settings r).liftFixed ≤ 2000) : traversalCost m r e u ≤ 17000 := by
  have hprod : e.length * kindWeight (regimeWeights m.settings r) (traversalKind e u) ≤ 4000 * 15 :=
    Nat.mul_le_mul hlen hweight
  rw [traversalCost_eq]
  split <;> omega

end Traversals

/-- Settles O25, from the equation of the cost, its two bounds and the kind of each traversal. -/
theorem traversalCosts : Obligations.TraversalCosts := by
  unfold Obligations.TraversalCosts
  intro m r e u v hwalk
  refine ⟨⟨_, traversalCost_eq, by omega, by omega⟩, ?_, traversalKind_corridor, traversalKind_exterior,
    traversalKind_lift, ?_⟩
  · intro hlow hhigh hweight hlift
    exact ⟨traversalCost_pos hwalk hlow, traversalCost_le hhigh (hweight _) hlift⟩
  · intro hstair hends
    rw [traversalKind_stair hstair]
    constructor
    · intro hrise
      constructor
      · intro hu; simp [hrise, hu]
      · intro hu; simp [hrise, hu, hends.symm]
    · intro hrise
      constructor
      · intro hu; simp [hrise, hu]
      · intro hu; simp [hrise, hu, hends.symm]

/-! ## The bar of a next hop now (R41) -/

theorem hopBarredNow_of_empty {m : SmsState} {e : Nat} (r : Regime) (n : Nat) (h : tblGet m.edges e = none) :
    hopBarredNow m r e n = true := by
  simp [hopBarredNow, h]

theorem hopBarredNow_of_held {m : SmsState} {e : Nat} {g : EdgeRec} (r : Regime) (n : Nat)
    (h : tblGet m.edges e = some g) :
    hopBarredNow m r e n =
      if n = g.nodeA then traversalBarred m r g n g.nodeB
      else if n = g.nodeB then traversalBarred m r g n g.nodeA else true := by
  simp [hopBarredNow, h]

/-! ## The exit a station lists for an edge (R11) -/

theorem exitFor_eq_none {exits : List (Nat × Arrow)} {e : Nat} (h : ∀ a, (e, a) ∉ exits) : exitFor exits e = none := by
  simp only [exitFor, Option.map_eq_none_iff, List.find?_eq_none, beq_iff_eq]
  rintro ⟨_, a⟩ hmem rfl
  exact h a hmem

/-- The first exit listed for an edge is the one code the station lists for it. -/
theorem exitFor_eq_some {exits : List (Nat × Arrow)} {e : Nat} {a : Arrow} (hmem : (e, a) ∈ exits)
    (huniq : ∀ b, (e, b) ∈ exits → b = a) : exitFor exits e = some a := by
  unfold exitFor
  cases hfind : exits.find? fun x => x.1 == e with
  | none => exact absurd (List.find?_eq_none.mp hfind (e, a) hmem) (by simp)
  | some x =>
    obtain ⟨f, b⟩ := x
    obtain rfl : f = e := by simpa using List.find?_some hfind
    simp [huniq b (List.mem_of_find?_eq_some hfind)]

/-! ## Slots and minutes (R25, R26) -/

/-- A slot that holds a pair is READY unless it is QUEUED or SOLVING. -/
theorem slotOf_stale_iff {slots : List Slot} {p : Pair} {sl : Slot} (h : slotOf slots p = some sl) :
    sl.state ≠ .ready ↔ sl.state = .queued ∨ sl.state = .solving := by
  have hheld : sl.state ≠ .empty := by
    have hfound := List.find?_some h
    simp only [Bool.and_eq_true, decide_eq_true_eq] at hfound
    exact hfound.1
  cases hstate : sl.state <;> simp_all

theorem walkingMinutes_of_ne_zero {rate d : Nat} (h : d ≠ 0) :
    walkingMinutes rate d = if 65534 ≤ d then 99 else min 99 ((d + rate - 1) / rate) := if_neg h

/-! ## The arrow, one lemma per case of R40 -/

section Arrows

variable {m : SmsState} {slots : List Slot} {st : StationRec} {p : Pair} {sl : Slot} {v : RouteVec} {d e : Nat}

/-- Case 1. -/
theorem arrowFor_pending (h : ∀ sl, slotOf slots p = some sl → sl.vector = none) :
    arrowFor m slots st p = plainArrow .pending := by
  unfold arrowFor
  cases hslot : slotOf slots p with
  | none => rfl
  | some sl => simp only [h sl hslot]

/-- Case 2, an UNREACHABLE node. -/
theorem arrowFor_unreachable (hslot : slotOf slots p = some sl) (hvec : sl.vector = some v)
    (hdist : (hopOf v st.node).dist = Config.unreachable) : arrowFor m slots st p = plainArrow .noRoute := by
  simp [arrowFor, hslot, hvec, hdist]

/-- Case 3. -/
theorem arrowFor_here (hslot : slotOf slots p = some sl) (hvec : sl.vector = some v)
    (hdist : (hopOf v st.node).dist = 0) :
    arrowFor m slots st p = { arrow := .here, minutes := some 0, unlisted := false } := by
  simp [arrowFor, hslot, hvec, hdist]

/-- Case 2, a node away from the target without a next hop. -/
theorem arrowFor_noHop (hslot : slotOf slots p = some sl) (hvec : sl.vector = some v)
    (hnext : (hopOf v st.node).next = none) (hdist : 0 < (hopOf v st.node).dist) :
    arrowFor m slots st p = plainArrow .noRoute := by
  simp [arrowFor, hslot, hvec, hnext, hdist.ne']

/-- Case 4. -/
theorem arrowFor_withheld (hslot : slotOf slots p = some sl) (hvec : sl.vector = some v)
    (hhop : hopOf v st.node = { dist := d, next := some e }) (hzero : d ≠ 0) (hreach : d ≠ Config.unreachable)
    (hstale : sl.state ≠ .ready ∧ hopBarredNow m p.regime e st.node = true) :
    arrowFor m slots st p = plainArrow .withheld := by
  simp [arrowFor, hslot, hvec, hhop, hzero, hreach, hstale]

/-- Case 5. -/
theorem arrowFor_exit {a : Arrow} (hslot : slotOf slots p = some sl) (hvec : sl.vector = some v)
    (hhop : hopOf v st.node = { dist := d, next := some e }) (hzero : d ≠ 0) (hreach : d ≠ Config.unreachable)
    (hopen : ¬(sl.state ≠ .ready ∧ hopBarredNow m p.regime e st.node = true)) (hexit : exitFor st.exits e = some a) :
    arrowFor m slots st p =
      { arrow := a, minutes := some (walkingMinutes m.settings.walkRate d), unlisted := false } := by
  simp only [arrowFor, hslot, hvec, hhop, if_neg hzero, if_neg hreach, if_neg hopen, hexit]

/-- Case 6. -/
theorem arrowFor_unlisted (hslot : slotOf slots p = some sl) (hvec : sl.vector = some v)
    (hhop : hopOf v st.node = { dist := d, next := some e }) (hzero : d ≠ 0) (hreach : d ≠ Config.unreachable)
    (hopen : ¬(sl.state ≠ .ready ∧ hopBarredNow m p.regime e st.node = true)) (hexit : exitFor st.exits e = none) :
    arrowFor m slots st p = { arrow := .none, minutes := none, unlisted := true } := by
  simp only [arrowFor, hslot, hvec, hhop, if_neg hzero, if_neg hreach, if_neg hopen, hexit]

end Arrows

/-- Settles O26, case by case; a slot that holds a pair is stale exactly when it is not READY. -/
theorem arrowSixCases : Obligations.ArrowSixCases := by
  unfold Obligations.ArrowSixCases
  intro m slots st p
  refine ⟨arrowFor_pending, ?_, ?_⟩
  · intro sl v hslot hvec
    rw [← slotOf_stale_iff hslot]
    refine ⟨?_, arrowFor_here hslot hvec, ?_⟩
    · rintro (hunreach | ⟨hnext, hdist⟩)
      · exact arrowFor_unreachable hslot hvec hunreach
      · exact arrowFor_noHop hslot hvec hnext hdist
    · intro d e hhop hzero hreach
      refine ⟨fun hstale hbarred => arrowFor_withheld hslot hvec hhop hzero hreach ⟨hstale, hbarred⟩, ?_⟩
      intro hopen
      constructor
      · intro a hmem huniq
        rw [arrowFor_exit hslot hvec hhop hzero hreach hopen (exitFor_eq_some hmem huniq),
          walkingMinutes_of_ne_zero hzero]
      · intro hnone
        exact arrowFor_unlisted hslot hvec hhop hzero hreach hopen (exitFor_eq_none hnone)
  · intro r e n
    refine ⟨hopBarredNow_of_empty r n, ?_⟩
    intro g hedge hends
    rw [hopBarredNow_of_held r n hedge]
    refine ⟨fun hn => if_pos hn, ?_, ?_⟩
    · rintro rfl
      rw [if_neg hends.symm, if_pos rfl]
    · intro hA hB
      rw [if_neg hA, if_neg hB]

end Sys2Proof.Machine
end

/-! PROOFS. A write of SURVEY (R178): what a survey asked for becomes at once (R181), and what the report writes that begin at
the end of the command make of it (R183, log 17). -/

namespace Sys2Proof.Machine

/-! ## Surveys asked for (R178, R181) -/

section Surveys

variable {x : XuState}

/-- A valid base spans at least 1 MiB, and the publish word lies in the first (R177). -/
theorem inSpan_publish_of_baseValid (h : baseValid x = true) : inSpan x.span publishOffset 8 = true := by
  simp only [baseValid, Bool.and_eq_true, decide_eq_true_eq] at h
  exact decide_eq_true (by unfold publishOffset; omega)

theorem beginSurvey_of_none (h : x.survey = none) :
    beginSurvey x =
      { x with survey := some (.publish (inSpan x.span publishOffset 8) busPeriods), surveyBase := x.base } := by
  simp only [beginSurvey, h]

theorem beginSurvey_of_ne_none (h : x.survey ≠ none) : beginSurvey x = { x with surveyPending := true } := by
  cases hsurvey : x.survey with
  | none => exact absurd hsurvey h
  | some v => simp only [beginSurvey, hsurvey]

@[simp] theorem beginSurvey_runState (x : XuState) : (beginSurvey x).runState = x.runState := by
  unfold beginSurvey; split <;> rfl

@[simp] theorem beginSurvey_span (x : XuState) : (beginSurvey x).span = x.span := congrArg XuHeld.span (beginSurvey_held x)

@[simp] theorem endSurvey_countdown (x : XuState) : (endSurvey x).countdown = x.countdown := by
  obtain h | ⟨-, -, -, h⟩ := endSurvey_cases x <;> rw [h]

/-- At the end of a survey the pending one begins, with a read that can be issued (R181). -/
theorem endSurvey_survey_of_pending (hpending : x.surveyPending = true) (hrun : x.runState = .running)
    (hbase : baseValid x = true) : (endSurvey x).survey = some (.publish true busPeriods) := by
  rw [← inSpan_publish_of_baseValid hbase]
  simp [endSurvey, beginSurvey, hpending, hrun, hbase]

@[simp] theorem reloadSurvey_runState (x : XuState) : (reloadSurvey x).runState = x.runState := beginSurvey_runState x

@[simp] theorem reloadSurvey_baseValid (x : XuState) : baseValid (reloadSurvey x) = baseValid x := by
  simp [baseValid, reloadSurvey]

theorem reloadSurvey_survey_of_none (hbase : baseValid x = true) (h : x.survey = none) :
    (reloadSurvey x).survey = some (.publish true busPeriods) := by
  simp [reloadSurvey, beginSurvey_of_none h, inSpan_publish_of_baseValid hbase]

theorem reloadSurvey_survey_of_ne_none (h : x.survey ≠ none) :
    (reloadSurvey x).survey = x.survey ∧ (reloadSurvey x).surveyPending = true := by
  simp [reloadSurvey, beginSurvey_of_ne_none h]

end Surveys

/-! ## What the report writes begun at the end of a command leave of the survey (R183, log 17) -/

section Reports

variable {f : ReportFields} {x : XuState}

@[simp] theorem startReports_countdown (f : ReportFields) (x : XuState) :
    (startReports f x).countdown = x.countdown := by
  obtain h | ⟨-, ⟨-, ⟨r, rest, -, h⟩ | ⟨-, h⟩ | ⟨-, -, -, h⟩⟩ | ⟨-, h | ⟨-, h⟩⟩⟩ := startReports_cases f x <;> rw [h]
  case inr.inl.inl | inr.inl.inr.inl => rfl
  case inr.inl.inr.inr | inr.inr.inr => rw [endSurvey_countdown]

/-- Only a survey at its report step is touched. -/
theorem startReports_survey_of_ne_report (hne : x.survey ≠ some .report) :
    (startReports f x).survey = x.survey ∧ (startReports f x).surveyPending = x.surveyPending := by
  obtain h | ⟨-, ⟨-, ⟨r, rest, -, h⟩ | ⟨hreport, -⟩ | ⟨hreport, -⟩⟩ | ⟨-, h | ⟨hreport, -⟩⟩⟩ := startReports_cases f x
  case inr.inl.inr.inl | inr.inl.inr.inr | inr.inr.inr => exact absurd hreport hne
  all_goals rw [h]; exact ⟨rfl, rfl⟩

/-- With a valid base the survey stays, or its report step needs no write and it ends. -/
theorem startReports_survey_of_baseValid (hbase : baseValid x = true) :
    ((startReports f x).survey = x.survey ∧ (startReports f x).surveyPending = x.surveyPending)
      ∨ x.survey = some .report ∧ (startReports f x).survey = (endSurvey x).survey := by
  obtain h | ⟨-, ⟨-, ⟨r, rest, -, h⟩ | ⟨-, h⟩ | ⟨hreport, -, -, h⟩⟩ | ⟨hinvalid, -⟩⟩ := startReports_cases f x
  case inr.inl.inr.inr => exact .inr ⟨hreport, by rw [h]⟩
  case inr.inr => simp [hbase] at hinvalid
  all_goals rw [h]; exact .inl ⟨rfl, rfl⟩

/-- A survey asked for while RUNNING with a valid base is one that has begun, is pending, or began as the last one ended. -/
theorem startReports_reloadSurvey_asked (hrun : x.runState = .running) (hbase : baseValid x = true) :
    Safety.SurveyAsked x (startReports f (reloadSurvey x)) := by
  constructor
  · intro hnone
    have hbegun := reloadSurvey_survey_of_none hbase hnone
    rw [(startReports_survey_of_ne_report (by simp [hbegun])).1, hbegun]
    rfl
  · intro hsome
    obtain ⟨hkept, hpending⟩ := reloadSurvey_survey_of_ne_none hsome
    obtain ⟨hsurvey, hmark⟩ | ⟨hreport, hended⟩ :=
      startReports_survey_of_baseValid (f := f) ((reloadSurvey_baseValid x).trans hbase)
    · exact .inl ⟨hsurvey.trans hkept, hmark.trans hpending⟩
    · refine .inr ⟨hkept.symm.trans hreport, ?_⟩
      rw [hended, endSurvey_survey_of_pending hpending (by simpa using hrun) (by simpa using hbase)]
      rfl

end Reports

/-! ## The register SURVEY (R178) -/

theorem writtenInterval_eq (v : Word32) : writtenInterval v = clampNat 10 1000 (v.toNat % 1024) := by
  simp [writtenInterval]

theorem readReg_survey {s : State} (h : s.phase = .operating) : readReg s 0x10 4 = BitVec.ofNat 32 s.xu.interval := by
  simp [readReg, h]

/-- While RUNNING with a valid base the write also asks for a survey. -/
theorem surveyXu_of_running (v : Word32) {x : XuState} (h : x.runState = .running ∧ baseValid x = true) :
    surveyXu v x = reloadSurvey { x with interval := writtenInterval v } := if_pos h

theorem surveyXu_of_not_running (v : Word32) {x : XuState} (h : ¬(x.runState = .running ∧ baseValid x = true)) :
    surveyXu v x = { x with interval := writtenInterval v } := if_neg h

@[simp] theorem surveyXu_interval (v : Word32) (x : XuState) : (surveyXu v x).interval = writtenInterval v := by
  by_cases h : x.runState = .running ∧ baseValid x = true
  · rw [surveyXu_of_running v h]
    exact congrArg XuHeld.interval (reloadSurvey_held _)
  · rw [surveyXu_of_not_running v h]

theorem flush_interval (s : State) : (flush s).xu.interval = s.xu.interval := congrArg XuHeld.interval (flush_held s)

theorem exec_surveyWrite (v : Word32) {s : State} (h : s.phase = .operating) :
    exec (.surveyWrite v) s = .next (flush { s with xu := surveyXu v s.xu }) := answer_takes _ h rfl

/-- Settles O10: the interval is the written one in every state, and the survey and the countdown follow the two cases of
the write. -/
theorem surveyWrite : Obligations.SurveyWrite := by
  unfold Obligations.SurveyWrite
  intro v s hphase
  have hinterval : (flush { s with xu := surveyXu v s.xu }).xu.interval = writtenInterval v := by
    rw [flush_interval, surveyXu_interval]
  refine ⟨_, exec_surveyWrite v hphase, hinterval.trans (writtenInterval_eq v), readReg_survey hphase, ?_, ?_, rfl⟩
  · intro hrunning
    rw [hinterval]
    simp only [flush, surveyXu_of_running v hrunning, startReports_countdown]
    obtain ⟨hrun, hbase⟩ := hrunning
    exact ⟨startReports_reloadSurvey_asked (x := { s.xu with interval := writtenInterval v }) hrun hbase, rfl⟩
  · intro hnot
    simp only [flush, surveyXu_of_not_running v hnot, startReports_countdown, true_and]
    intro hnone
    exact (startReports_survey_of_ne_report (by simp [hnone])).1.trans hnone

end Sys2Proof.Machine

/-! PROOFS. A step of the part (R37, log 1), and the fields of the Exchange Unit that the editions and the registers hold:
what each command does to them. -/

namespace Sys2Proof.Machine

open Sys2Proof.Safety

/-! ## Steps -/

/-- A step is one reference period, or the front command on the state with the queue's rest. -/
theorem step_cases {s t : State} (h : step s = .next t) :
    s.pending = [] ∧ t = tick s ∨ ∃ c rest, s.pending = c :: rest ∧ exec c { s with pending := rest } = .next t := by
  unfold step at h
  split at h
  case h_1 hq => exact .inl ⟨hq, (Host.Outcome.next.inj h).symm⟩
  case h_2 c rest hq => exact .inr ⟨c, rest, hq, h⟩

/-- A promise that the queue and the number of the period do not touch, and that every timer, every command and the report
writes begun at a command's end keep. -/
structure Kept (Inv : State → Prop) : Prop where
  model : ∀ s k q, Inv s → Inv { s with periods := k, pending := q }
  timers : ∀ s, Inv s → Inv (tickTimers s)
  flush : ∀ s, Inv s → Inv (flush s)
  effect : ∀ c s u, Effect c s u → Inv s → Inv u

/-- Such a promise is kept by every command. -/
theorem Kept.exec {Inv : State → Prop} (k : Kept Inv) {c : Instr} {s t : State} (hs : Inv s) (h : exec c s = .next t) :
    Inv t := by
  obtain rfl | ⟨-, heff⟩ | ⟨-, u, heff, rfl⟩ := exec_effect h
  · exact hs
  · exact k.effect c s t heff hs
  · exact k.flush u (k.effect c s u heff hs)

/-- Such a promise is kept by every step. -/
theorem Kept.step {Inv : State → Prop} (k : Kept Inv) {s t : State} (hs : Inv s) (h : step s = .next t) : Inv t := by
  obtain ⟨-, rfl⟩ | ⟨c, rest, -, hexec⟩ := step_cases h
  · exact k.model (tickTimers s) _ _ (k.timers s hs)
  · exact k.exec (k.model s s.periods rest hs) hexec

/-! ## The held fields of the Exchange Unit at a commit (R169) -/

theorem commitRoutes_held (b s : State) : xuHeld (commitRoutes b s).xu = xuHeld s.xu := by
  unfold commitRoutes; dsimp only; split <;> split <;> simp

theorem commitNotices_held (b : State) (l : List Nat) (s : State) : xuHeld (commitNotices b l s).xu = xuHeld s.xu := by
  unfold commitNotices; dsimp only; split <;> simp

@[simp] theorem shedTests_held (s : State) : xuHeld (shedTests s).xu = xuHeld s.xu := rfl

theorem commitTests_held (b s : State) : xuHeld (commitTests b s).xu = xuHeld s.xu := by
  unfold commitTests; dsimp only; split <;> simp

theorem installEdition_xu (g : Staging) (s : State) : (installEdition g s).1.xu = commitXu g.number s.xu := rfl

theorem commitEdition_held (g : Staging) (s : State) :
    xuHeld (commitEdition g s).xu = xuHeld (commitXu g.number s.xu) := by
  simp only [commitEdition, commitTests_held, commitNotices_held, commitRoutes_held, installEdition_xu]

theorem rejectEdition_held (number : Word32) (f : Failure) (s : State) :
    xuHeld (rejectEdition number f s).xu =
      { xuHeld s.xu with
        settled := number, stage := none
        settle := { outcome := .rejected, reason := f.reason, entry := f.entry, record := f.record } } := by
  simp only [rejectEdition, reportCause_held, rejectXu, recordFault_held]
  rfl

/-- Does a command change a field that editions and registers hold? -/
def changesHeld : Instr → Bool
  | .powerOnReset => true
  | .functionReset _ => true
  | .causeEnablesWrite _ => true
  | .xbaseHiWrite _ => true
  | .xbaseLoWrite _ => true
  | .surveyWrite _ => true
  | .publishWordRead _ => true
  | .busReadFailed .staging => true
  | .noticeHeaderRead _ => true
  | .directoryRead _ => true
  | .noticeEntriesRead _ => true
  | .recordRead _ => true
  | .publishWordReread _ => true
  | .validationDone => true
  | _ => false

theorem discards_held {n : Nat} {s u : State} (h : Discards n s u) : xuHeld u.xu = xuHeld s.xu := by
  obtain ⟨t, idle, -, rfl⟩ := h
  simp

/-- Every other command leaves them as they were. -/
theorem effect_held {c : Instr} {s u : State} (h : Effect c s u) (hc : changesHeld c = false) :
    xuHeld u.xu = xuHeld s.xu := by
  cases c <;> simp only [Effect] at h
  case powerOnReset | functionReset | causeEnablesWrite | xbaseHiWrite | xbaseLoWrite | surveyWrite | publishWordRead
      | noticeHeaderRead | directoryRead | noticeEntriesRead | recordRead | publishWordReread | validationDone =>
    cases hc
  case functionResetEnd | powerOnResetEnd => rw [h.2]
  case runRequest | haltRequest | callReal | callDrill | standDown | surveyCountdownExpiry | liveWordsRead | ackArrayRead
      | minuteEvent => rw [h]; simp
  case causeClear | badOrder | voyageSecond | refreshCountdownExpiry => subst h; rfl
  case alarmQualifiedTransition =>
    obtain ⟨-, -, ⟨-, rfl⟩ | ⟨-, -, rfl⟩ | ⟨-, -, rfl⟩⟩ := h <;> simp
  case alarmInitialLevel | reserveQualifiedRise | reserveQualifiedFall | calledTimerExpiry | standDownHoldExpiry =>
    rw [h.2.2]; simp
  case reserveInitialLevel =>
    obtain ⟨-, -, ⟨-, rfl⟩ | ⟨-, rfl⟩⟩ := h <;> simp
  case stepCountdownExpiry => obtain ⟨r, n, -, rfl⟩ := h; simp
  case interjectionCountdownExpiry => obtain ⟨r, -, rfl⟩ := h; simp
  case solveComplete => obtain ⟨p, -, rfl⟩ := h; simp
  case turn => rw [h.2.2]; rfl
  case silentCycleExpiry => rw [h.2]
  case haltComplete => rw [h.2]; simp
  case stateAnswer =>
    obtain ⟨t, -, -, rfl⟩ | h := h
    · simp
    · exact discards_held h
  case takenToPageHead =>
    obtain ⟨t, p, -, -, rfl⟩ | h | rfl := h
    · simp
    · exact discards_held h
    · rfl
  case takenToPageBlock =>
    obtain ⟨t, p, k, -, -, rfl⟩ | h | rfl := h
    · simp
    · exact discards_held h
    · rfl
  case heldOff =>
    obtain ⟨t, -, -, rfl⟩ | h := h
    · simp
    · exact discards_held h
  case answerDiscarded => exact discards_held h
  case replyWindowTimeout => obtain ⟨t, -, -, rfl⟩ := h; simp
  case statusRecordWritten | statusWriteFailed => obtain ⟨x, content, left, -, rfl⟩ := h; simp
  case reportWriteDone | reportWriteFailed => obtain ⟨w, -, rfl⟩ := h; simp
  case busReadFailed side =>
    cases side with
    | survey => obtain ⟨v, -, -, rfl⟩ := h; simp
    | staging => cases hc

/-! ## The edition numbers (R159, R160) -/

theorem editionsOrdered_iff {s : State} :
    EditionsOrdered s ↔
      (xuHeld s.xu).applied ≤ (xuHeld s.xu).settled
        ∧ ∀ g, (xuHeld s.xu).stage = some g → (xuHeld s.xu).settled < g.number := Iff.rfl

/-- What a command may do to the edition numbers: they stay in order, and the applied one does not fall. -/
def EditionsRise (s u : State) : Prop := EditionsOrdered s → EditionsOrdered u ∧ s.xu.applied ≤ u.xu.applied

theorem editionsRise_of_held {s u : State} (h : xuHeld u.xu = xuHeld s.xu) : EditionsRise s u := by
  intro hs
  refine ⟨?_, ?_⟩
  · rw [editionsOrdered_iff] at hs ⊢
    rwa [h]
  · exact BitVec.le_of_eq (congrArg XuHeld.applied h).symm

/-- The edition in hand settles, rejected: its number was above the settled one (R171). -/
theorem rejectEdition_rise {g : Staging} {s : State} (f : Failure) (h : s.xu.stage = some g) :
    EditionsRise s (rejectEdition g.number f s) := by
  intro hs
  have hheld := rejectEdition_held g.number f s
  refine ⟨?_, ?_⟩
  · rw [editionsOrdered_iff, hheld]
    exact ⟨BitVec.le_trans hs.1 (BitVec.le_of_lt (hs.2 g h)), by simp⟩
  · exact BitVec.le_of_eq (congrArg XuHeld.applied hheld).symm

/-- The edition in hand settles, applied (R169). -/
theorem commitEdition_rise {g : Staging} {s : State} (h : s.xu.stage = some g) : EditionsRise s (commitEdition g s) := by
  intro hs
  have hheld := commitEdition_held g s
  refine ⟨?_, ?_⟩
  · rw [editionsOrdered_iff, hheld]
    exact ⟨BitVec.le_refl _, by simp [commitXu, xuHeld]⟩
  · have happlied : (commitEdition g s).xu.applied = g.number := congrArg XuHeld.applied hheld
    rw [happlied]
    exact BitVec.le_trans hs.1 (BitVec.le_of_lt (hs.2 g h))

/-- The edition in hand goes on under its number, or is rejected. -/
theorem applyProgress_rise {g : Staging} {s : State} {p : Progress} (h : s.xu.stage = some g)
    (hp : ∀ k, p = .going k → k.number = g.number) : EditionsRise s (applyProgress g.number p s) := by
  cases p with
  | failed f => exact rejectEdition_rise f h
  | going k =>
    intro hs
    refine ⟨⟨hs.1, ?_⟩, BitVec.le_refl _⟩
    intro k' hk'
    cases hk'
    rw [hp k rfl]
    exact hs.2 g h

theorem takeEntries_number {g k : Staging} {l : List (Nat × Entry)} (h : takeEntries g l = .going k) :
    k.number = g.number := by
  induction l generalizing g with
  | nil => cases h; rfl
  | cons e rest ih =>
    obtain ⟨n, e⟩ := e
    simp only [takeEntries] at h
    split at h
    · cases h
    · split at h
      · split at h
        · exact ih h
        · cases h; rfl
      · exact (ih h).trans rfl
      · exact (ih h).trans rfl
      · cases h

theorem headerTaken_number {bs : List Byte} {g k : Staging} (h : headerTaken bs g = .going k) : k.number = g.number := by
  unfold headerTaken at h
  split at h <;> cases h
  rfl

theorem directoryTaken_number {bs : List Byte} {g k : Staging} (h : directoryTaken bs g = .going k) :
    k.number = g.number := by
  cases h; rfl

theorem rereadTaken_number {bs : List Byte} {g k : Staging} (h : rereadTaken bs g = .going k) : k.number = g.number := by
  unfold rereadTaken at h
  split at h <;> cases h
  rfl

theorem takeRecord_number {bs : List Byte} {g k : Staging} {entry leaf sub index last : Nat}
    (h : takeRecord g entry leaf sub index last bs = .going k) : k.number = g.number := by
  unfold takeRecord at h
  dsimp only at h
  split at h
  · cases h; rfl
  · exact (takeEntries_number h).trans rfl

/-- A staging begins above the settled edition (R160). -/
theorem publishTaken_rise (bs : List Byte) (s : State) : EditionsRise s { s with xu := publishTaken bs s.xu } := by
  intro hs
  rw [editionsOrdered_iff]
  simp only [publishTaken, readLive_held]
  unfold takePublish
  dsimp only
  split
  · exact ⟨hs, BitVec.le_refl _⟩
  · split
    · rename_i hnone hnumber
      refine ⟨⟨hs.1, ?_⟩, BitVec.le_refl _⟩
      intro g hg
      cases hg
      exact hnumber.1
    · exact ⟨hs, BitVec.le_refl _⟩

theorem stagingFailed_rise {g : Staging} {s : State} (h : s.xu.stage = some g) : EditionsRise s (stagingFailed g s) := by
  have hheld := recordFault_held .fetchFailed (fetchSubject g) s.clk.second 1 s.xu
  intro hs
  obtain ⟨hmid, hle⟩ := editionsRise_of_held (u := { s with xu := _ }) hheld hs
  have hstage := (congrArg XuHeld.stage hheld).trans h
  obtain ⟨hend, hle'⟩ := rejectEdition_rise (fetchFailure g) hstage hmid
  exact ⟨hend, BitVec.le_trans hle hle'⟩

theorem finishValidation_rise {g : Staging} {s : State} (h : s.xu.stage = some g) :
    EditionsRise s (finishValidation g s) := by
  unfold finishValidation
  split
  · exact rejectEdition_rise _ h
  · exact commitEdition_rise h

/-- A write of SURVEY sets the interval alone of these fields (R178). -/
theorem surveyXu_held (v : Word32) (x : XuState) :
    xuHeld (surveyXu v x) = { xuHeld x with interval := writtenInterval v } := by
  unfold surveyXu; dsimp only; split
  · rw [reloadSurvey_held]; rfl
  · rfl

/-- A write of XBASE_LO sets base and span alone of these fields (R177). -/
theorem xbaseXu_held (v value : Word32) (x : XuState) :
    xuHeld (xbaseXu v value x) =
      { xuHeld x with base := writtenBase x.pendingHi value, span := writtenSpan value } := by
  have hheld : xuHeld (xbaseXu v value x) =
      xuHeld { x with base := writtenBase x.pendingHi value, span := writtenSpan value } := by
    unfold xbaseXu
    dsimp only
    split <;> split <;> (try split) <;> simp
  exact hheld

end Sys2Proof.Machine

namespace Sys2Proof.Machine

open Sys2Proof.Safety

/-- What each command does to the edition numbers. -/
theorem effect_editions {c : Instr} {s u : State} (h : Effect c s u) :
    EditionsOrdered s → EditionsOrdered u ∧ (isReset c = false → s.xu.applied ≤ u.xu.applied) := by
  suffices hrise : isReset c = true ∧ EditionsOrdered u ∨ EditionsRise s u by
    intro hs
    obtain ⟨hreset, hu⟩ | hrise := hrise
    · exact ⟨hu, fun hnot => absurd hreset (by simp [hnot])⟩
    · exact ⟨(hrise hs).1, fun _ => (hrise hs).2⟩
  have hcleared (x : XuState) : EditionsOrdered { u with xu := clearedXu x } :=
    ⟨BitVec.le_refl _, by simp [clearedXu, resetXu]⟩
  cases hc : changesHeld c with
  | false => exact .inr (editionsRise_of_held (effect_held h hc))
  | true =>
    cases c
    case powerOnReset => subst h; exact .inl ⟨rfl, hcleared s.xu⟩
    case functionReset => subst h; exact .inl ⟨rfl, hcleared s.xu⟩
    case causeEnablesWrite | xbaseHiWrite => subst h; exact .inr fun hs => ⟨hs, BitVec.le_refl _⟩
    case xbaseLoWrite v =>
      subst h
      have hheld := xbaseXu_held s.clk.second v s.xu
      refine .inr fun hs => ⟨?_, BitVec.le_of_eq (congrArg XuHeld.applied hheld).symm⟩
      rwa [editionsOrdered_iff, hheld]
    case surveyWrite v =>
      subst h
      have hheld := surveyXu_held v s.xu
      refine .inr fun hs => ⟨?_, BitVec.le_of_eq (congrArg XuHeld.applied hheld).symm⟩
      rwa [editionsOrdered_iff, hheld]
    case publishWordRead bs => subst h; exact .inr (publishTaken_rise bs s)
    case busReadFailed side =>
      cases side with
      | survey => cases hc
      | staging => obtain ⟨g, hstage, -, rfl⟩ := h; exact .inr (stagingFailed_rise hstage)
    case noticeHeaderRead bs =>
      obtain ⟨g, hstage, -, rfl⟩ := h
      exact .inr (applyProgress_rise hstage fun k => headerTaken_number)
    case directoryRead bs =>
      obtain ⟨g, hstage, -, rfl⟩ := h
      exact .inr (applyProgress_rise hstage fun k => directoryTaken_number)
    case noticeEntriesRead bs =>
      obtain ⟨g, hstage, -, rfl⟩ := h
      exact .inr (applyProgress_rise hstage fun k => takeEntries_number)
    case recordRead bs =>
      obtain ⟨g, entry, leaf, sub, index, last, hstage, -, rfl⟩ := h
      exact .inr (applyProgress_rise hstage fun k => takeRecord_number)
    case publishWordReread bs =>
      obtain ⟨g, hstage, -, rfl⟩ := h
      exact .inr (applyProgress_rise hstage fun k => rereadTaken_number)
    case validationDone => obtain ⟨g, hstage, -, rfl⟩ := h; exact .inr (finishValidation_rise hstage)
    all_goals cases hc

theorem flush_editions {s : State} (hs : EditionsOrdered s) : EditionsOrdered (flush s) :=
  (editionsRise_of_held (flush_held s) hs).1

/-- The time left of a staging's read is no part of its number. -/
theorem tickTimers_editions {s : State} (hs : EditionsOrdered s) : EditionsOrdered (tickTimers s) := by
  unfold tickTimers
  split
  · exact hs
  · exact hs
  · refine ⟨hs.1, ?_⟩
    intro g hg
    obtain ⟨g', hg', rfl⟩ := Option.map_eq_some_iff.mp hg
    exact hs.2 g' hg'

theorem tickTimers_applied (s : State) : (tickTimers s).xu.applied = s.xu.applied := by
  unfold tickTimers; split <;> rfl

/-- Settles O53, from what each command does to the edition numbers. -/
theorem editionsOrderedKept : Obligations.EditionsOrderedKept := by
  unfold Obligations.EditionsOrderedKept
  intro s t hs h
  obtain ⟨-, rfl⟩ | ⟨c, rest, hq, hexec⟩ := step_cases h
  · exact ⟨tickTimers_editions hs, fun _ => BitVec.le_of_eq (tickTimers_applied s).symm⟩
  · have hreset (hnot : s.pending.head?.map isReset ≠ some true) : isReset c = false := by
      simpa [hq] using hnot
    obtain rfl | ⟨-, heff⟩ | ⟨-, u, heff, rfl⟩ := exec_effect hexec
    · exact ⟨hs, fun _ => BitVec.le_refl _⟩
    · obtain ⟨ht, hle⟩ := effect_editions heff hs
      exact ⟨ht, fun hnot => hle (hreset hnot)⟩
    · obtain ⟨hu, hle⟩ := effect_editions heff hs
      refine ⟨flush_editions hu, fun hnot => ?_⟩
      exact BitVec.le_trans (hle (hreset hnot)) (BitVec.le_of_eq (congrArg XuHeld.applied (flush_held u)).symm)

/-! ## Tables (R1, R169) -/

/-- The tables of the Page Composer that an edition may change. -/
def pcoTables (p : PcoState) : Tbl RotationRec × Tbl NoticeRec × Tbl InterjRec := (p.rotations, p.notices, p.interjections)

@[simp] theorem composeMarked_tables (m : List Nat) (s : State) : pcoTables (composeMarked m s).pco = pcoTables s.pco := rfl

theorem composeEach_tables {α : Type} (l : List α) (f : State → α → List Nat) (s : State) :
    pcoTables (l.foldl (fun t x => composeMarked (f t x) t) s).pco = pcoTables s.pco := by
  induction l generalizing s with
  | nil => rfl
  | cons x rest ih => exact (ih _).trans rfl

@[simp] theorem pairNotices_tables (p : List Pair) (s : State) : pcoTables (pairNotices p s).pco = pcoTables s.pco := rfl
@[simp] theorem timeNotice_tables (g : PguState) (s : State) : pcoTables (timeNotice g s).pco = pcoTables s.pco := by
  unfold timeNotice; split <;> rfl
@[simp] theorem listNotices_tables (g : PguState) (l : List Nat) (s : State) :
    pcoTables (listNotices g l s).pco = pcoTables s.pco := composeEach_tables _ _ s
@[simp] theorem mapNotices_tables (c : MscState) (s : State) : pcoTables (mapNotices c s).pco = pcoTables s.pco :=
  composeEach_tables _ (fun _ x => [x]) s
@[simp] theorem markMoved_tables (r : Tbl RotState) (s : State) : pcoTables (markMoved r s).pco = pcoTables s.pco := rfl
@[simp] theorem announceMuster_tables (s : State) : pcoTables (announceMuster s).pco = pcoTables s.pco := rfl
@[simp] theorem enterMustering_tables (s : State) : pcoTables (enterMustering s).pco = pcoTables s.pco := rfl
@[simp] theorem completeTest_tables (s : State) : pcoTables (completeTest s).pco = pcoTables s.pco := by
  unfold completeTest; dsimp only; split <;> simp
@[simp] theorem callMuster_tables (k : MusterKind) (s : State) : pcoTables (callMuster k s).pco = pcoTables s.pco := by
  unfold callMuster; dsimp only; split <;> simp
@[simp] theorem escalate_tables (s : State) : pcoTables (escalate s).pco = pcoTables s.pco := by
  simp [escalate]
@[simp] theorem realCall_tables (s : State) : pcoTables (realCall s).pco = pcoTables s.pco := by
  unfold realCall; split <;> (try split) <;> simp
@[simp] theorem levelTest_tables (s : State) : pcoTables (levelTest s).pco = pcoTables s.pco := by
  unfold levelTest; split <;> simp
@[simp] theorem endCalled_tables (s : State) : pcoTables (endCalled s).pco = pcoTables s.pco := by
  simp [endCalled]
@[simp] theorem recount_tables (s : State) : pcoTables (recount s).pco = pcoTables s.pco := by
  unfold recount; split <;> simp
@[simp] theorem orderCallReal_tables (s : State) : pcoTables (orderCallReal s).pco = pcoTables s.pco := by
  simp [orderCallReal]
@[simp] theorem orderCallDrill_tables (s : State) : pcoTables (orderCallDrill s).pco = pcoTables s.pco := by
  unfold orderCallDrill; dsimp only; split <;> simp
@[simp] theorem orderStandDown_tables (s : State) : pcoTables (orderStandDown s).pco = pcoTables s.pco := by
  unfold orderStandDown; dsimp only; split <;> simp
@[simp] theorem returnToStandby_tables (s : State) : pcoTables (returnToStandby s).pco = pcoTables s.pco := by
  simp [returnToStandby]; rfl
@[simp] theorem reserveBegin_tables (s : State) : pcoTables (reserveBegin s).pco = pcoTables s.pco := by
  simp [reserveBegin]
@[simp] theorem reserveFinish_tables (s : State) : pcoTables (reserveFinish s).pco = pcoTables s.pco := by
  simp [reserveFinish]
@[simp] theorem withRecord_tables (x : Nat) (r : LineRec) (s : State) :
    pcoTables (withRecord x r s).pco = pcoTables s.pco := by simp [withRecord]
@[simp] theorem finishTxn_tables (n x idle : Nat) (r : LineRec) (s : State) :
    pcoTables (finishTxn n x idle r s).pco = pcoTables s.pco := by simp [finishTxn]
@[simp] theorem noAnswer_tables (n idle : Nat) (t : Txn) (s : State) :
    pcoTables (noAnswer n idle t s).pco = pcoTables s.pco := by unfold noAnswer; dsimp only; split <;> simp
@[simp] theorem discardAnswer_tables (n idle : Nat) (t : Txn) (s : State) :
    pcoTables (discardAnswer n idle t s).pco = pcoTables s.pco := by simp [discardAnswer]
@[simp] theorem heldOffAnswer_tables (n : Nat) (t : Txn) (s : State) :
    pcoTables (heldOffAnswer n t s).pco = pcoTables s.pco := by unfold heldOffAnswer; dsimp only; split <;> simp
@[simp] theorem afterTaken_tables (n x : Nat) (p : SentPage) (k : Nat) (r : LineRec) (s : State) :
    pcoTables (afterTaken n x p k r s).pco = pcoTables s.pco := by
  unfold afterTaken; split <;> (try split) <;> simp
@[simp] theorem stateTaken_tables (n x : Nat) (a : StateFields) (s : State) :
    pcoTables (stateTaken n x a s).pco = pcoTables s.pco := by unfold stateTaken; dsimp only; split <;> simp
@[simp] theorem graphMoved_tables (s : State) : pcoTables (graphMoved s).pco = pcoTables s.pco := rfl
@[simp] theorem deliverClosure_tables (w : Word64) (s : State) : pcoTables (deliverClosure w s).pco = pcoTables s.pco := by
  unfold deliverClosure; dsimp only; split <;> simp
@[simp] theorem deliverExterior_tables (b : Bool) (s : State) : pcoTables (deliverExterior b s).pco = pcoTables s.pco := by
  unfold deliverExterior; dsimp only; split <;> simp
@[simp] theorem liveTaken_tables (bs : List Byte) (s : State) : pcoTables (liveTaken bs s).pco = pcoTables s.pco := by
  simp [liveTaken]
@[simp] theorem minuteTaken_tables (s : State) : pcoTables (minuteTaken s).pco = pcoTables s.pco := by
  simp [minuteTaken]; rfl
@[simp] theorem moveRot_tables (x : Nat) (r : RotState) (s : State) : pcoTables (moveRot x r s).pco = pcoTables s.pco := rfl
@[simp] theorem solveTaken_tables (p : Pair) (s : State) : pcoTables (solveTaken p s).pco = pcoTables s.pco := by
  unfold solveTaken; dsimp only; split <;> simp

/-- The tables of the Ship Model Store: all but the epoch and the live words. -/
def smsTables (m : SmsState) : SmsState := { m with epoch := 0, closure := 0, exterior := false }

/-- The tables of the Programme Unit that an edition may change. -/
def pguTables (g : PguState) : Tbl ProgRec × Tbl ClockRec := (g.programme, g.clockChanges)

/-- The working copies lie in three blocks. -/
theorem tablesOf_eq {s t : State} (hsms : smsTables t.sms = smsTables s.sms) (hpgu : pguTables t.pgu = pguTables s.pgu)
    (hpco : pcoTables t.pco = pcoTables s.pco) : tablesOf t = tablesOf s := by
  simp only [smsTables, SmsState.mk.injEq] at hsms
  simp only [pguTables, pcoTables, Prod.mk.injEq] at hpgu hpco
  obtain ⟨h1, h2, h3, h4, h5, h6, -⟩ := hsms
  simp only [tablesOf, h1, h2, h3, h4, h5, h6, hpgu.1, hpgu.2, hpco.1, hpco.2.1, hpco.2.2]

@[simp] theorem graphMoved_smsTables (s : State) : smsTables (graphMoved s).sms = smsTables s.sms := rfl
@[simp] theorem deliverClosure_smsTables (w : Word64) (s : State) : smsTables (deliverClosure w s).sms = smsTables s.sms := by
  unfold deliverClosure; dsimp only; split <;> rfl
@[simp] theorem deliverExterior_smsTables (b : Bool) (s : State) :
    smsTables (deliverExterior b s).sms = smsTables s.sms := by
  unfold deliverExterior; dsimp only; split <;> rfl
@[simp] theorem liveTaken_smsTables (bs : List Byte) (s : State) : smsTables (liveTaken bs s).sms = smsTables s.sms := by
  simp [liveTaken]

theorem headTaken_tables (n x : Nat) (p : SentPage) (s : State) : pcoTables (headTaken n x p s).pco = pcoTables s.pco :=
  afterTaken_tables ..
theorem blockTaken_tables (n x : Nat) (p : SentPage) (k : Nat) (s : State) :
    pcoTables (blockTaken n x p k s).pco = pcoTables s.pco := afterTaken_tables ..

theorem minuteTaken_pguTables (s : State) : pguTables (minuteTaken s).pgu = pguTables s.pgu := rfl

theorem discards_tables {n : Nat} {s u : State} (h : Discards n s u) : tablesOf u = tablesOf s := by
  obtain ⟨t, idle, -, rfl⟩ := h
  exact tablesOf_eq (by simp) (by simp) (by simp)

/-- Only resets and the completion of a validation change a table (R1, R169). -/
theorem effect_tables {c : Instr} {s u : State} (h : Effect c s u) (hreset : isReset c = false)
    (hvalid : c ≠ .validationDone) : tablesOf u = tablesOf s := by
  cases c <;> simp only [Effect] at h
  case powerOnReset | functionReset => cases hreset
  case validationDone => exact absurd rfl hvalid
  case functionResetEnd | powerOnResetEnd => rw [h.2]; rfl
  case causeEnablesWrite | causeClear | badOrder | voyageSecond | refreshCountdownExpiry | xbaseHiWrite | xbaseLoWrite
      | surveyWrite | publishWordRead | surveyCountdownExpiry => subst h; rfl
  case runRequest | haltRequest | callReal | callDrill | standDown | liveWordsRead | ackArrayRead =>
    subst h; exact tablesOf_eq (by simp) (by simp) (by simp)
  case minuteEvent =>
    subst h; exact tablesOf_eq (by simp) (minuteTaken_pguTables s) (by simp)
  case alarmQualifiedTransition =>
    obtain ⟨-, -, ⟨-, rfl⟩ | ⟨-, -, rfl⟩ | ⟨-, -, rfl⟩⟩ := h
    · exact tablesOf_eq (by simp) (by simp) (by simp)
    · exact tablesOf_eq (by simp) (by simp) (by simp)
    · rfl
  case alarmInitialLevel | reserveQualifiedRise | reserveQualifiedFall | calledTimerExpiry | standDownHoldExpiry =>
    rw [h.2.2]; exact tablesOf_eq (by simp) (by simp) (by simp)
  case reserveInitialLevel =>
    obtain ⟨-, -, ⟨-, rfl⟩ | ⟨-, rfl⟩⟩ := h
    · exact tablesOf_eq (by simp) (by simp) (by simp)
    · rfl
  case stepCountdownExpiry => obtain ⟨r, n, -, rfl⟩ := h; rfl
  case interjectionCountdownExpiry => obtain ⟨r, -, rfl⟩ := h; rfl
  case solveComplete => obtain ⟨p, -, rfl⟩ := h; exact tablesOf_eq (by simp) (by simp) (by simp)
  case turn => rw [h.2.2]; rfl
  case silentCycleExpiry => rw [h.2]; rfl
  case haltComplete => rw [h.2]; rfl
  case stateAnswer =>
    obtain ⟨t, -, -, rfl⟩ | h := h
    · exact tablesOf_eq (by simp) (by simp) (by simp)
    · exact discards_tables h
  case takenToPageHead =>
    obtain ⟨t, p, -, -, rfl⟩ | h | rfl := h
    · exact tablesOf_eq (by simp) (by simp) (headTaken_tables ..)
    · exact discards_tables h
    · rfl
  case takenToPageBlock =>
    obtain ⟨t, p, k, -, -, rfl⟩ | h | rfl := h
    · exact tablesOf_eq (by simp) (by simp) (blockTaken_tables ..)
    · exact discards_tables h
    · rfl
  case heldOff =>
    obtain ⟨t, -, -, rfl⟩ | h := h
    · exact tablesOf_eq (by simp) (by simp) (by simp)
    · exact discards_tables h
  case answerDiscarded => exact discards_tables h
  case replyWindowTimeout => obtain ⟨t, -, -, rfl⟩ := h; exact tablesOf_eq (by simp) (by simp) (by simp)
  case statusRecordWritten | statusWriteFailed => obtain ⟨x, content, left, -, rfl⟩ := h; rfl
  case reportWriteDone | reportWriteFailed => obtain ⟨w, -, rfl⟩ := h; rfl
  case busReadFailed side =>
    cases side with
    | survey => obtain ⟨v, -, -, rfl⟩ := h; exact tablesOf_eq (by simp) (by simp) (by simp)
    | staging => obtain ⟨g, -, -, rfl⟩ := h; exact tablesOf_eq (by simp) (by simp) (by simp)
  case noticeHeaderRead | directoryRead | noticeEntriesRead | publishWordReread =>
    obtain ⟨g, -, -, rfl⟩ := h; exact tablesOf_eq (by simp) (by simp) (by simp)
  case recordRead =>
    obtain ⟨g, entry, leaf, sub, index, last, -, -, rfl⟩ := h
    exact tablesOf_eq (by simp) (by simp) (by simp)

end Sys2Proof.Machine

namespace Sys2Proof.Machine

open Sys2Proof.Safety

theorem rejectEdition_applied (number : Word32) (f : Failure) (s : State) :
    (rejectEdition number f s).xu.applied = s.xu.applied := congrArg XuHeld.applied (rejectEdition_held number f s)

theorem applyProgress_applied (number : Word32) (p : Progress) (s : State) :
    (applyProgress number p s).xu.applied = s.xu.applied := by
  cases p with
  | failed f => exact rejectEdition_applied number f s
  | going g => rfl

theorem takePublish_applied (bs : List Byte) (x : XuState) : (takePublish bs x).applied = x.applied := by
  unfold takePublish; dsimp only; split
  · rfl
  · split <;> rfl

theorem stagingFailed_applied (g : Staging) (s : State) : (stagingFailed g s).xu.applied = s.xu.applied :=
  (rejectEdition_applied ..).trans (congrArg XuHeld.applied (recordFault_held ..))

/-- Only resets and the completion of a validation change the applied edition (R159, R169). -/
theorem effect_applied {c : Instr} {s u : State} (h : Effect c s u) (hreset : isReset c = false)
    (hvalid : c ≠ .validationDone) : u.xu.applied = s.xu.applied := by
  cases hc : changesHeld c with
  | false => exact congrArg XuHeld.applied (effect_held h hc)
  | true =>
    cases c
    case powerOnReset | functionReset => cases hreset
    case validationDone => exact absurd rfl hvalid
    case causeEnablesWrite | xbaseHiWrite => subst h; rfl
    case xbaseLoWrite v => subst h; exact congrArg XuHeld.applied (xbaseXu_held ..)
    case surveyWrite v => subst h; exact congrArg XuHeld.applied (surveyXu_held ..)
    case publishWordRead bs => subst h; exact takePublish_applied bs s.xu
    case busReadFailed side =>
      cases side with
      | survey => cases hc
      | staging => obtain ⟨g, -, -, rfl⟩ := h; exact stagingFailed_applied g s
    case noticeHeaderRead | directoryRead | noticeEntriesRead | publishWordReread =>
      obtain ⟨g, -, -, rfl⟩ := h; exact applyProgress_applied ..
    case recordRead => obtain ⟨g, entry, leaf, sub, index, last, -, -, rfl⟩ := h; exact applyProgress_applied ..
    all_goals cases hc

/-- Settles O59, from the commands' effects on the tables and on the applied edition. -/
theorem tablesOnlyByCommit : Obligations.TablesOnlyByCommit := by
  unfold Obligations.TablesOnlyByCommit
  intro c s t hreset hvalid h
  obtain rfl | ⟨-, heff⟩ | ⟨-, u, heff, rfl⟩ := exec_effect h
  · exact ⟨rfl, rfl⟩
  · exact ⟨effect_tables heff hreset hvalid, effect_applied heff hreset hvalid⟩
  · refine ⟨show tablesOf u = tablesOf s from effect_tables heff hreset hvalid, ?_⟩
    exact (congrArg XuHeld.applied (flush_held u)).trans (effect_applied heff hreset hvalid)

/-! ## The tables after a commit, and a rejection (R167, R169) -/

theorem commitRoutes_tables (b s : State) : tablesOf (commitRoutes b s) = tablesOf s := rfl

theorem commitNotices_tables (b : State) (l : List Nat) (s : State) : tablesOf (commitNotices b l s) = tablesOf s := by
  refine tablesOf_eq (by simp) (by simp) ?_
  unfold commitNotices; dsimp only; split <;> simp

theorem commitTests_tables (b s : State) : tablesOf (commitTests b s) = tablesOf s := by
  refine tablesOf_eq (by simp) (by simp) ?_
  unfold commitTests; dsimp only; split <;> simp

theorem installEdition_tables (g : Staging) (s : State) :
    tablesOf (installEdition g s).1 = postEdition g.staged (tablesOf s) := rfl

/-- After a commit the tables are those of the set after the edition (R167, R169). -/
theorem commitEdition_tables (g : Staging) (s : State) :
    tablesOf (commitEdition g s) = postEdition g.staged (tablesOf s) := by
  simp only [commitEdition, commitTests_tables, commitNotices_tables, commitRoutes_tables, installEdition_tables]

/-- A completed validation leaves the tables, or commits a set of which no staged record is charged (R168). -/
theorem finishValidation_tables (g : Staging) (s : State) :
    tablesOf (finishValidation g s) = tablesOf s
      ∨ validate (postEdition g.staged (tablesOf s)) g.staged g.staged = none
          ∧ tablesOf (finishValidation g s) = postEdition g.staged (tablesOf s) := by
  unfold finishValidation
  split
  · exact .inl rfl
  · rename_i hvalid
    exact .inr ⟨hvalid, commitEdition_tables g s⟩

/-- The tables after either reset (R1). -/
def emptyTables : TableSet :=
  { nodes := [], edges := [], stations := [], musters := [], landmarks := [], settings := defaultSettings
    programme := [], rotations := [], notices := [], interjections := [], clockChanges := [] }

/-- What a command does to the tables: it leaves them, empties them, or commits a valid set. -/
theorem effect_tables_cases {c : Instr} {s u : State} (h : Effect c s u) :
    tablesOf u = tablesOf s ∨ tablesOf u = emptyTables
      ∨ ∃ g : Staging, validate (postEdition g.staged (tablesOf s)) g.staged g.staged = none
          ∧ tablesOf u = postEdition g.staged (tablesOf s) := by
  cases hreset : isReset c with
  | true =>
    cases c
    case powerOnReset | functionReset => subst h; exact .inr (.inl rfl)
    all_goals cases hreset
  | false =>
    by_cases hvalid : c = .validationDone
    · subst hvalid
      obtain ⟨g, -, -, rfl⟩ := h
      obtain hkept | hcommit := finishValidation_tables g s
      · exact .inl hkept
      · exact .inr (.inr ⟨g, hcommit⟩)
    · exact .inl (effect_tables h hreset hvalid)

theorem tickTimers_tables (s : State) : tablesOf (tickTimers s) = tablesOf s := by
  unfold tickTimers; split <;> rfl

/-- A promise about the tables alone is kept when the empty tables meet it and so does every valid set after an edition. -/
theorem kept_of_tables {P : TableSet → Prop} (hempty : P emptyTables)
    (hpost : ∀ staged t, P t → validate (postEdition staged t) staged staged = none → P (postEdition staged t)) :
    Kept fun s => P (tablesOf s) where
  model _ _ _ hs := hs
  timers s hs := (tickTimers_tables s).symm ▸ hs
  flush _ hs := hs
  effect c s u h hs := by
    obtain hu | hu | ⟨g, hvalid, hu⟩ := effect_tables_cases h <;> rw [hu]
    · exact hs
    · exact hempty
    · exact hpost _ _ hs hvalid

/-! ## The canonical form of the tables (R2, log 37) -/

theorem installStaged_canonical {t : TableSet} (r : Staged) (h : SetCanonical t) : SetCanonical (installStaged t r) := by
  obtain ⟨h1, h2, h3, h4, h5, h6, h7, h8, h9, h10⟩ := h
  unfold installStaged
  dsimp only
  split
  · exact ⟨sorted_set h1 .., h2, h3, h4, h5, h6, h7, h8, h9, h10⟩
  · exact ⟨h1, sorted_set h2 .., h3, h4, h5, h6, h7, h8, h9, h10⟩
  · exact ⟨h1, h2, sorted_set h3 .., h4, h5, h6, h7, h8, h9, h10⟩
  · exact ⟨h1, h2, h3, sorted_set h4 .., h5, h6, h7, h8, h9, h10⟩
  · exact ⟨h1, h2, h3, h4, sorted_set h5 .., h6, h7, h8, h9, h10⟩
  · exact ⟨h1, h2, h3, h4, h5, sorted_set h6 .., h7, h8, h9, h10⟩
  · exact ⟨h1, h2, h3, h4, h5, h6, sorted_set h7 .., h8, h9, h10⟩
  · exact ⟨h1, h2, h3, h4, h5, h6, h7, sorted_set h8 .., h9, h10⟩
  · exact ⟨h1, h2, h3, h4, h5, h6, h7, h8, sorted_set h9 .., h10⟩
  · exact ⟨h1, h2, h3, h4, h5, h6, h7, h8, h9, sorted_set h10 ..⟩
  · exact ⟨h1, h2, h3, h4, h5, h6, h7, h8, h9, h10⟩
  · exact ⟨h1, h2, h3, h4, h5, h6, h7, h8, h9, h10⟩

theorem postEdition_canonical (staged : List Staged) {t : TableSet} (h : SetCanonical t) :
    SetCanonical (postEdition staged t) := by
  induction staged generalizing t with
  | nil => exact h
  | cons r rest ih => exact ih (installStaged_canonical r h)

theorem emptyTables_canonical : SetCanonical emptyTables := ⟨rfl, rfl, rfl, rfl, rfl, rfl, rfl, rfl, rfl, rfl⟩

theorem tablesCanonical_iff {s : State} : TablesCanonical s ↔ SetCanonical (tablesOf s) := by
  simp only [TablesCanonical, SetCanonical, tablesOf]
  tauto

/-- Settles O57: every record set after an edition goes to its place in the order. -/
theorem tablesCanonicalKept : Obligations.TablesCanonicalKept := by
  unfold Obligations.TablesCanonicalKept
  intro s t hs h
  rw [tablesCanonical_iff] at hs ⊢
  exact (kept_of_tables emptyTables_canonical fun staged _ ht _ => postEdition_canonical staged ht).step hs h

end Sys2Proof.Machine

/-! PROOFS. Held records inside the ranges of their rules (R3 to R15, R47, R51, R109, R114, R115): a record that is no
BAD_FIELD is parsed into its range, and an edition that validation accepts stages no other. -/

namespace Sys2Proof.Machine

open Sys2Proof.Safety

/-! ## Tables read after a change (R2) -/

section Tables

variable {α : Type}

theorem tblGet_eq_none_of_lt {t : Tbl α} {k : Nat} (h : ∀ y ∈ tblKeys t, k < y) : tblGet t k = none := by
  cases hget : tblGet t k with
  | none => rfl
  | some a => exact absurd (h k ((mem_keys t k).mpr (by simp [tblHas, hget]))) (Nat.lt_irrefl k)

/-- An emptied index reads none, and every other as before. -/
theorem tblGet_del {t : Tbl α} (ht : tblSorted t = true) (k y : Nat) :
    tblGet (tblDel t k) y = if y = k then none else tblGet t y := by
  induction t with
  | nil => simp [tblDel, tblGet]
  | cons e rest ih =>
    obtain ⟨i, a⟩ := e
    obtain ⟨hlt, hrest⟩ := (sorted_cons (i, a) rest).mp ht
    by_cases hik : i = k
    · subst hik
      by_cases hy : y = i
      · subst hy; simp [tblDel, tblGet_eq_none_of_lt hlt]
      · simp [tblDel, tblGet, hy, Ne.symm hy]
    · simp only [tblDel, if_neg hik, tblGet, ih hrest]
      by_cases hy : i = y
      · subst hy; simp [hik]
      · simp [hy]

/-- A set index reads what was set, and every other as before. -/
theorem tblGet_set {t : Tbl α} (ht : tblSorted t = true) (k y : Nat) (v : Option α) :
    tblGet (tblSet t k v) y = if y = k then v else tblGet t y := by
  cases v with
  | none => exact tblGet_del ht k y
  | some a => exact tblGet_put t k y a

/-- Every record of a table meets a condition on its index and content. -/
def TblAll (P : Nat → α → Prop) (t : Tbl α) : Prop := ∀ i a, tblGet t i = some a → P i a

theorem TblAll.set {P : Nat → α → Prop} {t : Tbl α} (h : TblAll P t) (ht : tblSorted t = true) {k : Nat} {v : Option α}
    (hv : ∀ a, v = some a → P k a) : TblAll P (tblSet t k v) := by
  intro i a hget
  rw [tblGet_set ht] at hget
  split at hget
  · rename_i hi; exact hi ▸ hv a hget
  · exact h i a hget

end Tables

/-! ## Fields (R2, R191) -/

theorem le_clampNat {lo hi n : Nat} (h : lo ≤ hi) : lo ≤ clampNat lo hi n := by
  unfold clampNat; split <;> (try split) <;> omega

theorem clampNat_le {lo hi n : Nat} (h : lo ≤ hi) : clampNat lo hi n ≤ hi := by
  unfold clampNat; split <;> (try split) <;> omega

theorem le_clampInt {lo hi n : Int} (h : lo ≤ hi) : lo ≤ clampInt lo hi n := by
  unfold clampInt; split <;> (try split) <;> omega

theorem clampInt_le {lo hi n : Int} (h : lo ≤ hi) : clampInt lo hi n ≤ hi := by
  unfold clampInt; split <;> (try split) <;> omega

@[simp] theorem textAt_length (bs : List Byte) (off n : Nat) : (textAt bs off n).length = n := by simp [textAt]

theorem u8_lt (bs : List Byte) (off : Nat) : u8 bs off < 256 := (byteAt bs off).isLt

/-! ## A parsed record lies in its ranges, where its bytes are no BAD_FIELD -/

theorem parseNode_inRange {bs : List Byte} (h : badNode bs = false) :
    1 ≤ (parseNode bs).deck ∧ (parseNode bs).deck ≤ 20 := by
  simp only [badNode, Bool.not_eq_false', Bool.and_eq_true, decide_eq_true_eq] at h
  exact h.1

theorem riseFits_iff {k : EdgeKind} {r : Rise} (h : riseFits k r = true) : k = .stair ↔ r ≠ .level := by
  cases k <;> cases r <;> simp [riseFits] at h ⊢

theorem parseEdge_inRange {bs : List Byte} (h : badEdge bs = false) : EdgeInRange (parseEdge bs) := by
  simp only [badEdge, nodeOk, Bool.not_eq_false', Bool.and_eq_true, decide_eq_true_eq] at h
  obtain ⟨⟨⟨⟨⟨⟨⟨⟨hA, hB⟩, hne⟩, -⟩, -⟩, hrise⟩, -⟩, hgroup⟩, -⟩ := h
  exact ⟨hA, hB, hne, le_clampNat (by decide), clampNat_le (by decide), hgroup, riseFits_iff hrise⟩

theorem parseExits_length (bs : List Byte) : (parseExits bs).length ≤ 8 := by
  simp only [parseExits, List.length_map, List.length_range]
  exact clampNat_le (by decide)

/-- Every kind of station has its own fields, and the others are empty (R10, R12, R13). -/
theorem parseStation_fields (bs : List Byte) :
    (parseStation bs).node = u16 bs 2 ∧ (parseStation bs).label = textAt bs 4 8
      ∧ (parseStation bs).exits = parseExits bs ∧ (parseStation bs).landmarks.length ≤ 4
      ∧ (parseStation bs).served.length ≤ 2
      ∧ ((parseStation bs).kind = .cabin →
          (parseStation bs).rotation = 0 ∧ (parseStation bs).landmarks = [] ∧ (parseStation bs).served = [])
      ∧ ((parseStation bs).kind ≠ .cabin → (parseStation bs).assigned = 0)
      ∧ ((parseStation bs).kind = .lobby → (parseStation bs).landmarks = []) := by
  have h4 : clampNat 0 4 (u8 bs 22) ≤ 4 := clampNat_le (by decide)
  have h2 : clampNat 0 2 (u8 bs 23) ≤ 2 := clampNat_le (by decide)
  unfold parseStation
  dsimp only
  split <;> rename_i hkind <;> simp [hkind, h4, h2]

theorem parseStation_inRange {bs : List Byte} (h : badStation bs = false) : StationInRange (parseStation bs) := by
  obtain ⟨hnode, hlabel, hexits, hmarks, hserved, hcabin, hscreen, hlobby⟩ := parseStation_fields bs
  simp only [badStation, nodeOk, Bool.not_eq_false', Bool.and_eq_true, decide_eq_true_eq, List.all_eq_true] at h
  obtain ⟨⟨⟨⟨⟨⟨⟨⟨⟨-, hin⟩, -⟩, -⟩, hedges⟩, -⟩, hassigned⟩, hrotation⟩, hlandmarks⟩, hmusters⟩ := h
  exact ⟨hin, by rw [hlabel, textAt_length], by rw [hexits]; exact parseExits_length bs, hedges, hassigned, hrotation, hmarks,
    hlandmarks, hserved, hmusters, hcabin, hscreen, hlobby⟩

theorem parseMuster_inRange {i : Nat} {bs : List Byte} (h : badMuster i bs = false) : MusterInRange i (parseMuster bs) := by
  simp only [badMuster, nodeOk, Bool.not_eq_false', Bool.and_eq_true, decide_eq_true_eq, Bool.or_eq_true,
    beq_iff_eq] at h
  obtain ⟨⟨⟨-, hnode⟩, -⟩, halternate⟩ := h
  refine ⟨hnode, textAt_length .., ?_⟩
  intro a ha
  simp only [parseMuster] at ha
  split at ha
  · cases ha
  · rename_i hsome
    cases ha
    exact halternate.resolve_left hsome

theorem parseLandmark_inRange {bs : List Byte} (h : badLandmark bs = false) :
    (parseLandmark bs).node < 1024 ∧ (parseLandmark bs).label.length = 16 := by
  simp only [badLandmark, nodeOk, Bool.not_eq_false', Bool.and_eq_true, decide_eq_true_eq] at h
  exact ⟨h.1, textAt_length ..⟩

theorem parseWeights_inRange (bs : List Byte) (off fixedOff : Nat) : WeightsInRange (parseWeights bs off fixedOff) := by
  refine ⟨?_, clampNat_le (lo := 0) (by decide)⟩
  intro k
  cases k <;> exact clampNat_le (lo := 0) (by decide)

theorem defaultSettings_inRange : SettingsInRange defaultSettings := by
  refine ⟨⟨?_, by decide⟩, ⟨?_, by decide⟩, by decide⟩ <;> intro k <;> cases k <;> decide

/-- Every field of Settings is clamped, so no bytes lead out of its ranges (R15). -/
theorem parseSettings_inRange (bs : List Byte) : SettingsInRange (parseSettings bs) := by
  unfold parseSettings
  split
  · exact defaultSettings_inRange
  · exact ⟨parseWeights_inRange .., parseWeights_inRange .., le_clampNat (by decide), clampNat_le (by decide),
      le_clampInt (by decide), clampInt_le (by decide), le_clampNat (by decide), clampNat_le (by decide),
      clampNat_le (lo := 0) (by decide), le_clampNat (by decide), clampNat_le (by decide), le_clampNat (by decide),
      clampNat_le (by decide), le_clampNat (by decide), clampNat_le (by decide)⟩

/-- A reference that is NONE or a node of the table names a node of the table (R3, R191). -/
theorem optNode_lt {n v : Nat} (h : (optNode n).all nodeOk = true) (hv : optNode n = some v) : v < 1024 := by
  rw [hv] at h
  simpa [nodeOk] using h

theorem parseProgramme_inRange {bs : List Byte} (h : badProgramme bs = false) : EntryInRange (parseProgramme bs) := by
  simp only [badProgramme, Bool.not_eq_false', Bool.and_eq_true] at h
  exact ⟨clampNat_le (lo := 0) (by decide), le_clampNat (by decide), clampNat_le (by decide), fun v => optNode_lt h.2,
    textAt_length .., textAt_length ..⟩

theorem parseStep_inRange {bs : List Byte} {k : Nat} (h : badStep bs k = false) : StepInRange k (parseStep bs k) := by
  have hlow (n : Nat) : 2 ≤ clampNat 2 120 n := le_clampNat (by decide)
  have hhigh (n : Nat) : clampNat 2 120 n ≤ 120 := clampNat_le (by decide)
  have hloop (n : Nat) : 1 ≤ clampNat 1 15 n ∧ clampNat 1 15 n ≤ 15 := ⟨le_clampNat (by decide), clampNat_le (by decide)⟩
  simp only [badStep, Bool.not_eq_false', Bool.and_eq_true] at h
  obtain ⟨-, hfields⟩ := h
  unfold StepInRange
  generalize hstep : parseStep bs k = st at hfields ⊢
  unfold parseStep at hstep
  dsimp only at hstep
  split at hstep <;> subst hstep <;> simp_all [stepDwell]

theorem parseRotation_inRange {i : Nat} {bs : List Byte} (h : badRotation i bs = false) :
    RotationInRange i (parseRotation bs) := by
  simp only [badRotation, Bool.not_eq_false', Bool.and_eq_true, decide_eq_true_eq, List.all_eq_true, List.any_eq_true,
    List.mem_range, Bool.not_eq_true'] at h
  obtain ⟨⟨⟨hindex, -⟩, hsteps⟩, hdwell⟩ := h
  refine ⟨hindex, by simp [parseRotation], ?_, hdwell⟩
  intro k st hk
  simp only [parseRotation, List.getElem?_map, Option.map_eq_some_iff] at hk
  obtain ⟨j, hj, rfl⟩ := hk
  obtain ⟨hlt, rfl⟩ := List.getElem?_eq_some_iff.mp hj
  rw [List.getElem_range]
  exact parseStep_inRange (hsteps _ (List.length_range (n := 8) ▸ hlt))

theorem parseNotice_inRange {bs : List Byte} (h : badNotice bs = false) :
    (parseNotice bs).lines.length = 4 ∧ (∀ l ∈ (parseNotice bs).lines, l.length = 40)
      ∧ ∀ d, (parseNotice bs).dest = some d → d < 1024 := by
  simp only [badNotice, Bool.not_eq_false', Bool.and_eq_true] at h
  refine ⟨by simp [parseNotice], ?_, fun d => optNode_lt h.2⟩
  intro l hl
  obtain ⟨i, -, rfl⟩ := List.mem_map.mp hl
  exact textAt_length ..

theorem parseInterj_inRange {bs : List Byte} (h : badInterj bs = false) : InterjInRange (parseInterj bs) := by
  simp only [badInterj, Bool.not_eq_false', Bool.and_eq_true, decide_eq_true_eq] at h
  exact ⟨h.1.1.1.1, h.2, clampNat_le (lo := 0) (by decide), clampNat_le (lo := 0) (by decide), le_clampNat (by decide), clampNat_le (by decide)⟩

theorem parseClock_inRange (bs : List Byte) :
    (parseClock bs).atMinute ≤ 71582788 ∧ -720 ≤ (parseClock bs).newOffset ∧ (parseClock bs).newOffset ≤ 840 :=
  ⟨clampNat_le (lo := 0) (by decide), le_clampInt (by decide), clampInt_le (by decide)⟩

/-! ## The set after an edition (R167, R168) -/

/-- Every record of a set lies inside the ranges of its rule. -/
def SetInRange (t : TableSet) : Prop :=
  TblAll (fun _ n => 1 ≤ n.deck ∧ n.deck ≤ 20) t.nodes ∧ TblAll (fun _ e => EdgeInRange e) t.edges
    ∧ TblAll (fun _ st => StationInRange st) t.stations ∧ TblAll MusterInRange t.musters
    ∧ TblAll (fun _ l => l.node < 1024 ∧ l.label.length = 16) t.landmarks ∧ SettingsInRange t.settings
    ∧ TblAll (fun _ e => EntryInRange e) t.programme
    ∧ TblAll (fun _ c => c.atMinute ≤ 71582788 ∧ -720 ≤ c.newOffset ∧ c.newOffset ≤ 840) t.clockChanges
    ∧ TblAll RotationInRange t.rotations
    ∧ TblAll (fun _ n => n.lines.length = 4 ∧ (∀ l ∈ n.lines, l.length = 40) ∧ ∀ d, n.dest = some d → d < 1024) t.notices
    ∧ TblAll (fun _ j => InterjInRange j) t.interjections

theorem recordsInRange_iff {s : State} : RecordsInRange s ↔ SetInRange (tablesOf s) := Iff.rfl

/-- The checks of its bytes alone do not charge a staged record that is in use. -/
def StagedSound (r : Staged) : Prop := ∀ bs, liveBytes r = some bs → r.leaf ≠ 11 → badBytes r.leaf r.index bs = false

theorem liveBytes_eq_some {r : Staged} {bs : List Byte} : liveBytes r = some bs ↔ r.bytes = some bs ∧ u8 bs 0 ≠ 0 := by
  unfold liveBytes
  cases hbytes : r.bytes with
  | none => simp
  | some b =>
    simp only [Option.some.injEq]
    split
    · rename_i hzero; simp only [reduceCtorEq, false_iff, not_and, not_not]; rintro rfl; exact hzero
    · rename_i hlive; simp only [Option.some.injEq]; constructor
      · rintro rfl; exact ⟨rfl, hlive⟩
      · exact And.left

theorem stagedSound_of_badField {t : TableSet} {r : Staged} (h : badField t r = false) : StagedSound r := by
  intro bs hlive hleaf
  obtain ⟨hbytes, hzero⟩ := liveBytes_eq_some.mp hlive
  simp only [badField, hbytes, if_neg hleaf, if_neg hzero, Bool.or_eq_false_iff] at h
  exact h.1.2

/-- An edition that validation accepts has no record that a check charges. -/
theorem recordReason_of_validate {t : TableSet} {staged all : List Staged} (h : validate t staged all = none) :
    ∀ r ∈ staged, recordReason t all r = none := by
  induction staged with
  | nil => simp
  | cons r rest ih =>
    simp only [validate] at h
    split at h
    · cases h
    · rename_i hr
      simpa [hr] using ih h

theorem recordReason_eq_none {t : TableSet} {all : List Staged} {r : Staged} :
    recordReason t all r = none ↔ badField t r = false ∧ dangling t r = false ∧ duplicate t all r = false := by
  unfold recordReason
  split
  · simp [*]
  · split
    · simp [*]
    · split <;> simp_all

theorem map_live_inRange {α : Type} {r : Staged} {parse : List Byte → α} {P : α → Prop}
    (h : ∀ bs, liveBytes r = some bs → P (parse bs)) (a : α) (ha : (liveBytes r).map parse = some a) : P a := by
  obtain ⟨bs, hbs, rfl⟩ := Option.map_eq_some_iff.mp ha
  exact h bs hbs

theorem tableIndex_of_ne {r : Staged} (h : r.leaf ≠ 3) : tableIndex r = r.index := if_neg h

theorem installStaged_inRange {t : TableSet} {r : Staged} (hc : SetCanonical t) (h : SetInRange t) (hr : StagedSound r) :
    SetInRange (installStaged t r) := by
  obtain ⟨c1, c2, c3, c4, c5, c6, c7, c8, c9, c10⟩ := hc
  obtain ⟨hnodes, hedges, hstations, hmusters, hlandmarks, hsettings, hprogramme, hclock, hrotations, hnotices, hinterj⟩ := h
  have hsound {n : Nat} (hn : r.leaf = n) (h11 : n ≠ 11) (bs : List Byte) (hb : liveBytes r = some bs) :
      badBytes n r.index bs = false := hn ▸ hr bs hb (hn ▸ h11)
  unfold installStaged
  dsimp only
  split
  case h_1 hleaf =>
    refine ⟨hnodes.set c1 (map_live_inRange fun bs hb => parseNode_inRange ?_), hedges, hstations, hmusters, hlandmarks,
      hsettings, hprogramme, hclock, hrotations, hnotices, hinterj⟩
    exact hsound hleaf (by decide) bs hb
  case h_2 hleaf =>
    refine ⟨hnodes, hedges.set c2 (map_live_inRange fun bs hb => parseEdge_inRange ?_), hstations, hmusters, hlandmarks,
      hsettings, hprogramme, hclock, hrotations, hnotices, hinterj⟩
    exact hsound hleaf (by decide) bs hb
  case h_3 hleaf =>
    refine ⟨hnodes, hedges, hstations.set c3 (map_live_inRange fun bs hb => parseStation_inRange ?_), hmusters, hlandmarks,
      hsettings, hprogramme, hclock, hrotations, hnotices, hinterj⟩
    exact hsound hleaf (by decide) bs hb
  case h_4 hleaf =>
    refine ⟨hnodes, hedges, hstations, hmusters.set c4 (map_live_inRange fun bs hb => ?_), hlandmarks,
      hsettings, hprogramme, hclock, hrotations, hnotices, hinterj⟩
    rw [tableIndex_of_ne (by simp [hleaf])]
    exact parseMuster_inRange (hsound hleaf (by decide) bs hb)
  case h_5 hleaf =>
    refine ⟨hnodes, hedges, hstations, hmusters, hlandmarks.set c5 (map_live_inRange fun bs hb => parseLandmark_inRange ?_),
      hsettings, hprogramme, hclock, hrotations, hnotices, hinterj⟩
    exact hsound hleaf (by decide) bs hb
  case h_6 hleaf =>
    refine ⟨hnodes, hedges, hstations, hmusters, hlandmarks, hsettings,
      hprogramme.set c6 (map_live_inRange fun bs hb => parseProgramme_inRange ?_), hclock, hrotations, hnotices, hinterj⟩
    exact hsound hleaf (by decide) bs hb
  case h_7 hleaf =>
    refine ⟨hnodes, hedges, hstations, hmusters, hlandmarks, hsettings, hprogramme, hclock,
      hrotations.set c7 (map_live_inRange fun bs hb => ?_), hnotices, hinterj⟩
    rw [tableIndex_of_ne (by simp [hleaf])]
    exact parseRotation_inRange (hsound hleaf (by decide) bs hb)
  case h_8 hleaf =>
    refine ⟨hnodes, hedges, hstations, hmusters, hlandmarks, hsettings, hprogramme, hclock, hrotations,
      hnotices.set c8 (map_live_inRange fun bs hb => parseNotice_inRange ?_), hinterj⟩
    exact hsound hleaf (by decide) bs hb
  case h_9 hleaf =>
    refine ⟨hnodes, hedges, hstations, hmusters, hlandmarks, hsettings, hprogramme, hclock, hrotations, hnotices,
      hinterj.set c9 (map_live_inRange fun bs hb => parseInterj_inRange ?_)⟩
    exact hsound hleaf (by decide) bs hb
  case h_10 hleaf =>
    exact ⟨hnodes, hedges, hstations, hmusters, hlandmarks, hsettings, hprogramme,
      hclock.set c10 (map_live_inRange fun bs _ => parseClock_inRange bs), hrotations, hnotices, hinterj⟩
  case h_11 hleaf =>
    refine ⟨hnodes, hedges, hstations, hmusters, hlandmarks, ?_, hprogramme, hclock, hrotations, hnotices, hinterj⟩
    dsimp only
    split
    · exact parseSettings_inRange _
    · exact defaultSettings_inRange
  case h_12 =>
    exact ⟨hnodes, hedges, hstations, hmusters, hlandmarks, hsettings, hprogramme, hclock, hrotations, hnotices, hinterj⟩

theorem postEdition_inRange {staged : List Staged} {t : TableSet} (hc : SetCanonical t) (h : SetInRange t)
    (hsound : ∀ r ∈ staged, StagedSound r) : SetInRange (postEdition staged t) := by
  induction staged generalizing t with
  | nil => exact h
  | cons r rest ih =>
    exact ih (installStaged_canonical r hc) (installStaged_inRange hc h (hsound r (List.mem_cons_self ..)))
      fun q hq => hsound q (List.mem_cons_of_mem _ hq)

theorem emptyTables_inRange : SetInRange emptyTables := by
  have hnone {α : Type} (P : Nat → α → Prop) : TblAll P [] := by intro i a h; cases h
  exact ⟨hnone _, hnone _, hnone _, hnone _, hnone _, defaultSettings_inRange, hnone _, hnone _, hnone _, hnone _, hnone _⟩

/-- Settles O58: validation lets no record that is BAD_FIELD into the tables, and every other is parsed into its ranges. -/
theorem recordsInRangeKept : Obligations.RecordsInRangeKept := by
  unfold Obligations.RecordsInRangeKept
  intro s t hs hc h
  have hkept : Kept fun s => SetCanonical (tablesOf s) ∧ SetInRange (tablesOf s) := by
    refine kept_of_tables (P := fun t => SetCanonical t ∧ SetInRange t) ⟨emptyTables_canonical, emptyTables_inRange⟩ ?_
    intro staged t ht hvalid
    refine ⟨postEdition_canonical staged ht.1, postEdition_inRange ht.1 ht.2 fun r hr => ?_⟩
    exact stagedSound_of_badField (recordReason_eq_none.mp (recordReason_of_validate hvalid r hr)).1
  exact (hkept.step ⟨tablesCanonical_iff.mp hc, hs⟩ h).2

end Sys2Proof.Machine

/-! PROOFS. The registers and live words inside their fields (R17, R177, R178). -/

namespace Sys2Proof.Machine

open Sys2Proof.Safety

/-! ## The Ship Model Store (R1, R17) -/

theorem discards_sms {n : Nat} {s u : State} (h : Discards n s u) : u.sms = s.sms := by
  obtain ⟨t, idle, -, rfl⟩ := h
  simp

/-- Only resets, a commit and the live words change the Ship Model Store. -/
theorem effect_sms {c : Instr} {s u : State} (h : Effect c s u) (hreset : isReset c = false) (hvalid : c ≠ .validationDone)
    (hlive : ∀ bs, c ≠ .liveWordsRead bs) : u.sms = s.sms := by
  cases c <;> simp only [Effect] at h
  case powerOnReset | functionReset => cases hreset
  case validationDone => exact absurd rfl hvalid
  case liveWordsRead bs => exact absurd rfl (hlive bs)
  case functionResetEnd | powerOnResetEnd => rw [h.2]
  case causeEnablesWrite | causeClear | badOrder | voyageSecond | refreshCountdownExpiry | xbaseHiWrite | xbaseLoWrite
      | surveyWrite | publishWordRead | surveyCountdownExpiry => subst h; rfl
  case runRequest | haltRequest | callReal | callDrill | standDown | ackArrayRead | minuteEvent => subst h; simp
  case alarmQualifiedTransition => obtain ⟨-, -, ⟨-, rfl⟩ | ⟨-, -, rfl⟩ | ⟨-, -, rfl⟩⟩ := h <;> simp
  case alarmInitialLevel | reserveQualifiedRise | reserveQualifiedFall | calledTimerExpiry | standDownHoldExpiry =>
    rw [h.2.2]; simp
  case reserveInitialLevel => obtain ⟨-, -, ⟨-, rfl⟩ | ⟨-, rfl⟩⟩ := h <;> simp
  case stepCountdownExpiry => obtain ⟨r, n, -, rfl⟩ := h; simp
  case interjectionCountdownExpiry => obtain ⟨r, -, rfl⟩ := h; simp
  case solveComplete => obtain ⟨p, -, rfl⟩ := h; simp
  case turn => rw [h.2.2]; rfl
  case silentCycleExpiry => rw [h.2]
  case haltComplete => rw [h.2]; simp
  case stateAnswer =>
    obtain ⟨t, -, -, rfl⟩ | h := h
    · simp
    · exact discards_sms h
  case takenToPageHead =>
    obtain ⟨t, p, -, -, rfl⟩ | h | rfl := h
    · simp
    · exact discards_sms h
    · rfl
  case takenToPageBlock =>
    obtain ⟨t, p, k, -, -, rfl⟩ | h | rfl := h
    · simp
    · exact discards_sms h
    · rfl
  case heldOff =>
    obtain ⟨t, -, -, rfl⟩ | h := h
    · simp
    · exact discards_sms h
  case answerDiscarded => exact discards_sms h
  case replyWindowTimeout => obtain ⟨t, -, -, rfl⟩ := h; simp
  case statusRecordWritten | statusWriteFailed => obtain ⟨x, content, left, -, rfl⟩ := h; simp
  case reportWriteDone | reportWriteFailed => obtain ⟨w, -, rfl⟩ := h; simp
  case busReadFailed side =>
    cases side with
    | survey => obtain ⟨v, -, -, rfl⟩ := h; simp
    | staging => obtain ⟨g, -, -, rfl⟩ := h; simp
  case noticeHeaderRead | directoryRead | noticeEntriesRead | publishWordReread => obtain ⟨g, -, -, rfl⟩ := h; simp
  case recordRead => obtain ⟨g, entry, leaf, sub, index, last, -, -, rfl⟩ := h; simp

/-! ## The closure map (R17) -/

theorem closureWord_bit (bs : List Byte) : (closureWord bs).getLsbD 0 = false := by simp [closureWord]

theorem deliverClosure_closure (w : Word64) (s : State) : (deliverClosure w s).sms.closure = w := by
  unfold deliverClosure
  dsimp only
  split
  · rename_i h; exact h.symm
  · simp [graphMoved, raiseEpoch]

theorem deliverExterior_closure (b : Bool) (s : State) : (deliverExterior b s).sms.closure = s.sms.closure := by
  unfold deliverExterior
  dsimp only
  split
  · rfl
  · simp [graphMoved, raiseEpoch]

theorem liveTaken_closure (bs : List Byte) (s : State) : (liveTaken bs s).sms.closure = closureWord bs := by
  simp [liveTaken, deliverExterior_closure, deliverClosure_closure]

theorem commitRoutes_closure (b s : State) : (commitRoutes b s).sms.closure = s.sms.closure := rfl

theorem commitEdition_closure (g : Staging) (s : State) : (commitEdition g s).sms.closure = s.sms.closure := by
  simp only [commitEdition, commitTests_sms, commitNotices_sms, commitRoutes_closure]
  rfl

theorem finishValidation_closure (g : Staging) (s : State) : (finishValidation g s).sms.closure = s.sms.closure := by
  unfold finishValidation
  split
  · simp
  · exact commitEdition_closure g s

/-- Bit 0 of the closure map is clear after every command. -/
theorem effect_closure {c : Instr} {s u : State} (h : Effect c s u) (hs : s.sms.closure.getLsbD 0 = false) :
    u.sms.closure.getLsbD 0 = false := by
  by_cases hreset : isReset c = true
  · cases c
    case powerOnReset | functionReset => subst h; exact BitVec.getLsbD_zero
    all_goals cases hreset
  by_cases hvalid : c = .validationDone
  · subst hvalid
    obtain ⟨g, -, -, rfl⟩ := h
    rwa [finishValidation_closure]
  by_cases hlive : ∃ bs, c = .liveWordsRead bs
  · obtain ⟨bs, rfl⟩ := hlive
    subst h
    rw [liveTaken_closure, closureWord_bit]
  · rwa [effect_sms h (by simpa using hreset) hvalid fun bs hc => hlive ⟨bs, hc⟩]

/-! ## Base, span and interval (R177, R178) -/

/-- The held fields of the registers keep to their ranges. -/
def HeldInRange (x : XuHeld) : Prop :=
  x.span ≤ 16 ∧ 10 ≤ x.interval ∧ x.interval ≤ 1000 ∧ x.base.extractLsb' 0 12 = 0#12

theorem registersInRange_iff {s : State} :
    RegistersInRange s ↔ HeldInRange (xuHeld s.xu) ∧ s.sms.closure.getLsbD 0 = false := by
  simp only [RegistersInRange, HeldInRange, xuHeld]
  tauto

theorem writtenBase_aligned (hi v : Word32) : (writtenBase hi v).extractLsb' 0 12 = 0#12 := by
  unfold writtenBase
  ext i hi'
  simp only [BitVec.getElem_extractLsb', Nat.zero_add, BitVec.getLsbD_append, BitVec.getLsbD_and, BitVec.getElem_zero]
  rw [if_pos (by omega)]
  have hmask : (0xFFFFF000#32).getLsbD i = false := by interval_cases i <;> decide
  rw [hmask, Bool.and_false]

theorem writtenSpan_le (v : Word32) : writtenSpan v ≤ 16 := Nat.min_le_left ..

theorem writtenInterval_range (v : Word32) : 10 ≤ writtenInterval v ∧ writtenInterval v ≤ 1000 :=
  ⟨le_clampNat (by decide), clampNat_le (by decide)⟩

theorem heldInRange_reset (x : XuState) : HeldInRange (xuHeld (clearedXu x)) := by
  refine ⟨?_, ?_, ?_, ?_⟩ <;> simp [xuHeld, clearedXu, resetXu]

/-- An edition that is staged or settled leaves the registers. -/
theorem applyProgress_inRange (number : Word32) (p : Progress) {s : State} (hs : HeldInRange (xuHeld s.xu)) :
    HeldInRange (xuHeld (applyProgress number p s).xu) := by
  cases p with
  | failed f =>
    have hheld : xuHeld (applyProgress number (.failed f) s).xu = _ := rejectEdition_held number f s
    rw [hheld]
    exact hs
  | going g => exact hs

theorem finishValidation_inRange (g : Staging) {s : State} (hs : HeldInRange (xuHeld s.xu)) :
    HeldInRange (xuHeld (finishValidation g s).xu) := by
  unfold finishValidation
  split
  · rw [rejectEdition_held]; exact hs
  · rw [commitEdition_held]; exact hs

theorem takePublish_inRange (bs : List Byte) {x : XuState} (hx : HeldInRange (xuHeld x)) :
    HeldInRange (xuHeld (takePublish bs x)) := by
  unfold takePublish
  dsimp only
  split
  · exact hx
  · split <;> exact hx

theorem effect_heldInRange {c : Instr} {s u : State} (h : Effect c s u) (hs : HeldInRange (xuHeld s.xu)) :
    HeldInRange (xuHeld u.xu) := by
  cases hc : changesHeld c with
  | false => rwa [effect_held h hc]
  | true =>
    obtain ⟨hspan, hlow, hhigh, hbase⟩ := hs
    have hs : HeldInRange (xuHeld s.xu) := ⟨hspan, hlow, hhigh, hbase⟩
    cases c
    case powerOnReset | functionReset => subst h; exact heldInRange_reset s.xu
    case causeEnablesWrite | xbaseHiWrite => subst h; exact hs
    case xbaseLoWrite v =>
      subst h
      rw [xbaseXu_held]
      exact ⟨writtenSpan_le v, hlow, hhigh, writtenBase_aligned ..⟩
    case surveyWrite v =>
      subst h
      rw [surveyXu_held]
      obtain ⟨hwlow, hwhigh⟩ := writtenInterval_range v
      exact ⟨hspan, hwlow, hwhigh, hbase⟩
    case publishWordRead bs =>
      subst h
      rw [publishTaken, readLive_held]
      exact takePublish_inRange bs hs
    case busReadFailed side =>
      cases side with
      | survey => cases hc
      | staging =>
        obtain ⟨g, -, -, rfl⟩ := h
        rw [stagingFailed, rejectEdition_held, recordFault_held]
        exact hs
    case noticeHeaderRead | directoryRead | noticeEntriesRead | publishWordReread =>
      obtain ⟨g, -, -, rfl⟩ := h
      exact applyProgress_inRange _ _ hs
    case recordRead =>
      obtain ⟨g, entry, leaf, sub, index, last, -, -, rfl⟩ := h
      exact applyProgress_inRange _ _ hs
    case validationDone =>
      obtain ⟨g, -, -, rfl⟩ := h
      exact finishValidation_inRange g hs
    all_goals cases hc

theorem registersInRange_kept : Kept RegistersInRange where
  model _ _ _ hs := hs
  timers s hs := by
    unfold tickTimers
    split <;> exact hs
  flush s hs := by
    rw [registersInRange_iff] at hs ⊢
    rwa [flush_held]
  effect c s u h hs := by
    rw [registersInRange_iff] at hs ⊢
    exact ⟨effect_heldInRange h hs.1, effect_closure h hs.2⟩

/-- Settles O56: the writes clamp or mask what they hold, and nothing else changes a register or the closure map. -/
theorem registersInRangeKept : Obligations.RegistersInRangeKept := by
  unfold Obligations.RegistersInRangeKept
  intro s t hs h
  exact registersInRange_kept.step hs h

end Sys2Proof.Machine

/-! PROOFS. The line records: which command changes a confirmed page (R134), and the pending counts of the cabins (R151). -/

namespace Sys2Proof.Machine

open Sys2Proof.Safety

/-! ## Pending counts (R145, R150 to R152) -/

/-- Both pending counts of a cabin lie in 0 to 63 (R151). -/
def DoorBounded (d : DoorRec) : Prop := pendingService d ≤ 63 ∧ pendingAssist d ≤ 63

/-- Presses raise a pending count to 63 at most (R151). -/
theorem addPresses_pending {t ack : Byte} (k : Nat) (h : (t - ack).toNat ≤ 63) : ((addPresses t ack k).1 - ack).toNat ≤ 63 := by
  have hadd {n : Nat} (hn : (t - ack).toNat + n ≤ 63) : (t + BitVec.ofNat 8 n - ack).toNat = (t - ack).toNat + n := by
    have hswap : t + BitVec.ofNat 8 n - ack = t - ack + BitVec.ofNat 8 n := by
      rw [BitVec.sub_eq_add_neg, BitVec.sub_eq_add_neg, BitVec.add_assoc, BitVec.add_assoc,
        BitVec.add_comm (BitVec.ofNat 8 n)]
    rw [hswap, BitVec.toNat_add, BitVec.toNat_ofNat]
    omega
  unfold addPresses
  dsimp only
  split
  · rename_i hfits; rwa [hadd hfits]
  · rw [hadd (by omega)]; omega

/-- An acknowledgement leaves at most 63 pending (R152). -/
theorem takeAck_pending (t ack : Byte) : (t - takeAck t ack).toNat ≤ 63 := by
  unfold takeAck
  split
  · assumption
  · simp

theorem freshDoor_bounded : DoorBounded freshDoor := ⟨by decide, by decide⟩

theorem doorPresses_bounded (masked : Bool) (service assist : Byte) {d : DoorRec} (h : DoorBounded d) :
    DoorBounded (doorPresses masked service assist d).door :=
  ⟨addPresses_pending _ h.1, addPresses_pending _ h.2⟩

theorem ackedDoor_bounded (service assist : Byte) {d : DoorRec} (h : DoorBounded d) : DoorBounded (ackedDoor service assist d) := by
  unfold ackedDoor
  split
  · exact ⟨takeAck_pending .., takeAck_pending ..⟩
  · have hself (a : Byte) {n : Nat} (hn : n ≤ 63) : (a + BitVec.ofNat 8 n - a).toNat ≤ 63 := by
      rw [BitVec.add_comm, BitVec.add_sub_cancel, BitVec.toNat_ofNat]
      omega
    exact ⟨hself service h.1, hself assist h.2⟩

theorem doorAcks_bounded (masked : Bool) (service assist : Byte) {d : DoorRec} (h : DoorBounded d) :
    DoorBounded (doorAcks masked service assist d) := ackedDoor_bounded service assist h

theorem doorStandby_bounded {d : DoorRec} (h : DoorBounded d) : DoorBounded (doorStandby d) := by
  unfold doorStandby
  split <;> exact h

/-! ## What may happen to a line record -/

/-- The confirmed page of a line record (R134). -/
def recConf (r : LineRec) : Word16 × Option PageKind × Word16 := (r.confSerial, r.confKind, r.confMuster)

/-- The pending counts of a line record's cabin, if it is one, lie in 0 to 63. -/
def RecBounded (r : LineRec) : Prop := ∀ d, r.door = some d → DoorBounded d

/-- A line record keeps its confirmed page, and its pending counts their bounds. -/
def RecKept (r q : LineRec) : Prop := recConf q = recConf r ∧ (RecBounded r → RecBounded q)

theorem RecKept.refl (r : LineRec) : RecKept r r := ⟨rfl, id⟩

theorem RecKept.trans {a b c : LineRec} (h : RecKept a b) (k : RecKept b c) : RecKept a c :=
  ⟨k.1.trans h.1, k.2 ∘ h.2⟩

theorem recKept_of_door {r q : LineRec} (hconf : recConf q = recConf r) (hdoor : q.door = r.door) : RecKept r q :=
  ⟨hconf, fun h d hd => h d (hdoor ▸ hd)⟩

theorem onDoor_kept {f : DoorRec → DoorRec} (hf : ∀ d, DoorBounded d → DoorBounded (f d)) (r : LineRec) :
    RecKept r (onDoor f r) := by
  refine ⟨rfl, fun h d hd => ?_⟩
  obtain ⟨e, he, rfl⟩ := Option.map_eq_some_iff.mp hd
  exact hf e (h e he)

theorem shedding_kept {r q : LineRec} (h : Shedding r q) : RecKept r q := by
  obtain rfl | rfl := h
  · exact RecKept.refl _
  · exact recKept_of_door rfl rfl

/-- What a commit makes of a line record keeps its confirmed page (R138), and a cabin begins with no press pending (R145). -/
theorem commitRec_kept (before after : Option StationRec) (r : LineRec) : RecKept r (commitRec before after r) := by
  have hreset (k : StationKind) : RecKept r (statusReset (doorFor k) r) := by
    refine ⟨rfl, fun _ d hd => ?_⟩
    cases k
    case cabin => cases hd; exact freshDoor_bounded
    all_goals cases hd
  have hnone : RecKept r (statusReset none r) := ⟨rfl, fun _ d hd => by cases hd⟩
  unfold commitRec
  split
  · exact hreset _
  · exact hnone
  · split
    · exact hreset _
    · exact recKept_of_door rfl rfl
  · exact RecKept.refl r

/-! ## Every line record of the part -/

/-- Every line record of the part keeps its confirmed page and its bounds. -/
def RecsKept (l m : LcsState) : Prop := ∀ x, RecKept (lineRec l x) (lineRec m x)

theorem RecsKept.refl (l : LcsState) : RecsKept l l := fun _ => RecKept.refl _

theorem RecsKept.trans {a b c : LcsState} (h : RecsKept a b) (k : RecsKept b c) : RecsKept a c :=
  fun x => (h x).trans (k x)

theorem recsKept_of_recs {l m : LcsState} (h : m.recs = l.recs) : RecsKept l m :=
  fun x => lineRec_of_recs h x ▸ RecKept.refl _

theorem LinesKept.recsKept {l m : LcsState} (h : LinesKept l m) : RecsKept l m := recsKept_of_recs h.1

theorem recsKept_map {f : Nat → LineRec → LineRec} (hf : ∀ x r, RecKept r (f x r)) {l m : LcsState}
    (hm : m.recs = tblMap f l.recs) : RecsKept l m := by
  intro x
  simp only [lineRec, tblGetD, hm, tblGet_map]
  cases tblGet l.recs x with
  | none => exact RecKept.refl _
  | some r => exact hf x r

theorem setLineRec_kept {x : Nat} {r : LineRec} {l : LcsState} (h : RecKept (lineRec l x) r) : RecsKept l (setLineRec x r l) := by
  intro y
  by_cases hy : y = x
  · subst hy; rwa [lineRec_set_self]
  · rw [lineRec_set_ne r l hy]; exact RecKept.refl _

theorem finishTxn_kept {n x idle : Nat} {r : LineRec} {s : State} (h : RecKept (lineRec s.lcs x) r) :
    RecsKept s.lcs (finishTxn n x idle r s).lcs := by
  obtain ⟨hself, hother⟩ := finishTxn_recs n x idle r s
  intro y
  by_cases hy : y = x
  · subst hy; exact h.trans (shedding_kept hself)
  · rw [hother y hy]; exact RecKept.refl _

theorem withRecord_kept {x : Nat} {r : LineRec} {s : State} (h : RecKept (lineRec s.lcs x) r) :
    RecsKept s.lcs (withRecord x r s).lcs := by
  obtain ⟨hself, hother⟩ := withRecord_recs x r s
  intro y
  by_cases hy : y = x
  · subst hy; exact h.trans (shedding_kept hself)
  · rw [hother y hy]; exact RecKept.refl _

theorem shedTests_kept {l : LcsState} {s : State} (h : s.lcs = l) : RecsKept l (shedTests s).lcs := by
  subst h
  refine recsKept_map (fun x r => ?_) rfl
  split
  · exact recKept_of_door rfl rfl
  · exact RecKept.refl r

theorem standbyAttention_kept (l : LcsState) : RecsKept l (standbyAttention l) :=
  recsKept_map (fun _ => onDoor_kept fun _ => doorStandby_bounded) rfl

theorem acksLines_kept (masked : Bool) (bs : List Byte) (stations : Tbl StationRec) (l : LcsState) :
    RecsKept l (acksLines masked bs stations l) := by
  refine recsKept_map (fun x r => ?_) rfl
  split
  · exact onDoor_kept (fun _ => doorAcks_bounded _ _ _) r
  · exact RecKept.refl r

theorem commitLines_kept (before after : Tbl StationRec) (l : LcsState) : RecsKept l (commitLines before after l) := by
  unfold commitLines
  induction changedKeys before after generalizing l with
  | nil => exact RecsKept.refl l
  | cons x rest ih => exact (setLineRec_kept (commitRec_kept ..)).trans (ih _)

/-! ## The transactions -/

theorem noAnswer_kept (n idle : Nat) (t : Txn) (s : State) : RecsKept s.lcs (noAnswer n idle t s).lcs := by
  unfold noAnswer
  dsimp only
  split
  · exact finishTxn_kept (s := countFail t.station s) (recKept_of_door rfl rfl)
  · exact finishTxn_kept (recKept_of_door rfl rfl)

theorem discardAnswer_kept (n idle : Nat) (t : Txn) (s : State) : RecsKept s.lcs (discardAnswer n idle t s).lcs :=
  noAnswer_kept n idle t { s with xu := _ }

theorem heldOffAnswer_kept (n : Nat) (t : Txn) (s : State) : RecsKept s.lcs (heldOffAnswer n t s).lcs := by
  unfold heldOffAnswer
  dsimp only
  split
  · exact finishTxn_kept (s := countFail t.station s) (recKept_of_door rfl rfl)
  · exact finishTxn_kept (recKept_of_door rfl rfl)

theorem answered_kept (second : Word32) (r : LineRec) : RecKept r (answered second r) := recKept_of_door rfl rfl

theorem completedRec_kept (p : SentPage) (r : LineRec) : RecKept r (completedRec p r) :=
  (recKept_of_door (q := { r with waiting := some { serial := p.serial, kind := bodyKind p.page.body, musterSerial := p.page.musterSerial } })
    rfl rfl).trans (onDoor_kept (f := doorCompleted p.full) (fun _ h => h) _)

theorem afterTaken_kept {n x : Nat} {p : SentPage} {k : Nat} {r : LineRec} {s : State} (h : RecKept (lineRec s.lcs x) r) :
    RecsKept s.lcs (afterTaken n x p k r s).lcs := by
  unfold afterTaken
  split
  · exact finishTxn_kept (h.trans (completedRec_kept p r))
  · split
    · exact finishTxn_kept h
    · have hline : lineRec (setLine n { lineAt s.lcs n with
          txn := some (startNextFrame { station := x, transfer := some (p, k + 1), left := 0 }) } s.lcs) x = lineRec s.lcs x :=
        lineRec_setLine ..
      exact (recsKept_of_recs rfl).trans (withRecord_kept (s := { s with lcs := setLine n _ s.lcs }) (hline.symm ▸ h))

theorem headTaken_kept (n x : Nat) (p : SentPage) (s : State) : RecsKept s.lcs (headTaken n x p s).lcs :=
  afterTaken_kept ((answered_kept ..).trans (onDoor_kept (f := doorHeadTaken _ _) (fun _ h => h) _))

theorem blockTaken_kept (n x : Nat) (p : SentPage) (k : Nat) (s : State) : RecsKept s.lcs (blockTaken n x p k s).lcs :=
  afterTaken_kept (answered_kept ..)

/-! ## STATE answers (R134 to R136, R150) -/

theorem confirmedBy_door (serial : Word16) (r : LineRec) : (confirmedBy serial r).door = r.door := by
  unfold confirmedBy
  split
  · rfl
  · split <;> rfl

theorem baselineConfirm_door (serial : Word16) (r : LineRec) : (baselineConfirm serial r).door = r.door := by
  unfold baselineConfirm
  split <;> rfl

theorem dropUnshown_door (a : StateFields) (r : LineRec) : (dropUnshown a r).door = r.door := by
  unfold dropUnshown
  split
  · split <;> rfl
  · rfl

theorem baselineEffect_bounded (a : StateFields) {r : LineRec} (h : RecBounded r) : RecBounded (baselineEffect a r).record :=
  (onDoor_kept (f := doorBaseline a.service a.assist) (fun _ hd => hd) r).2 h

theorem pressEffect_bounded (masked : Bool) (a : StateFields) {r : LineRec} (h : RecBounded r) :
    RecBounded (pressEffect masked a r).record := by
  unfold pressEffect
  split
  · exact h
  · rename_i d hd
    intro e he
    cases he
    exact doorPresses_bounded masked _ _ (h d hd)

/-- A STATE keeps the pending counts of its cabin in 0 to 63 (R151). -/
theorem stateEffect_bounded (masked : Bool) (a : StateFields) {r : LineRec} (h : RecBounded r) :
    RecBounded (stateEffect masked a r).record := by
  unfold stateEffect
  dsimp only
  split
  · exact baselineEffect_bounded a (r := { confirmNone 0 (copyFlags a r) with waiting := none, baseline := true }) h
  · split
    · refine baselineEffect_bounded a fun d hd => ?_
      exact h d ((baselineConfirm_door a.serial (copyFlags a r)).symm.trans hd)
    · refine pressEffect_bounded masked a fun d hd => h d ?_
      rwa [dropUnshown_door, confirmedBy_door] at hd

/-- A STATE changes the record of its own station alone. -/
theorem stateTaken_recs (n x : Nat) (a : StateFields) (s : State) :
    Shedding (stateEffect (decide (s.msc.state ≠ .standby)) a (answered s.clk.second (lineRec s.lcs x))).record
        (lineRec (stateTaken n x a s).lcs x)
      ∧ ∀ y, y ≠ x → lineRec (stateTaken n x a s).lcs y = lineRec s.lcs y := by
  unfold stateTaken
  dsimp only
  split
  all_goals exact finishTxn_recs n x idlePeriods _ { s with xu := _ }

/-! ## The muster operations and a commit -/

theorem reserveBegin_kept (s : State) : RecsKept s.lcs (reserveBegin s).lcs := by
  refine RecsKept.trans ?_ (recount_kept _).recsKept
  exact shedTests_kept rfl

theorem reserveFinish_kept (s : State) : RecsKept s.lcs (reserveFinish s).lcs := by
  refine RecsKept.trans ?_ (recount_kept _).recsKept
  exact recsKept_map (f := fun _ r => { r with shed := false }) (fun x r => recKept_of_door rfl rfl) rfl

theorem returnToStandby_kept (s : State) : RecsKept s.lcs (returnToStandby s).lcs := by
  simp only [returnToStandby, musterBlocks_lcs]
  refine RecsKept.trans ?_ (levelTest_kept _).recsKept
  rw [announceMuster_lcs, markMoved_lcs]
  exact standbyAttention_kept s.lcs

theorem commitTests_kept (b s : State) : RecsKept s.lcs (commitTests b s).lcs := by
  unfold commitTests
  dsimp only
  split
  · exact (levelTest_kept s).recsKept.trans ((shedTests_kept rfl).trans (recount_kept _).recsKept)
  · exact (shedTests_kept rfl).trans (recount_kept _).recsKept

theorem commitEdition_kept (g : Staging) (s : State) : RecsKept s.lcs (commitEdition g s).lcs := by
  refine RecsKept.trans ?_ (commitTests_kept s _)
  rw [commitNotices_lcs, commitRoutes_lcs]
  exact commitLines_kept _ _ s.lcs

theorem finishValidation_kept (g : Staging) (s : State) : RecsKept s.lcs (finishValidation g s).lcs := by
  unfold finishValidation
  split
  · exact recsKept_of_recs rfl
  · exact commitEdition_kept g s

theorem expireRefresh_kept (x : Nat) (l : LcsState) : RecsKept l (expireRefresh x l) :=
  setLineRec_kept (onDoor_kept (f := fun d => { d with refresh := none }) (fun _ h => h) _)

theorem discards_kept {n : Nat} {s u : State} (h : Discards n s u) : RecsKept s.lcs u.lcs := by
  obtain ⟨t, idle, -, rfl⟩ := h
  exact discardAnswer_kept n idle t s

/-- Every command but a reset keeps the line records, save a STATE that is taken, at its own station. -/
theorem effect_recsKept {c : Instr} {s u : State} (h : Effect c s u) (hreset : isReset c = false) :
    RecsKept s.lcs u.lcs
      ∨ ∃ n flags serial service assist tx, c = .stateAnswer n flags serial service assist
          ∧ (lineAt s.lcs n).txn = some tx ∧ u = stateTaken n tx.station { flags, serial, service, assist } s := by
  cases c <;> simp only [Effect] at h
  case powerOnReset | functionReset => cases hreset
  case stateAnswer n flags serial service assist =>
    obtain ⟨t, ht, -, rfl⟩ | h := h
    · exact .inr ⟨n, flags, serial, service, assist, t, rfl, (awaiting_some ht).1, rfl⟩
    · exact .inl (discards_kept h)
  all_goals refine .inl ?_
  case functionResetEnd | powerOnResetEnd => rw [h.2]; exact RecsKept.refl _
  case causeEnablesWrite | causeClear | badOrder | voyageSecond | xbaseHiWrite | xbaseLoWrite
      | surveyWrite | publishWordRead | surveyCountdownExpiry => subst h; exact RecsKept.refl _
  case liveWordsRead | minuteEvent => subst h; exact recsKept_of_recs (by simp)
  case runRequest | haltRequest => subst h; exact recsKept_of_recs (by simp)
  case callReal => subst h; exact (orderCallReal_kept s).recsKept
  case callDrill => subst h; exact (orderCallDrill_kept s).recsKept
  case standDown => subst h; exact (orderStandDown_kept s).recsKept
  case refreshCountdownExpiry x => subst h; exact expireRefresh_kept x s.lcs
  case ackArrayRead => subst h; rw [acksTaken, surveyWrites_lcs]; exact acksLines_kept _ _ _ s.lcs
  case alarmQualifiedTransition =>
    obtain ⟨-, -, ⟨-, rfl⟩ | ⟨-, -, rfl⟩ | ⟨-, -, rfl⟩⟩ := h
    · exact (levelTest_kept _).recsKept
    · exact (realCall_kept _).recsKept
    · exact RecsKept.refl _
  case alarmInitialLevel => rw [h.2.2]; exact (levelTest_kept _).recsKept
  case reserveQualifiedRise => rw [h.2.2]; exact reserveBegin_kept { s with msc := _ }
  case reserveQualifiedFall => rw [h.2.2]; exact reserveFinish_kept { s with msc := _ }
  case reserveInitialLevel =>
    obtain ⟨-, -, ⟨-, rfl⟩ | ⟨-, rfl⟩⟩ := h
    · exact reserveBegin_kept { s with msc := _ }
    · exact RecsKept.refl _
  case calledTimerExpiry => rw [h.2.2]; exact (endCalled_kept s).recsKept
  case standDownHoldExpiry => rw [h.2.2]; exact returnToStandby_kept s
  case stepCountdownExpiry => obtain ⟨r, n, -, rfl⟩ := h; exact RecsKept.refl _
  case interjectionCountdownExpiry => obtain ⟨r, -, rfl⟩ := h; exact RecsKept.refl _
  case solveComplete => obtain ⟨p, -, rfl⟩ := h; exact RecsKept.refl _
  case turn => rw [h.2.2]; exact recsKept_of_recs rfl
  case silentCycleExpiry => rw [h.2]; exact recsKept_of_recs rfl
  case haltComplete => rw [h.2]; exact RecsKept.refl _
  case takenToPageHead =>
    obtain ⟨t, p, -, -, rfl⟩ | h | rfl := h
    · exact headTaken_kept _ _ p s
    · exact discards_kept h
    · exact RecsKept.refl _
  case takenToPageBlock =>
    obtain ⟨t, p, k, -, -, rfl⟩ | h | rfl := h
    · exact blockTaken_kept _ _ p (k + 1) s
    · exact discards_kept h
    · exact RecsKept.refl _
  case heldOff =>
    obtain ⟨t, -, -, rfl⟩ | h := h
    · exact heldOffAnswer_kept _ t s
    · exact discards_kept h
  case answerDiscarded => exact discards_kept h
  case replyWindowTimeout => obtain ⟨t, -, -, rfl⟩ := h; exact noAnswer_kept _ _ t s
  case statusRecordWritten | statusWriteFailed => obtain ⟨x, content, left, -, rfl⟩ := h; exact RecsKept.refl _
  case reportWriteDone | reportWriteFailed => obtain ⟨w, -, rfl⟩ := h; exact RecsKept.refl _
  case busReadFailed side =>
    cases side with
    | survey => obtain ⟨v, -, -, rfl⟩ := h; exact recsKept_of_recs (by simp)
    | staging => obtain ⟨g, -, -, rfl⟩ := h; exact RecsKept.refl _
  case noticeHeaderRead | directoryRead | noticeEntriesRead | publishWordReread =>
    obtain ⟨g, -, -, rfl⟩ := h; exact recsKept_of_recs (by simp)
  case recordRead =>
    obtain ⟨g, entry, leaf, sub, index, last, -, -, rfl⟩ := h; exact recsKept_of_recs (by simp)
  case validationDone => obtain ⟨g, -, -, rfl⟩ := h; exact finishValidation_kept g s

/-- Settles O60: only a STATE that is taken touches a confirmed page, that of its own station. -/
theorem confirmedOnlyByState : Obligations.ConfirmedOnlyByState := by
  unfold Obligations.ConfirmedOnlyByState
  have heffect {c : Instr} {s u : State} (heff : Effect c s u) (hreset : isReset c = false) (x : Nat) :
      confirmedPage u x = confirmedPage s x
        ∨ ∃ n flags serial service assist tx, c = .stateAnswer n flags serial service assist
            ∧ (lineAt s.lcs n).txn = some tx ∧ tx.station = x := by
    obtain hkept | ⟨n, flags, serial, service, assist, tx, rfl, htxn, rfl⟩ := effect_recsKept heff hreset
    · exact .inl (hkept x).1
    · by_cases hx : tx.station = x
      · exact .inr ⟨n, flags, serial, service, assist, tx, rfl, htxn, hx⟩
      · exact .inl (congrArg recConf ((stateTaken_recs n tx.station _ s).2 x (Ne.symm hx)))
  intro c s t hreset h x
  obtain rfl | ⟨-, heff⟩ | ⟨-, u, heff, rfl⟩ := exec_effect h
  · exact .inl rfl
  · exact heffect heff hreset x
  · exact heffect heff hreset x

/-! ## Every cabin's pending counts -/

theorem pendingBounded_iff {s : State} : PendingBounded s ↔ ∀ x, RecBounded (lineRec s.lcs x) := Iff.rfl

theorem resetLcs_bounded (x : Nat) : RecBounded (lineRec resetLcs x) := by
  intro d hd
  cases hd

theorem pendingBounded_kept : Kept PendingBounded where
  model _ _ _ hs := hs
  timers s hs := by
    unfold tickTimers
    split
    · exact hs
    · exact hs
    · have hticked : RecsKept s.lcs (tickLcs s.periods s.lcs) :=
        recsKept_map (fun _ => onDoor_kept (f := fun d => { d with refresh := count d.refresh }) fun _ h => h) rfl
      exact fun x => (hticked x).2 (hs x)
  flush _ hs := hs
  effect c s u h hs := by
    rw [pendingBounded_iff] at hs ⊢
    cases hreset : isReset c with
    | true =>
      cases c
      case powerOnReset | functionReset => subst h; exact resetLcs_bounded
      all_goals cases hreset
    | false =>
      obtain hkept | ⟨n, flags, serial, service, assist, tx, -, -, rfl⟩ := effect_recsKept h hreset
      · exact fun x => (hkept x).2 (hs x)
      · obtain ⟨hself, hother⟩ := stateTaken_recs n tx.station { flags, serial, service, assist } s
        intro x
        by_cases hx : x = tx.station
        · subst hx
          exact (shedding_kept hself).2 (stateEffect_bounded _ _ ((answered_kept ..).2 (hs _)))
        · rw [hother x hx]; exact hs x

/-- Settles O54: presses and acknowledgements keep the bound, and nothing else changes a count. -/
theorem pendingBoundedKept : Obligations.PendingBoundedKept := by
  unfold Obligations.PendingBoundedKept
  intro s t hs h
  exact pendingBounded_kept.step hs h

end Sys2Proof.Machine

/-! PROOFS. The Muster Controller: kind, timers and map in line with the muster state (R70 to R75, R83), and a REAL muster for
an asserted alarm under LEVEL (R66, R68, R74). -/

namespace Sys2Proof.Machine

open Sys2Proof.Safety

/-! ## Which commands change the Muster Controller -/

/-- The Muster Controller stands as it was, or as a recount leaves it, while the tables stand (R72, R85). -/
def Recounted (s u : State) : Prop := u.msc = s.msc ∨ ∃ v, v.msc = s.msc ∧ v.sms = s.sms ∧ u.msc = (recount v).msc

theorem withRecord_recounted {x : Nat} {r : LineRec} {s v : State} (hmsc : v.msc = s.msc) (hsms : v.sms = s.sms) :
    Recounted s (withRecord x r v) := .inr ⟨shedAt x { v with lcs := setLineRec x r v.lcs }, hmsc, hsms, rfl⟩

theorem finishTxn_recounted {n x idle : Nat} {r : LineRec} {s v : State} (hmsc : v.msc = s.msc) (hsms : v.sms = s.sms) :
    Recounted s (finishTxn n x idle r v) :=
  withRecord_recounted (v := { v with lcs := setLine n (endTxn idle (lineAt v.lcs n)) v.lcs }) hmsc hsms

theorem noAnswer_recounted {n idle : Nat} {t : Txn} {s v : State} (hmsc : v.msc = s.msc) (hsms : v.sms = s.sms) :
    Recounted s (noAnswer n idle t v) := by
  unfold noAnswer
  dsimp only
  split <;> exact finishTxn_recounted hmsc hsms

theorem heldOffAnswer_recounted (n : Nat) (t : Txn) (s : State) : Recounted s (heldOffAnswer n t s) := by
  unfold heldOffAnswer
  dsimp only
  split <;> exact finishTxn_recounted rfl rfl

theorem afterTaken_recounted (n x : Nat) (p : SentPage) (k : Nat) (r : LineRec) (s : State) :
    Recounted s (afterTaken n x p k r s) := by
  unfold afterTaken
  split
  · exact finishTxn_recounted rfl rfl
  · split
    · exact finishTxn_recounted rfl rfl
    · exact withRecord_recounted rfl rfl

theorem stateTaken_recounted (n x : Nat) (a : StateFields) (s : State) : Recounted s (stateTaken n x a s) := by
  have hfinished (r : LineRec) (y : XuState) : Recounted s (finishTxn n x idlePeriods r { s with xu := y }) :=
    finishTxn_recounted rfl rfl
  unfold stateTaken
  dsimp only
  split <;> exact hfinished _ _

theorem discards_recounted {n : Nat} {s u : State} (h : Discards n s u) : Recounted s u := by
  obtain ⟨t, idle, -, rfl⟩ := h
  exact noAnswer_recounted rfl rfl

/-- Does a command act on the Muster Controller otherwise than by a recount: a reset, an order, a ship input, a muster timer,
a solve or a commit? -/
def actsOnMuster : Instr → Bool
  | .powerOnReset => true
  | .functionReset _ => true
  | .callReal => true
  | .callDrill => true
  | .standDown => true
  | .badOrder _ => true
  | .alarmQualifiedTransition _ => true
  | .alarmInitialLevel _ => true
  | .reserveQualifiedRise => true
  | .reserveQualifiedFall => true
  | .reserveInitialLevel _ => true
  | .calledTimerExpiry => true
  | .standDownHoldExpiry => true
  | .solveComplete => true
  | .validationDone => true
  | _ => false

theorem isReset_of_not_actsOnMuster {c : Instr} (h : actsOnMuster c = false) : isReset c = false := by
  cases c
  case powerOnReset | functionReset => cases h
  all_goals rfl

theorem effect_recounted {c : Instr} {s u : State} (h : Effect c s u) (hc : actsOnMuster c = false) : Recounted s u := by
  cases c <;> simp only [Effect] at h
  case powerOnReset | functionReset | callReal | callDrill | standDown | badOrder | alarmQualifiedTransition
      | alarmInitialLevel | reserveQualifiedRise | reserveQualifiedFall | reserveInitialLevel | calledTimerExpiry
      | standDownHoldExpiry | solveComplete | validationDone => cases hc
  case stateAnswer =>
    obtain ⟨t, -, -, rfl⟩ | h := h
    · exact stateTaken_recounted ..
    · exact discards_recounted h
  case takenToPageHead =>
    obtain ⟨t, p, -, -, rfl⟩ | h | rfl := h
    · exact afterTaken_recounted ..
    · exact discards_recounted h
    · exact .inl rfl
  case takenToPageBlock =>
    obtain ⟨t, p, k, -, -, rfl⟩ | h | rfl := h
    · exact afterTaken_recounted ..
    · exact discards_recounted h
    · exact .inl rfl
  case heldOff =>
    obtain ⟨t, -, -, rfl⟩ | h := h
    · exact heldOffAnswer_recounted ..
    · exact discards_recounted h
  case answerDiscarded => exact discards_recounted h
  case replyWindowTimeout => obtain ⟨t, -, -, rfl⟩ := h; exact noAnswer_recounted rfl rfl
  all_goals refine .inl ?_
  case functionResetEnd | powerOnResetEnd => rw [h.2]
  case causeEnablesWrite | causeClear | voyageSecond | refreshCountdownExpiry | xbaseHiWrite | xbaseLoWrite
      | surveyWrite | publishWordRead | surveyCountdownExpiry => subst h; rfl
  case runRequest | haltRequest | liveWordsRead | ackArrayRead | minuteEvent => subst h; simp
  case stepCountdownExpiry => obtain ⟨r, n, -, rfl⟩ := h; simp
  case interjectionCountdownExpiry => obtain ⟨r, -, rfl⟩ := h; simp
  case turn => rw [h.2.2]; rfl
  case silentCycleExpiry => rw [h.2]
  case haltComplete => rw [h.2]; simp
  case statusRecordWritten | statusWriteFailed => obtain ⟨x, content, left, -, rfl⟩ := h; simp
  case reportWriteDone | reportWriteFailed => obtain ⟨w, -, rfl⟩ := h; rfl
  case busReadFailed side =>
    cases side with
    | survey => obtain ⟨v, -, -, rfl⟩ := h; simp
    | staging => obtain ⟨g, -, -, rfl⟩ := h; simp
  case noticeHeaderRead | directoryRead | noticeEntriesRead | publishWordReread => obtain ⟨g, -, -, rfl⟩ := h; simp
  case recordRead => obtain ⟨g, entry, leaf, sub, index, last, -, -, rfl⟩ := h; simp

/-- A map computed afresh, or kept (R83). -/
def MapRenewed (c d : MscState) : Prop := d = c ∨ ∃ m, d = { c with map := if c.state = .standby then c.map else some m }

theorem recomputeMap_renewed (s : State) : MapRenewed s.msc (recomputeMap s).msc := .inr ⟨_, recomputeMap_msc s⟩

theorem solveTaken_renewed (p : Pair) (s : State) : MapRenewed s.msc (solveTaken p s).msc := by
  unfold solveTaken
  dsimp only
  split
  · rw [mapNotices_msc]; exact recomputeMap_renewed _
  · exact .inl rfl

theorem commitRoutes_renewed (b s : State) : MapRenewed s.msc (commitRoutes b s).msc := by
  have hrisen : (if graphChanged b.sms s.sms then raiseEpoch s else s).msc = s.msc := by split <;> rfl
  unfold commitRoutes
  dsimp only
  split
  · rw [claimOp_msc, hrisen]; exact .inl rfl
  · have h := recomputeMap_renewed (claimOp (if graphChanged b.sms s.sms then raiseEpoch s else s))
    rwa [claimOp_msc, hrisen] at h

/-- The Muster Controller after a commit: its map renewed, the test of R66 where LEVEL begins, and a recount (R68, R84). -/
theorem commitEdition_msc (g : Staging) (s : State) :
    ∃ w v, w.sms.settings = (postEdition g.staged (tablesOf s)).settings ∧ MapRenewed s.msc w.msc ∧ v.sms = w.sms
      ∧ (v.msc = (levelTest w).msc
          ∨ ¬(s.sms.settings.alarmSense ≠ w.sms.settings.alarmSense ∧ w.sms.settings.alarmSense = .level) ∧ v.msc = w.msc)
      ∧ (commitEdition g s).msc = (recount v).msc := by
  let w := commitNotices s (installEdition g s).2 (commitRoutes s (installEdition g s).1)
  have hrenewed : MapRenewed s.msc w.msc := by
    simp only [w, commitNotices_msc]
    exact commitRoutes_renewed s (installEdition g s).1
  have hsettings : w.sms.settings = (postEdition g.staged (tablesOf s)).settings := by
    simp only [w, commitNotices_sms]
    rfl
  have htests : (commitEdition g s).msc = (commitTests s w).msc := rfl
  rw [htests]
  simp only [commitTests, musterBlocks_msc, reportCause_msc]
  split
  · exact ⟨w, _, hsettings, hrenewed, by simp, .inl (by simp), rfl⟩
  · rename_i hsense
    exact ⟨w, _, hsettings, hrenewed, by simp, .inr ⟨hsense, by simp⟩, rfl⟩

/-! ## Kind, timers and map (R70 to R75, R83) -/

/-- Kind, timers and map of a Muster Controller follow its muster state. -/
def MscCoherent (c : MscState) : Prop :=
  (c.kind = .none ↔ c.state = .standby) ∧ (c.calledTimer = none ↔ c.state ≠ .called)
    ∧ (c.holdTimer = none ↔ c.state ≠ .standingDown) ∧ (c.map = none ↔ c.state = .standby)

theorem musterCoherent_iff {s : State} : MusterCoherent s ↔ MscCoherent s.msc := Iff.rfl

/-- Ending CALLED keeps coherence, in CALLED and in MUSTERING. -/
theorem endedMsc_coherent {c : MscState} (h : MscCoherent c) (hstate : c.state = .called ∨ c.state = .mustering) :
    MscCoherent (endedMsc c) := by
  obtain ⟨hkind, -, hhold, hmap⟩ := h
  obtain hstate | hstate := hstate <;> simp_all [MscCoherent, endedMsc]

theorem callBase_coherent {k : MusterKind} {s : State} (hk : k ≠ .none) (h : MscCoherent s.msc) :
    MscCoherent (callBase k s) := by
  obtain ⟨-, -, -, hmap⟩ := h
  refine ⟨?_, ?_, ?_, ?_⟩
  · simp [callBase, calledMsc, hk]
  · simp [callBase, calledMsc]
  · simp [callBase, calledMsc]
  · by_cases hstandby : s.msc.state = .standby <;> simp [callBase, calledMsc, hstandby, hmap]

theorem callMuster_coherent {k : MusterKind} {s : State} (hk : k ≠ .none) (h : MscCoherent s.msc) :
    MscCoherent (callMuster k s).msc := by
  obtain hcall | hcall := callMuster_msc k s <;> rw [hcall]
  · exact callBase_coherent hk h
  · exact endedMsc_coherent (callBase_coherent hk h) (.inl rfl)

theorem escalatedMsc_coherent {c : MscState} (h : MscCoherent c) (hstate : c.state = .called ∨ c.state = .mustering) :
    MscCoherent (escalatedMsc c) := by
  obtain ⟨-, htimer, hhold, hmap⟩ := h
  obtain hstate | hstate := hstate <;> simp_all [MscCoherent, escalatedMsc]

theorem escalate_coherent {s : State} (h : MscCoherent s.msc) (hstate : s.msc.state = .called ∨ s.msc.state = .mustering) :
    MscCoherent (escalate s).msc := by
  obtain hesc | hesc := escalate_msc s <;> rw [hesc]
  · exact escalatedMsc_coherent h hstate
  · exact endedMsc_coherent (escalatedMsc_coherent h hstate) hstate

theorem realCall_coherent {s : State} (h : MscCoherent s.msc) : MscCoherent (realCall s).msc := by
  unfold realCall
  split
  · exact callMuster_coherent (by decide) h
  · exact callMuster_coherent (by decide) h
  · rename_i hstate
    split
    · exact h
    · exact escalate_coherent h (.inl hstate)
  · rename_i hstate
    split
    · exact h
    · exact escalate_coherent h (.inr hstate)

theorem levelTest_coherent {s : State} (h : MscCoherent s.msc) : MscCoherent (levelTest s).msc := by
  rw [levelTest_msc]
  split
  · exact realCall_coherent h
  · exact h

theorem levelTest_ended_coherent {s : State} (h : MscCoherent s.msc) (hstate : s.msc.state = .called) :
    MscCoherent (levelTest (enterMustering s)).msc :=
  levelTest_coherent (by rw [enterMustering_msc]; exact endedMsc_coherent h (.inl hstate))

theorem endCalled_coherent {s : State} (h : MscCoherent s.msc) (hstate : s.msc.state = .called) :
    MscCoherent (endCalled s).msc := by
  rw [endCalled, musterBlocks_msc]
  exact levelTest_ended_coherent h hstate

theorem tallyComplete_called {s : State} (h : tallyComplete s = true) : s.msc.state = .called := by
  simp only [tallyComplete, Bool.and_eq_true, decide_eq_true_eq] at h
  exact h.1

theorem recount_coherent {s : State} (h : MscCoherent s.msc) : MscCoherent (recount s).msc := by
  rw [recount_msc]
  split
  · rename_i hcomplete
    exact levelTest_ended_coherent h (tallyComplete_called hcomplete)
  · exact h

theorem stoodDown_coherent {c : MscState} (h : MscCoherent c) (hstate : c.state = .called ∨ c.state = .mustering) :
    MscCoherent (stoodDownMsc c) := by
  obtain ⟨hkind, -, -, hmap⟩ := h
  obtain hstate | hstate := hstate <;> simp_all [MscCoherent, stoodDownMsc]

/-- A stand-down is accepted in CALLED and MUSTERING alone (R69). -/
theorem standDown_accepted {s : State} (h : standDownOutcome s = .accepted) :
    s.msc.state = .called ∨ s.msc.state = .mustering := by
  unfold standDownOutcome at h
  split at h
  · cases h
  · cases h
  · rename_i hstate; exact .inl hstate
  · rename_i hstate; exact .inr hstate

theorem standbyMsc_coherent {c : MscState} (h : MscCoherent c) (hstate : c.state = .standingDown) :
    MscCoherent (standbyMsc c) := by
  obtain ⟨-, htimer, -, -⟩ := h
  simp_all [MscCoherent, standbyMsc]

theorem renewed_coherent {c d : MscState} (hr : MapRenewed c d) (h : MscCoherent c) : MscCoherent d := by
  obtain rfl | ⟨m, rfl⟩ := hr
  · exact h
  · obtain ⟨hkind, hcalled, hhold, hmap⟩ := h
    refine ⟨hkind, hcalled, hhold, ?_⟩
    by_cases hstandby : c.state = .standby <;> simp [hstandby, hmap]

theorem recounted_coherent {s u : State} (hr : Recounted s u) (h : MscCoherent s.msc) : MscCoherent u.msc := by
  obtain hmsc | ⟨v, hv, -, hmsc⟩ := hr
  · rwa [hmsc]
  · rw [hmsc]; exact recount_coherent (hv ▸ h)

theorem resetMsc_coherent : MscCoherent resetMsc := ⟨by decide, by decide, by decide, by decide⟩

theorem orderStandDown_coherent {s : State} (h : MscCoherent s.msc) : MscCoherent (orderStandDown s).msc := by
  unfold orderStandDown
  dsimp only
  split
  · rename_i haccepted
    exact levelTest_coherent (by rw [announceMuster_msc]; exact stoodDown_coherent h (standDown_accepted haccepted))
  · exact h

theorem orderCallDrill_coherent {s : State} (h : MscCoherent s.msc) : MscCoherent (orderCallDrill s).msc := by
  unfold orderCallDrill
  dsimp only
  split
  · exact levelTest_coherent (callMuster_coherent (by decide) h)
  · exact h

theorem returnToStandby_coherent {s : State} (h : MscCoherent s.msc) (hstate : s.msc.state = .standingDown) :
    MscCoherent (returnToStandby s).msc := by
  simp only [returnToStandby, musterBlocks_msc]
  refine levelTest_coherent ?_
  rw [announceMuster_msc, markMoved_msc]
  exact standbyMsc_coherent h hstate

theorem commitEdition_coherent {g : Staging} {s : State} (h : MscCoherent s.msc) : MscCoherent (commitEdition g s).msc := by
  obtain ⟨w, v, -, hrenewed, -, hv, hmsc⟩ := commitEdition_msc g s
  have hw := renewed_coherent hrenewed h
  rw [hmsc]
  refine recount_coherent ?_
  obtain hv | ⟨-, hv⟩ := hv <;> rw [hv]
  · exact levelTest_coherent hw
  · exact hw

theorem effect_coherent {c : Instr} {s u : State} (heff : Effect c s u) (h : MscCoherent s.msc) : MscCoherent u.msc := by
  cases hc : actsOnMuster c with
  | false => exact recounted_coherent (effect_recounted heff hc) h
  | true =>
    cases c
    case powerOnReset | functionReset => subst heff; exact resetMsc_coherent
    case callReal => subst heff; exact realCall_coherent (s := withOutcome _ s) h
    case callDrill => subst heff; exact orderCallDrill_coherent h
    case standDown => subst heff; exact orderStandDown_coherent h
    case badOrder => subst heff; exact h
    case alarmQualifiedTransition =>
      obtain ⟨-, -, ⟨-, rfl⟩ | ⟨-, -, rfl⟩ | ⟨-, -, rfl⟩⟩ := heff
      · exact levelTest_coherent h
      · exact realCall_coherent (s := { s with msc := _ }) h
      · exact h
    case alarmInitialLevel => obtain ⟨-, -, rfl⟩ := heff; exact levelTest_coherent h
    case reserveQualifiedRise | reserveQualifiedFall =>
      obtain ⟨-, -, rfl⟩ := heff
      exact recount_coherent (by rw [reportCause_msc]; exact h)
    case reserveInitialLevel =>
      obtain ⟨-, -, ⟨-, rfl⟩ | ⟨-, rfl⟩⟩ := heff
      · exact recount_coherent (by rw [reportCause_msc]; exact h)
      · exact h
    case calledTimerExpiry => obtain ⟨-, hstate, rfl⟩ := heff; exact endCalled_coherent h hstate
    case standDownHoldExpiry => obtain ⟨-, hstate, rfl⟩ := heff; exact returnToStandby_coherent h hstate
    case solveComplete => obtain ⟨p, -, rfl⟩ := heff; exact renewed_coherent (solveTaken_renewed p s) h
    case validationDone =>
      obtain ⟨g, -, -, rfl⟩ := heff
      unfold finishValidation
      split
      · rwa [rejectEdition_msc]
      · exact commitEdition_coherent h
    all_goals cases hc

theorem musterCoherent_kept : Kept MusterCoherent where
  model _ _ _ hs := hs
  timers s hs := by
    unfold tickTimers
    split
    · exact hs
    · exact hs
    · obtain ⟨hkind, hcalled, hhold, hmap⟩ := hs
      exact ⟨hkind, Option.map_eq_none_iff.trans hcalled, Option.map_eq_none_iff.trans hhold, hmap⟩
  flush _ hs := hs
  effect _ _ _ heff hs := effect_coherent heff hs

/-- Settles O51, operation by operation of the Muster Controller. -/
theorem musterCoherentKept : Obligations.MusterCoherentKept := by
  unfold Obligations.MusterCoherentKept
  intro s t hs h
  exact musterCoherent_kept.step hs h

/-! ## The alarm under LEVEL (R66, R68, R74) -/

/-- A REAL muster is called (R66). -/
def RealCalled (c : MscState) : Prop := c.kind = .real ∧ (c.state = .called ∨ c.state = .mustering)

theorem alarmAnswered_iff {s : State} :
    AlarmAnswered s ↔ (s.sms.settings.alarmSense = .level → s.msc.alarm = some true → RealCalled s.msc) := Iff.rfl

theorem callMuster_alarm (k : MusterKind) (s : State) : (callMuster k s).msc.alarm = s.msc.alarm := by
  obtain h | h := callMuster_msc k s <;> rw [h] <;> rfl

theorem escalate_alarm (s : State) : (escalate s).msc.alarm = s.msc.alarm := by
  obtain h | h := escalate_msc s <;> rw [h] <;> rfl

/-- After the test of R66 an asserted alarm has its REAL muster, whatever the state before. -/
theorem levelTest_answered {s u : State} (hsms : u.sms.settings = s.sms.settings) (hmsc : u.msc = (levelTest s).msc) :
    AlarmAnswered u := by
  rw [alarmAnswered_iff, hsms, hmsc, levelTest_msc]
  split
  · exact fun _ _ => realCall_real s
  · rename_i hnot
    exact fun hlevel halarm => absurd ⟨hlevel, halarm⟩ hnot

theorem answered_of_msc {s u : State} (hsms : u.sms.settings = s.sms.settings) (hmsc : u.msc = s.msc) (h : AlarmAnswered s) :
    AlarmAnswered u := by
  rw [alarmAnswered_iff] at h ⊢
  rwa [hsms, hmsc]

theorem recount_answered {s u : State} (hsms : u.sms.settings = s.sms.settings) (hmsc : u.msc = (recount s).msc)
    (h : AlarmAnswered s) : AlarmAnswered u := by
  rw [recount_msc] at hmsc
  split at hmsc
  · exact levelTest_answered (by rw [hsms, enterMustering_sms]) hmsc
  · exact answered_of_msc hsms hmsc h

theorem recounted_answered {s u : State} (hsms : u.sms.settings = s.sms.settings) (hr : Recounted s u) (h : AlarmAnswered s) :
    AlarmAnswered u := by
  obtain hmsc | ⟨v, hv, hvsms, hmsc⟩ := hr
  · exact answered_of_msc hsms hmsc h
  · exact recount_answered (hvsms ▸ hsms) hmsc (answered_of_msc (by rw [hvsms]) hv h)

/-- A renewed map is no part of the promise. -/
theorem renewed_answered {c d : MscState} (hr : MapRenewed c d) : d.alarm = c.alarm ∧ (RealCalled c → RealCalled d) := by
  obtain rfl | ⟨m, rfl⟩ := hr
  · exact ⟨rfl, id⟩
  · exact ⟨rfl, id⟩

theorem commitEdition_answered {g : Staging} {s : State} (h : AlarmAnswered s) : AlarmAnswered (commitEdition g s) := by
  obtain ⟨w, v, hsettings, hrenewed, hvsms, hv, hmsc⟩ := commitEdition_msc g s
  have hcommit : (commitEdition g s).sms.settings = v.sms.settings := by
    rw [hvsms, hsettings, ← commitEdition_tables]
    rfl
  refine recount_answered hcommit hmsc ?_
  obtain hv | ⟨hsense, hv⟩ := hv
  · exact levelTest_answered (by rw [hvsms]) hv
  · obtain ⟨halarm, hreal⟩ := renewed_answered hrenewed
    rw [alarmAnswered_iff, hvsms, hv]
    intro hlevel hasserted
    refine hreal (h ?_ (halarm ▸ hasserted))
    by_contra hother
    exact hsense ⟨fun heq => hother (heq.trans hlevel), hlevel⟩

theorem finishValidation_answered {g : Staging} {s : State} (h : AlarmAnswered s) : AlarmAnswered (finishValidation g s) := by
  unfold finishValidation
  split
  · exact answered_of_msc (by rw [rejectEdition_sms]) (by rw [rejectEdition_msc]) h
  · exact commitEdition_answered h

theorem orderCallReal_answered (s : State) : AlarmAnswered (orderCallReal s) := fun _ _ => realCall_real _

theorem orderCallDrill_answered {s : State} (h : AlarmAnswered s) : AlarmAnswered (orderCallDrill s) := by
  unfold orderCallDrill
  dsimp only
  split
  · exact levelTest_answered (by rw [musterBlocks_sms, callMuster_sms]; rfl) rfl
  · exact h

theorem orderStandDown_answered {s : State} (h : AlarmAnswered s) : AlarmAnswered (orderStandDown s) := by
  unfold orderStandDown
  dsimp only
  split
  · exact levelTest_answered (by rw [musterBlocks_sms, announceMuster_sms]; rfl) rfl
  · exact h

theorem effect_answered {c : Instr} {s u : State} (heff : Effect c s u) (h : AlarmAnswered s) : AlarmAnswered u := by
  cases hc : actsOnMuster c with
  | false =>
    refine recounted_answered ?_ (effect_recounted heff hc) h
    exact congrArg TableSet.settings (effect_tables heff (isReset_of_not_actsOnMuster hc) (by rintro rfl; cases hc))
  | true =>
    cases c
    case powerOnReset | functionReset => subst heff; exact fun _ halarm => by cases halarm
    case callReal => subst heff; exact orderCallReal_answered s
    case callDrill => subst heff; exact orderCallDrill_answered h
    case standDown => subst heff; exact orderStandDown_answered h
    case badOrder => subst heff; exact h
    case alarmQualifiedTransition =>
      obtain ⟨-, -, ⟨-, rfl⟩ | ⟨hedge, -, rfl⟩ | ⟨hedge, -, rfl⟩⟩ := heff
      · exact levelTest_answered (by rw [levelTest_sms]) rfl
      · exact fun _ _ => realCall_real _
      · exact fun hlevel => by rw [hedge] at hlevel; cases hlevel
    case alarmInitialLevel => obtain ⟨-, -, rfl⟩ := heff; exact levelTest_answered (by rw [levelTest_sms]) rfl
    case reserveQualifiedRise =>
      obtain ⟨-, -, rfl⟩ := heff
      exact recount_answered (by simp) rfl (answered_of_msc (s := { s with msc := _ }) (by simp) (reportCause_msc ..) h)
    case reserveQualifiedFall =>
      obtain ⟨-, -, rfl⟩ := heff
      exact recount_answered (by simp) rfl (answered_of_msc (s := { s with msc := _ }) (by simp) (reportCause_msc ..) h)
    case reserveInitialLevel =>
      obtain ⟨-, -, ⟨-, rfl⟩ | ⟨-, rfl⟩⟩ := heff
      · exact recount_answered (by simp) rfl (answered_of_msc (s := { s with msc := _ }) (by simp) (reportCause_msc ..) h)
      · exact h
    case calledTimerExpiry =>
      obtain ⟨-, -, rfl⟩ := heff
      exact levelTest_answered (s := enterMustering s) (by simp) rfl
    case standDownHoldExpiry =>
      obtain ⟨-, -, rfl⟩ := heff
      simp only [returnToStandby]
      exact levelTest_answered (by simp) (musterBlocks_msc ..)
    case solveComplete =>
      obtain ⟨p, -, rfl⟩ := heff
      obtain ⟨halarm, hreal⟩ := renewed_answered (solveTaken_renewed p s)
      exact fun hlevel hasserted => hreal (h (by simpa using hlevel) (halarm ▸ hasserted))
    case validationDone => obtain ⟨g, -, -, rfl⟩ := heff; exact finishValidation_answered h
    all_goals cases hc

theorem alarmAnswered_kept : Kept AlarmAnswered where
  model _ _ _ hs := hs
  timers s hs := by unfold tickTimers; split <;> exact hs
  flush _ hs := hs
  effect _ _ _ heff hs := effect_answered heff hs

/-- Settles O52: where LEVEL begins, the alarm rises or a muster changes, the test of R66 follows. -/
theorem alarmAnsweredKept : Obligations.AlarmAnsweredKept := by
  unfold Obligations.AlarmAnsweredKept
  intro s t hs h
  exact alarmAnswered_kept.step hs h

end Sys2Proof.Machine

/-! PROOFS. The solver's selection and the slots (R26 to R38), and the eight lines (R124): what every command leaves of them. -/

namespace Sys2Proof.Machine

open Sys2Proof.Safety

/-! ## Slots (R26, R36) -/

/-- At most one of 64 slots is SOLVING, and one is while a slot is QUEUED; a slot is EMPTY exactly without a holder. -/
def SlotsGood (slots : List Slot) : Prop :=
  solvingCount slots ≤ 1 ∧ ((∃ sl ∈ slots, sl.state = .queued) → ∃ sl ∈ slots, sl.state = .solving) ∧ SlotsFit slots
    ∧ slots.length = Config.slotCount

theorem solverSelect_length (slots : List Slot) : (solverSelect slots).length = slots.length := by
  have h := congrArg List.length (solverSelect_spec slots).2.2.1
  simpa using h

/-- A selection among slots of which none is SOLVING. -/
theorem solverSelect_good {slots : List Slot} (hcount : solvingCount slots ≤ 1) (hfit : SlotsFit slots)
    (hlen : slots.length = Config.slotCount) : SlotsGood (solverSelect slots) := by
  obtain ⟨hone, hbusy, -, hkept⟩ := solverSelect_spec slots
  exact ⟨hone hcount, hbusy, hkept hfit, (solverSelect_length slots).trans hlen⟩

theorem claimRsv_good (desired : List Claim) {r : RsvState} (h : SlotsGood r.slots) : SlotsGood (claimRsv desired r).slots := by
  obtain ⟨hcount, -, hfit, hlen⟩ := h
  obtain ⟨-, -, -, hfit', hlen', hcount', hbusy⟩ := claimRsv_spec desired r hfit
  exact ⟨hcount' hcount, hbusy, hfit', hlen'.trans hlen⟩

/-- Changing every slot so that none is SOLVING and each keeps whether it is EMPTY and held. -/
theorem solverSelect_map_good {f : Slot → Slot} {slots : List Slot} (hidle : ∀ sl, (f sl).state ≠ .solving)
    (hempty : ∀ sl, (f sl).state = .empty ↔ sl.state = .empty) (hheld : ∀ sl, (f sl).holders = sl.holders)
    (h : SlotsGood slots) : SlotsGood (solverSelect (slots.map f)) := by
  obtain ⟨-, -, hfit, hlen⟩ := h
  refine solverSelect_good ?_ ?_ (by simpa using hlen)
  · have hnone : solvingCount (slots.map f) = 0 := by
      simp [solvingCount, List.filter_eq_nil_iff, hidle]
    omega
  · intro sl hsl
    obtain ⟨q, hq, rfl⟩ := List.mem_map.mp hsl
    rw [hempty, hheld]
    exact hfit q hq

theorem staleSlot_state (sl : Slot) :
    (staleSlot sl).state ≠ .solving ∧ ((staleSlot sl).state = .empty ↔ sl.state = .empty)
      ∧ (staleSlot sl).holders = sl.holders := by
  unfold staleSlot
  cases hstate : sl.state <;> simp [hstate]

theorem readySlot_state (m : SmsState) (sl : Slot) :
    (readySlot m sl).state ≠ .solving ∧ ((readySlot m sl).state = .empty ↔ sl.state = .empty)
      ∧ (readySlot m sl).holders = sl.holders := by
  unfold readySlot
  split
  · rename_i h; simp [h]
  · rename_i h; simp [h]

theorem raiseEpoch_good {s : State} (h : SlotsGood s.rsv.slots) : SlotsGood (raiseEpoch s).rsv.slots :=
  solverSelect_map_good (fun sl => (staleSlot_state sl).1) (fun sl => (staleSlot_state sl).2.1)
    (fun sl => (staleSlot_state sl).2.2) h

theorem finishSolve_good {s : State} (h : SlotsGood s.rsv.slots) : SlotsGood (finishSolve s).rsv.slots :=
  solverSelect_map_good (fun sl => (readySlot_state s.sms sl).1) (fun sl => (readySlot_state s.sms sl).2.1)
    (fun sl => (readySlot_state s.sms sl).2.2) h

theorem resetRsv_good : SlotsGood resetRsv.slots := by
  have hslot {sl : Slot} (h : sl ∈ resetRsv.slots) : sl = emptySlot := (List.mem_replicate.mp h).2
  refine ⟨by decide, ?_, ?_, by decide⟩
  · rintro ⟨sl, hsl, hqueued⟩
    rw [hslot hsl] at hqueued
    cases hqueued
  · intro sl hsl
    rw [hslot hsl]
    decide

/-! ## What a command does to the solver -/

theorem levelTest_good {s : State} (h : SlotsGood s.rsv.slots) : SlotsGood (levelTest s).rsv.slots := by
  rw [levelTest_rsv]
  split
  · exact claimRsv_good _ h
  · exact h

theorem realCall_good {s : State} (h : SlotsGood s.rsv.slots) : SlotsGood (realCall s).rsv.slots := by
  rw [realCall_rsv]
  split
  · exact claimRsv_good _ h
  · exact h

theorem orderCall_good {s u : State} (h : SlotsGood s.rsv.slots)
    (hu : u.rsv = if s.msc.state = .standby then claimRsv (musterClaims s.sms) s.rsv else s.rsv) : SlotsGood u.rsv.slots := by
  rw [hu]
  split
  · exact claimRsv_good _ h
  · exact h

theorem returnToStandby_good {s : State} (h : SlotsGood s.rsv.slots) : SlotsGood (returnToStandby s).rsv.slots := by
  simp only [returnToStandby, musterBlocks_rsv]
  refine levelTest_good ?_
  rw [announceMuster_rsv, markMoved_rsv]
  exact claimRsv_good _ h

theorem minuteTaken_rsv (s : State) : (minuteTaken s).rsv = claimRsv (desiredClaims (minuteState s)) s.rsv := by
  simp [minuteTaken]

theorem graphMoved_rsv (s : State) : (graphMoved s).rsv = (raiseEpoch s).rsv := rfl

theorem deliverClosure_good {w : Word64} {s : State} (h : SlotsGood s.rsv.slots) : SlotsGood (deliverClosure w s).rsv.slots := by
  unfold deliverClosure
  dsimp only
  split
  · exact h
  · rw [graphMoved_rsv]; exact raiseEpoch_good h

theorem deliverExterior_good {b : Bool} {s : State} (h : SlotsGood s.rsv.slots) :
    SlotsGood (deliverExterior b s).rsv.slots := by
  unfold deliverExterior
  dsimp only
  split
  · exact h
  · rw [graphMoved_rsv]; exact raiseEpoch_good h

theorem liveTaken_good {bs : List Byte} {s : State} (h : SlotsGood s.rsv.slots) : SlotsGood (liveTaken bs s).rsv.slots :=
  deliverExterior_good (deliverClosure_good h)

theorem commitRoutes_good {b s : State} (h : SlotsGood s.rsv.slots) : SlotsGood (commitRoutes b s).rsv.slots := by
  have hrisen : SlotsGood (if graphChanged b.sms s.sms then raiseEpoch s else s).rsv.slots := by
    split
    · exact raiseEpoch_good h
    · exact h
  unfold commitRoutes
  dsimp only
  split
  · exact claimRsv_good _ hrisen
  · rw [recomputeMap_rsv]; exact claimRsv_good _ hrisen

theorem commitTests_good {b s : State} (h : SlotsGood s.rsv.slots) : SlotsGood (commitTests b s).rsv.slots := by
  simp only [commitTests, musterBlocks_rsv, reportCause_rsv, recount_rsv, shedTests_rsv]
  split
  · exact levelTest_good h
  · exact h

theorem finishValidation_good {g : Staging} {s : State} (h : SlotsGood s.rsv.slots) :
    SlotsGood (finishValidation g s).rsv.slots := by
  unfold finishValidation
  split
  · rwa [rejectEdition_rsv]
  · refine commitTests_good ?_
    rw [commitNotices_rsv]
    exact commitRoutes_good h

theorem discards_rsv {n : Nat} {s u : State} (h : Discards n s u) : u.rsv = s.rsv := by
  obtain ⟨t, idle, -, rfl⟩ := h
  simp

/-- Does a command act on the target slots: a reset, a call, an alarm, a return to STANDBY, a minute event, the live words, a
solve or a commit? -/
def actsOnSlots : Instr → Bool
  | .powerOnReset => true
  | .functionReset _ => true
  | .callReal => true
  | .callDrill => true
  | .alarmQualifiedTransition _ => true
  | .alarmInitialLevel _ => true
  | .standDownHoldExpiry => true
  | .minuteEvent => true
  | .liveWordsRead _ => true
  | .solveComplete => true
  | .validationDone => true
  | _ => false

/-- Every other command leaves slots and waiting list. -/
theorem effect_rsv {c : Instr} {s u : State} (h : Effect c s u) (hc : actsOnSlots c = false) : u.rsv = s.rsv := by
  cases c <;> simp only [Effect] at h
  case powerOnReset | functionReset | callReal | callDrill | alarmQualifiedTransition | alarmInitialLevel
      | standDownHoldExpiry | minuteEvent | liveWordsRead | solveComplete | validationDone => cases hc
  case functionResetEnd | powerOnResetEnd => rw [h.2]
  case causeEnablesWrite | causeClear | badOrder | voyageSecond | refreshCountdownExpiry | xbaseHiWrite | xbaseLoWrite
      | surveyWrite | publishWordRead | surveyCountdownExpiry => subst h; rfl
  case runRequest | haltRequest | standDown | ackArrayRead => subst h; simp
  case reserveQualifiedRise | reserveQualifiedFall | calledTimerExpiry => rw [h.2.2]; simp
  case reserveInitialLevel => obtain ⟨-, -, ⟨-, rfl⟩ | ⟨-, rfl⟩⟩ := h <;> simp
  case stepCountdownExpiry => obtain ⟨r, n, -, rfl⟩ := h; simp
  case interjectionCountdownExpiry => obtain ⟨r, -, rfl⟩ := h; simp
  case turn => rw [h.2.2]; rfl
  case silentCycleExpiry => rw [h.2]
  case haltComplete => rw [h.2]; simp
  case stateAnswer =>
    obtain ⟨t, -, -, rfl⟩ | h := h
    · simp
    · exact discards_rsv h
  case takenToPageHead =>
    obtain ⟨t, p, -, -, rfl⟩ | h | rfl := h
    · simp
    · exact discards_rsv h
    · rfl
  case takenToPageBlock =>
    obtain ⟨t, p, k, -, -, rfl⟩ | h | rfl := h
    · simp
    · exact discards_rsv h
    · rfl
  case heldOff =>
    obtain ⟨t, -, -, rfl⟩ | h := h
    · simp
    · exact discards_rsv h
  case answerDiscarded => exact discards_rsv h
  case replyWindowTimeout => obtain ⟨t, -, -, rfl⟩ := h; simp
  case statusRecordWritten | statusWriteFailed => obtain ⟨x, content, left, -, rfl⟩ := h; simp
  case reportWriteDone | reportWriteFailed => obtain ⟨w, -, rfl⟩ := h; simp
  case busReadFailed side =>
    cases side with
    | survey => obtain ⟨v, -, -, rfl⟩ := h; simp
    | staging => obtain ⟨g, -, -, rfl⟩ := h; simp
  case noticeHeaderRead | directoryRead | noticeEntriesRead | publishWordReread => obtain ⟨g, -, -, rfl⟩ := h; simp
  case recordRead => obtain ⟨g, entry, leaf, sub, index, last, -, -, rfl⟩ := h; simp

theorem effect_slotsGood {c : Instr} {s u : State} (heff : Effect c s u) (h : SlotsGood s.rsv.slots) :
    SlotsGood u.rsv.slots := by
  cases hc : actsOnSlots c with
  | false => rwa [effect_rsv heff hc]
  | true =>
    cases c
    case powerOnReset | functionReset => subst heff; exact resetRsv_good
    case callReal => subst heff; exact orderCall_good h (orderCallReal_rsv s)
    case callDrill => subst heff; exact orderCall_good h (orderCallDrill_rsv s)
    case alarmQualifiedTransition =>
      obtain ⟨-, -, ⟨-, rfl⟩ | ⟨-, -, rfl⟩ | ⟨-, -, rfl⟩⟩ := heff
      · exact levelTest_good h
      · exact realCall_good (s := { s with msc := _ }) h
      · exact h
    case alarmInitialLevel => obtain ⟨-, -, rfl⟩ := heff; exact levelTest_good h
    case standDownHoldExpiry => obtain ⟨-, -, rfl⟩ := heff; exact returnToStandby_good h
    case minuteEvent => subst heff; rw [minuteTaken_rsv]; exact claimRsv_good _ h
    case liveWordsRead => subst heff; exact liveTaken_good h
    case solveComplete => obtain ⟨p, -, rfl⟩ := heff; exact finishSolve_good h
    case validationDone => obtain ⟨g, -, -, rfl⟩ := heff; exact finishValidation_good h
    all_goals cases hc

/-! ## The eight lines (R124) -/

theorem noAnswer_length (n idle : Nat) (t : Txn) (s : State) : (noAnswer n idle t s).lcs.lines.length = s.lcs.lines.length := by
  unfold noAnswer
  dsimp only
  split <;> rw [finishTxn_length]
  rfl

theorem heldOffAnswer_length (n : Nat) (t : Txn) (s : State) :
    (heldOffAnswer n t s).lcs.lines.length = s.lcs.lines.length := by
  unfold heldOffAnswer
  dsimp only
  split <;> rw [finishTxn_length]
  rfl

theorem afterTaken_length (n x : Nat) (p : SentPage) (k : Nat) (r : LineRec) (s : State) :
    (afterTaken n x p k r s).lcs.lines.length = s.lcs.lines.length := by
  unfold afterTaken
  split
  · rw [finishTxn_length]
  · split
    · rw [finishTxn_length]
    · rw [withRecord_length, setLine_length]

theorem stateTaken_length (n x : Nat) (a : StateFields) (s : State) :
    (stateTaken n x a s).lcs.lines.length = s.lcs.lines.length := by
  unfold stateTaken
  dsimp only
  split
  all_goals exact finishTxn_length n x idlePeriods _ { s with xu := _ }

theorem commitLines_lines (before after : Tbl StationRec) (l : LcsState) : (commitLines before after l).lines = l.lines := by
  unfold commitLines
  induction changedKeys before after generalizing l with
  | nil => rfl
  | cons x rest ih => exact (ih _).trans rfl

theorem commitTests_length (b s : State) : (commitTests b s).lcs.lines.length = s.lcs.lines.length := by
  simp only [commitTests, musterBlocks_lcs, reportCause_lcs]
  refine (recount_kept _).length.trans ?_
  split
  · exact (levelTest_kept s).length
  · rfl

theorem finishValidation_length (g : Staging) (s : State) :
    (finishValidation g s).lcs.lines.length = s.lcs.lines.length := by
  unfold finishValidation
  split
  · rw [rejectEdition_lcs]
  · refine (commitTests_length s _).trans ?_
    rw [commitNotices_lcs, commitRoutes_lcs]
    exact congrArg List.length (commitLines_lines _ _ s.lcs)

theorem runRequest_length (s : State) : (runRequest s).lcs.lines.length = s.lcs.lines.length := by
  obtain h | h := runRequest_lines s <;> simp [h]

theorem haltRequest_length (s : State) : (haltRequest s).lcs.lines.length = s.lcs.lines.length := by
  unfold haltRequest
  split
  · split
    · exact List.length_map _
    · rfl
  · rfl

theorem returnToStandby_length (s : State) : (returnToStandby s).lcs.lines.length = s.lcs.lines.length := by
  simp only [returnToStandby, musterBlocks_lcs]
  refine (levelTest_kept _).length.trans ?_
  rw [announceMuster_lcs, markMoved_lcs]
  rfl

theorem discards_length {n : Nat} {s u : State} (h : Discards n s u) : u.lcs.lines.length = s.lcs.lines.length := by
  obtain ⟨t, idle, -, rfl⟩ := h
  exact noAnswer_length n idle t { s with xu := _ }

/-- No command adds a line or takes one away, but that a reset leaves eight. -/
theorem effect_lines {c : Instr} {s u : State} (h : Effect c s u) :
    u.lcs.lines.length = s.lcs.lines.length ∨ u.lcs.lines.length = Config.lineCount := by
  cases c <;> simp only [Effect] at h
  case powerOnReset | functionReset => subst h; exact .inr rfl
  all_goals refine .inl ?_
  case functionResetEnd | powerOnResetEnd => rw [h.2]
  case causeEnablesWrite | causeClear | badOrder | voyageSecond | xbaseHiWrite | xbaseLoWrite | surveyWrite
      | publishWordRead | surveyCountdownExpiry | refreshCountdownExpiry => subst h; rfl
  case liveWordsRead | minuteEvent => subst h; simp
  case ackArrayRead => subst h; rw [acksTaken, surveyWrites_lcs]; rfl
  case runRequest => subst h; exact runRequest_length s
  case haltRequest => subst h; exact haltRequest_length s
  case callReal => subst h; exact (orderCallReal_kept s).length
  case callDrill => subst h; exact (orderCallDrill_kept s).length
  case standDown => subst h; exact (orderStandDown_kept s).length
  case alarmQualifiedTransition =>
    obtain ⟨-, -, ⟨-, rfl⟩ | ⟨-, -, rfl⟩ | ⟨-, -, rfl⟩⟩ := h
    · exact (levelTest_kept _).length
    · exact (realCall_kept _).length
    · rfl
  case alarmInitialLevel => rw [h.2.2]; exact (levelTest_kept _).length
  case reserveQualifiedRise | reserveQualifiedFall => rw [h.2.2]; exact (recount_kept _).length
  case reserveInitialLevel =>
    obtain ⟨-, -, ⟨-, rfl⟩ | ⟨-, rfl⟩⟩ := h
    · exact (recount_kept _).length
    · rfl
  case calledTimerExpiry => rw [h.2.2]; exact (endCalled_kept s).length
  case standDownHoldExpiry => rw [h.2.2]; exact returnToStandby_length s
  case stepCountdownExpiry => obtain ⟨r, n, -, rfl⟩ := h; simp
  case interjectionCountdownExpiry => obtain ⟨r, -, rfl⟩ := h; simp
  case solveComplete => obtain ⟨p, -, rfl⟩ := h; simp
  case turn => rw [h.2.2]; exact setLine_length ..
  case silentCycleExpiry => rw [h.2]; exact setLine_length ..
  case haltComplete => rw [h.2]; simp
  case stateAnswer =>
    obtain ⟨t, -, -, rfl⟩ | h := h
    · exact stateTaken_length ..
    · exact discards_length h
  case takenToPageHead =>
    obtain ⟨t, p, -, -, rfl⟩ | h | rfl := h
    · exact afterTaken_length ..
    · exact discards_length h
    · rfl
  case takenToPageBlock =>
    obtain ⟨t, p, k, -, -, rfl⟩ | h | rfl := h
    · exact afterTaken_length ..
    · exact discards_length h
    · rfl
  case heldOff =>
    obtain ⟨t, -, -, rfl⟩ | h := h
    · exact heldOffAnswer_length ..
    · exact discards_length h
  case answerDiscarded => exact discards_length h
  case replyWindowTimeout => obtain ⟨t, -, -, rfl⟩ := h; exact noAnswer_length ..
  case statusRecordWritten | statusWriteFailed => obtain ⟨x, content, left, -, rfl⟩ := h; simp
  case reportWriteDone | reportWriteFailed => obtain ⟨w, -, rfl⟩ := h; rfl
  case busReadFailed side =>
    cases side with
    | survey => obtain ⟨v, -, -, rfl⟩ := h; simp
    | staging => obtain ⟨g, -, -, rfl⟩ := h; simp
  case noticeHeaderRead | directoryRead | noticeEntriesRead | publishWordReread => obtain ⟨g, -, -, rfl⟩ := h; simp
  case recordRead => obtain ⟨g, entry, leaf, sub, index, last, -, -, rfl⟩ := h; simp
  case validationDone => obtain ⟨g, -, -, rfl⟩ := h; exact finishValidation_length g s

theorem slotsGood_iff {s : State} :
    SolverSelects s ∧ SlotsHeld s ↔ SlotsGood s.rsv.slots ∧ s.lcs.lines.length = Config.lineCount := by
  simp only [SolverSelects, SlotsHeld, SlotsGood, solvingCount, SlotsFit]
  tauto

theorem slots_kept : Kept fun s => SlotsGood s.rsv.slots ∧ s.lcs.lines.length = Config.lineCount where
  model _ _ _ hs := hs
  timers s hs := by
    unfold tickTimers
    split
    · exact hs
    · exact hs
    · exact ⟨hs.1, by simpa [tickLcs] using hs.2⟩
  flush _ hs := hs
  effect c s u heff hs := by
    refine ⟨effect_slotsGood heff hs.1, ?_⟩
    obtain hlen | hlen := effect_lines heff
    · exact hlen.trans hs.2
    · exact hlen

/-- Settles O55: each of the events that move slots ends with the solver's selection. -/
theorem solverSelectsKept : Obligations.SolverSelectsKept := by
  unfold Obligations.SolverSelectsKept
  intro s t hsolver hslots h
  exact slotsGood_iff.mpr (slots_kept.step (slotsGood_iff.mp ⟨hsolver, hslots⟩) h)

end Sys2Proof.Machine

/-! PROOFS. The queue (log 3), the resets (R175, R190) and what holds right after one. -/

namespace Sys2Proof.Machine

open Sys2Proof.Safety

/-- Settles O1: the front command runs on the state with the queue's rest. -/
theorem stepRunsFront : Obligations.StepRunsFront := by
  unfold Obligations.StepRunsFront
  intro c rest s hq
  simp only [step, hq]

/-! ## Every command answers (log 2) -/

/-- `answer` always answers a next state. -/
theorem answer_next (can : Bool) (t s : State) : ∃ u, answer can t s = .next u := ⟨_, rfl⟩

/-- A command of the stage answers as it does with the edition in hand, or leaves the state. -/
theorem stage_next {f : Staging → Host.Outcome State Fault Refusal} {s : State} (hf : ∀ g, ∃ t, f g = .next t) :
    ∃ t, (match s.xu.stage with
      | some g => f g
      | none => .next s) = .next t := by
  cases s.xu.stage with
  | some g => exact hf g
  | none => exact ⟨s, rfl⟩

theorem exec_next (c : Instr) (s : State) : ∃ t, exec c s = .next t := by
  cases c
  case noticeHeaderRead | directoryRead | noticeEntriesRead | publishWordReread | validationDone =>
    exact stage_next fun g => answer_next ..
  case recordRead =>
    refine stage_next fun g => ?_
    cases g.phase <;> exact ⟨_, rfl⟩
  case statusRecordWritten | statusWriteFailed =>
    simp only [exec, execStatusRecordWritten, execStatusWriteFailed]
    split <;> exact ⟨_, rfl⟩
  case reportWriteDone | reportWriteFailed =>
    simp only [exec, execReportWriteDone, execReportWriteFailed]
    split <;> exact ⟨_, rfl⟩
  case busReadFailed side => cases side <;> exact ⟨_, rfl⟩
  all_goals exact ⟨_, rfl⟩

theorem discards_pending {n : Nat} {s u : State} (h : Discards n s u) : u.pending = s.pending := by
  obtain ⟨t, idle, -, rfl⟩ := h
  simp

/-- No command touches the queue (log 3). -/
theorem effect_pending {c : Instr} {s u : State} (h : Effect c s u) : u.pending = s.pending := by
  cases c <;> simp only [Effect] at h
  case powerOnReset | functionReset | causeEnablesWrite | causeClear | badOrder | voyageSecond | refreshCountdownExpiry
      | xbaseHiWrite | xbaseLoWrite | surveyWrite | publishWordRead | surveyCountdownExpiry => subst h; rfl
  case functionResetEnd | powerOnResetEnd => rw [h.2]
  case runRequest | haltRequest | callReal | callDrill | standDown | liveWordsRead | ackArrayRead | minuteEvent =>
    subst h; simp
  case alarmQualifiedTransition => obtain ⟨-, -, ⟨-, rfl⟩ | ⟨-, -, rfl⟩ | ⟨-, -, rfl⟩⟩ := h <;> simp
  case alarmInitialLevel | reserveQualifiedRise | reserveQualifiedFall | calledTimerExpiry | standDownHoldExpiry =>
    rw [h.2.2]; simp
  case reserveInitialLevel => obtain ⟨-, -, ⟨-, rfl⟩ | ⟨-, rfl⟩⟩ := h <;> simp
  case stepCountdownExpiry => obtain ⟨r, n, -, rfl⟩ := h; simp
  case interjectionCountdownExpiry => obtain ⟨r, -, rfl⟩ := h; simp
  case solveComplete => obtain ⟨p, -, rfl⟩ := h; simp
  case turn => rw [h.2.2]; rfl
  case silentCycleExpiry => rw [h.2]
  case haltComplete => rw [h.2]; simp
  case stateAnswer =>
    obtain ⟨t, -, -, rfl⟩ | h := h
    · simp
    · exact discards_pending h
  case takenToPageHead =>
    obtain ⟨t, p, -, -, rfl⟩ | h | rfl := h
    · simp
    · exact discards_pending h
    · rfl
  case takenToPageBlock =>
    obtain ⟨t, p, k, -, -, rfl⟩ | h | rfl := h
    · simp
    · exact discards_pending h
    · rfl
  case heldOff =>
    obtain ⟨t, -, -, rfl⟩ | h := h
    · simp
    · exact discards_pending h
  case answerDiscarded => exact discards_pending h
  case replyWindowTimeout => obtain ⟨t, -, -, rfl⟩ := h; simp
  case statusRecordWritten | statusWriteFailed => obtain ⟨x, content, left, -, rfl⟩ := h; simp
  case reportWriteDone | reportWriteFailed => obtain ⟨w, -, rfl⟩ := h; rfl
  case busReadFailed side =>
    cases side with
    | survey => obtain ⟨v, -, -, rfl⟩ := h; simp
    | staging => obtain ⟨g, -, -, rfl⟩ := h; simp
  case noticeHeaderRead | directoryRead | noticeEntriesRead | publishWordReread => obtain ⟨g, -, -, rfl⟩ := h; simp
  case recordRead => obtain ⟨g, entry, leaf, sub, index, last, -, -, rfl⟩ := h; simp
  case validationDone => obtain ⟨g, -, -, rfl⟩ := h; simp

/-- Settles O2: every arm of `exec` answers a next state, and no effect touches the queue. -/
theorem everyCommandAnswers : Obligations.EveryCommandAnswers := by
  unfold Obligations.EveryCommandAnswers
  intro c s
  obtain ⟨t, h⟩ := exec_next c s
  refine ⟨t, h, ?_⟩
  obtain rfl | ⟨-, heff⟩ | ⟨-, u, heff, rfl⟩ := exec_effect h
  · rfl
  · exact effect_pending heff
  · exact (flush_pending u).trans (effect_pending heff)

/-! ## Resets (R175, R190) -/

/-- Settles O4: every block takes its reset values. -/
theorem powerOnResetClears : Obligations.PowerOnResetClears := by
  unfold Obligations.PowerOnResetClears
  intro s
  have hslots : ∀ sl ∈ resetRsv.slots, sl.state = .empty ∧ sl.holders = [] ∧ sl.vector = none ∧ sl.vectorEpoch = 0 := by
    intro sl hsl
    rw [(List.mem_replicate.mp hsl).2]
    exact ⟨rfl, rfl, rfl, rfl⟩
  have hlines : ∀ l ∈ resetLcs.lines,
      l.service = .silent ∧ l.txn = none ∧ l.musterPos = 0 ∧ l.cyclePos = 0 ∧ l.cycleCount = 0 := by
    intro l hl
    rw [(List.mem_replicate.mp hl).2]
    exact ⟨rfl, rfl, rfl, rfl, rfl⟩
  exact ⟨powerOn s, rfl, rfl, rfl, ⟨rfl, rfl, rfl, rfl, rfl, rfl, rfl, rfl, rfl⟩, ⟨rfl, hslots, rfl⟩,
    ⟨rfl, rfl, rfl, rfl, rfl, rfl, rfl, rfl⟩, ⟨rfl, rfl, rfl, rfl, rfl, rfl, rfl, rfl, rfl, rfl, rfl, rfl, rfl⟩,
    ⟨rfl, rfl, rfl, rfl, fun x => ⟨rfl, rfl⟩⟩, ⟨hlines, fun x => ⟨rfl, rfl⟩⟩,
    ⟨rfl, rfl, rfl, rfl, rfl, rfl, rfl, rfl, rfl, rfl, rfl, rfl, rfl, rfl, rfl, rfl, fun x => rfl, rfl⟩⟩

/-- Settles O5: what survives is the clock, the offset and the outside's two fields. -/
theorem functionResetKeepsClock : Obligations.FunctionResetKeepsClock := by
  unfold Obligations.FunctionResetKeepsClock
  constructor
  · intro src s hphase
    have htaken : functionResetTaken src s.phase = true := by
      obtain hphase | ⟨hphase, rfl⟩ := hphase <;> rw [hphase]
      · cases src <;> rfl
      · rfl
    refine ⟨functionBegin s, ?_, rfl, rfl, rfl, rfl, rfl, rfl, rfl, rfl, rfl⟩
    simp only [exec, execFunctionReset, htaken, if_true]
  · intro s hphase
    have htaken : functionResetTaken .controlWrite s.phase = false := by
      cases h : s.phase with
      | operating => exact absurd h hphase
      | powerOn => rfl
      | function => rfl
    simp only [exec, execFunctionReset, htaken, Bool.false_eq_true, if_false]

/-- While a reset holds the part a command leaves the state (R175). -/
theorem answer_held (can : Bool) (t : State) {s : State} (h : s.phase ≠ .operating) : answer can t s = .next s := by
  simp [answer, operating, h]

theorem exec_held {c : Instr} {s : State} (h : s.phase ≠ .operating) (hc : actsInReset c = false) : exec c s = .next s := by
  cases c
  case powerOnReset | functionReset | functionResetEnd | powerOnResetEnd | voyageSecond | minuteEvent => cases hc
  case unmappedAccess => rfl
  case noticeHeaderRead =>
    simp only [exec, execNoticeHeaderRead, answer_held _ _ h]; split <;> rfl
  case directoryRead => simp only [exec, execDirectoryRead, answer_held _ _ h]; split <;> rfl
  case noticeEntriesRead => simp only [exec, execNoticeEntriesRead, answer_held _ _ h]; split <;> rfl
  case publishWordReread => simp only [exec, execPublishWordReread, answer_held _ _ h]; split <;> rfl
  case validationDone => simp only [exec, execValidationDone, answer_held _ _ h]; split <;> rfl
  case recordRead =>
    simp only [exec, execRecordRead, answer_held _ _ h]
    split
    · split <;> rfl
    · rfl
  case statusRecordWritten => simp only [exec, execStatusRecordWritten, answer_held _ _ h]; split <;> rfl
  case statusWriteFailed => simp only [exec, execStatusWriteFailed, answer_held _ _ h]; split <;> rfl
  case reportWriteDone => simp only [exec, execReportWriteDone, answer_held _ _ h]; split <;> rfl
  case reportWriteFailed => simp only [exec, execReportWriteFailed, answer_held _ _ h]; split <;> rfl
  case busReadFailed side => cases side <;> exact answer_held _ _ h
  all_goals exact answer_held _ _ h

/-- Settles O6: `answer` leaves a state that a reset holds, and the ends free it. -/
theorem heldInResetDiscards : Obligations.HeldInResetDiscards := by
  unfold Obligations.HeldInResetDiscards
  refine ⟨fun c s h hc => exec_held h hc, ?_, ?_⟩
  · intro s h
    simp only [exec, execPowerOnResetEnd, h, if_true]
  · intro s h
    simp only [exec, execFunctionResetEnd, h, if_true]

/-- Settles O50, promise by promise. -/
theorem promisesAtReset : Obligations.PromisesAtReset := by
  unfold Obligations.PromisesAtReset
  have hslots : SolverSelects State.reset ∧ SlotsHeld State.reset := slotsGood_iff.mpr ⟨resetRsv_good, rfl⟩
  have hregisters : RegistersInRange State.reset :=
    registersInRange_iff.mpr ⟨heldInRange_reset State.reset.xu, BitVec.getLsbD_zero⟩
  have hcanonical : TablesCanonical State.reset := tablesCanonical_iff.mpr emptyTables_canonical
  have heditions : EditionsOrdered State.reset := ⟨BitVec.le_refl _, fun g hg => by cases hg⟩
  have halarm : AlarmAnswered State.reset := fun _ hasserted => by cases hasserted
  exact ⟨resetMsc_coherent, halarm, heditions, resetLcs_bounded, hslots.1, hslots.2, hregisters, hcanonical,
    emptyTables_inRange⟩

end Sys2Proof.Machine

/-! PROOFS. The six registers (R175 to R179). -/

namespace Sys2Proof.Machine

open Sys2Proof.Safety

/-! ## Fields of a register -/

/-- A field of a register whose value is a number. -/
theorem toNat_extract_ofNat (n start len : Nat) (h : n < 4294967296) :
    ((BitVec.ofNat 32 n).extractLsb' start len).toNat = n / 2 ^ start % 2 ^ len := by
  rw [BitVec.extractLsb'_toNat, BitVec.toNat_ofNat, Nat.mod_eq_of_lt h, Nat.shiftRight_eq_div_pow]

theorem getLsbD_ofNat (n i : Nat) (h : i < 32) : (BitVec.ofNat 32 n).getLsbD i = decide (n / 2 ^ i % 2 = 1) := by
  rw [BitVec.getLsbD_ofNat, Nat.testBit_eq_decide_div_mod_eq]
  simp [h]

/-- The bits of a mask, listed, are 0 in a register whose value is a number. -/
theorem ofNat_and_eq_zero {n : Nat} {mask : Word32} (bits : List Nat)
    (hmask : ∀ i < 32, mask.getLsbD i = true → i ∈ bits) (h : ∀ i ∈ bits, n / 2 ^ i % 2 = 0) :
    BitVec.ofNat 32 n &&& mask = 0 := by
  apply BitVec.eq_of_getLsbD_eq
  intro i hi
  rw [BitVec.getLsbD_and, getLsbD_ofNat n i hi]
  refine Eq.trans ?_ BitVec.getLsbD_zero.symm
  cases hbit : mask.getLsbD i with
  | false => simp
  | true => simp [h i (hmask i hi hbit)]

/-- The value of CONTROL (R176). -/
def controlValue (s : State) : Nat :=
  flagNat (decide (s.xu.runState ≠ .halted)) + 4 * flagNat (decide (s.xu.runState = .halting)) + 256 * s.xu.enables.toNat

/-- The value of MUSTER (R179). -/
def musterValue (s : State) : Nat :=
  musterStateCode s.msc.state + 16 * musterKindCode s.msc.kind + 256 * orderOutcomeCode s.msc.outcome
    + 65536 * (s.msc.serial.toNat % 256)

section Reads

variable {s : State} (h : s.phase = .operating)

include h

theorem readReg_control : readReg s 0x00 4 = BitVec.ofNat 32 (controlValue s) := by simp [readReg, h, controlValue]

theorem readReg_cause : readReg s 0x04 4 = BitVec.ofNat 32 s.xu.causes.toNat := by simp [readReg, h]

theorem readReg_xbaseLo :
    readReg s 0x08 4 = (s.xu.base.extractLsb' 0 32 &&& 0xFFFFF000#32) ||| BitVec.ofNat 32 s.xu.span := by
  simp [readReg, h]

theorem readReg_xbaseHi : readReg s 0x0C 4 = s.xu.pendingHi := by simp [readReg, h]

theorem readReg_muster : readReg s 0x14 4 = BitVec.ofNat 32 (musterValue s) := by simp [readReg, h, musterValue]

end Reads

/-- RUN, HALTING and the enables (R176). -/
theorem controlValue_fields (s : State) :
    ((BitVec.ofNat 32 (controlValue s)).getLsbD 0 = true ↔ s.xu.runState ≠ .halted)
      ∧ (BitVec.ofNat 32 (controlValue s)).getLsbD 1 = false
      ∧ ((BitVec.ofNat 32 (controlValue s)).getLsbD 2 = true ↔ s.xu.runState = .halting)
      ∧ (BitVec.ofNat 32 (controlValue s)).extractLsb' 8 7 = s.xu.enables
      ∧ BitVec.ofNat 32 (controlValue s) &&& 0xFFFF80F8#32 = 0 := by
  have he : s.xu.enables.toNat < 128 := s.xu.enables.isLt
  obtain ⟨a, b, ha, hb, hvalue, hrun, hhalting⟩ : ∃ a b, a ≤ 1 ∧ b ≤ 1
      ∧ controlValue s = a + 4 * b + 256 * s.xu.enables.toNat ∧ (a = 1 ↔ s.xu.runState ≠ .halted)
      ∧ (b = 1 ↔ s.xu.runState = .halting) := by
    refine ⟨_, _, ?_, ?_, rfl, ?_, ?_⟩ <;> cases s.xu.runState <;> decide
  rw [hvalue]
  refine ⟨?_, ?_, ?_, ?_, ofNat_and_eq_zero ((List.range' 3 5) ++ (List.range' 15 17)) (by decide) ?_⟩
  · rw [getLsbD_ofNat _ _ (by decide), ← hrun, decide_eq_true_eq]; omega
  · rw [getLsbD_ofNat _ _ (by decide), decide_eq_false_iff_not]; omega
  · rw [getLsbD_ofNat _ _ (by decide), ← hhalting, decide_eq_true_eq]; omega
  · apply BitVec.eq_of_toNat_eq
    rw [toNat_extract_ofNat _ _ _ (by omega)]; omega
  · simp [List.range']
    omega

theorem causeValue_fields (c : BitVec 7) :
    (BitVec.ofNat 32 c.toNat).extractLsb' 0 7 = c ∧ (BitVec.ofNat 32 c.toNat).extractLsb' 7 25 = 0 := by
  have hc : c.toNat < 128 := c.isLt
  constructor
  · apply BitVec.eq_of_toNat_eq
    rw [toNat_extract_ofNat _ _ _ (by omega)]; omega
  · apply BitVec.eq_of_toNat_eq
    rw [toNat_extract_ofNat _ _ _ (by omega), Nat.div_eq_of_lt (show c.toNat < 2 ^ 7 from hc)]; rfl

/-- The base above the span's field, and the span in it (R177). -/
theorem xbaseLo_fields {base : Word64} {span : Nat} (hspan : span ≤ 16) :
    (((base.extractLsb' 0 32 &&& 0xFFFFF000#32) ||| BitVec.ofNat 32 span).extractLsb' 12 20 = base.extractLsb' 12 20)
      ∧ (((base.extractLsb' 0 32 &&& 0xFFFFF000#32) ||| BitVec.ofNat 32 span).extractLsb' 0 12).toNat = span := by
  have hlow : (0xFFFFF000#32).extractLsb' 0 12 = 0#12 := by decide
  have hhigh : (0xFFFFF000#32).extractLsb' 12 20 = BitVec.allOnes 20 := by decide
  have hspanLow : (BitVec.ofNat 32 span).extractLsb' 0 12 = BitVec.ofNat 12 span := by
    apply BitVec.eq_of_toNat_eq
    rw [toNat_extract_ofNat _ _ _ (by omega), BitVec.toNat_ofNat]; omega
  have hspanHigh : (BitVec.ofNat 32 span).extractLsb' 12 20 = 0#20 := by
    apply BitVec.eq_of_toNat_eq
    rw [toNat_extract_ofNat _ _ _ (by omega), Nat.div_eq_of_lt (by omega)]; rfl
  have hbase : (base.extractLsb' 0 32).extractLsb' 12 20 = base.extractLsb' 12 20 := by
    ext i hi
    simp only [BitVec.getElem_extractLsb', BitVec.getLsbD_extractLsb', Nat.zero_add]
    simp [show 12 + i < 32 by omega]
  constructor
  · rw [BitVec.extractLsb'_or, BitVec.extractLsb'_and, hhigh, hspanHigh, hbase, BitVec.and_allOnes, BitVec.or_zero]
  · rw [BitVec.extractLsb'_or, BitVec.extractLsb'_and, hlow, hspanLow]
    simp only [BitVec.and_zero, BitVec.zero_or, BitVec.toNat_ofNat]
    omega

/-- State, kind, outcome and the low byte of the serial (R179). -/
theorem musterValue_fields (s : State) :
    ((BitVec.ofNat 32 (musterValue s)).extractLsb' 0 3).toNat = musterStateCode s.msc.state
      ∧ ((BitVec.ofNat 32 (musterValue s)).extractLsb' 4 2).toNat = musterKindCode s.msc.kind
      ∧ ((BitVec.ofNat 32 (musterValue s)).extractLsb' 8 4).toNat = orderOutcomeCode s.msc.outcome
      ∧ (BitVec.ofNat 32 (musterValue s)).extractLsb' 16 8 = s.msc.serial.extractLsb' 0 8
      ∧ BitVec.ofNat 32 (musterValue s) &&& 0xFF00F0C8#32 = 0 := by
  have hstate : musterStateCode s.msc.state ≤ 3 := by cases s.msc.state <;> decide
  have hkind : musterKindCode s.msc.kind ≤ 2 := by cases s.msc.kind <;> decide
  have houtcome : orderOutcomeCode s.msc.outcome ≤ 6 := by cases s.msc.outcome <;> decide
  have hserial : (s.msc.serial.extractLsb' 0 8).toNat = s.msc.serial.toNat % 256 := by
    simp [BitVec.extractLsb'_toNat]
  unfold musterValue
  generalize musterStateCode s.msc.state = a at hstate
  generalize musterKindCode s.msc.kind = b at hkind
  generalize orderOutcomeCode s.msc.outcome = c at houtcome
  refine ⟨?_, ?_, ?_, ?_, ofNat_and_eq_zero (3 :: 6 :: 7 :: List.range' 12 4 ++ List.range' 24 8) (by decide) ?_⟩
  · rw [toNat_extract_ofNat _ _ _ (by omega)]; omega
  · rw [toNat_extract_ofNat _ _ _ (by omega)]; omega
  · rw [toNat_extract_ofNat _ _ _ (by omega)]; omega
  · apply BitVec.eq_of_toNat_eq
    rw [toNat_extract_ofNat _ _ _ (by omega), hserial]; omega
  · simp [List.range']
    omega

/-! ## The commands of a write (R175 to R179) -/

theorem writeCommands_muster (v : Word32) :
    (v.extractLsb' 0 4 = 1#4 → writeCommands 0x14 4 v = [.callReal])
      ∧ (v.extractLsb' 0 4 = 2#4 → writeCommands 0x14 4 v = [.callDrill])
      ∧ (v.extractLsb' 0 4 = 3#4 → writeCommands 0x14 4 v = [.standDown])
      ∧ (v.extractLsb' 0 4 = 0#4 ∨ 3#4 < v.extractLsb' 0 4 → writeCommands 0x14 4 v = [.badOrder (v.extractLsb' 0 4)]) := by
  have hwrite : writeCommands 0x14 4 v =
      if v.extractLsb' 0 4 = 1 then [.callReal] else if v.extractLsb' 0 4 = 2 then [.callDrill]
      else if v.extractLsb' 0 4 = 3 then [.standDown] else [.badOrder (v.extractLsb' 0 4)] := rfl
  rw [hwrite]
  refine ⟨fun h => by rw [h]; rfl, fun h => by rw [h]; rfl, fun h => by rw [h]; rfl, ?_⟩
  rintro (h | h)
  · rw [h]; rfl
  · rw [if_neg, if_neg, if_neg] <;> (intro heq; rw [heq] at h; revert h; decide)

theorem unmapped_access (s : State) {offset size : Nat} (v : Word32)
    (h : offset ∉ [0x00, 0x04, 0x08, 0x0C, 0x10, 0x14] ∨ size ≠ 4) :
    readReg s offset size = 0 ∧ writeCommands offset size v = [.unmappedAccess offset size (v.zeroExtend 64)] := by
  obtain h | h := h
  · simp only [List.mem_cons, List.not_mem_nil, or_false, not_or] at h
    obtain ⟨h0, h4, h8, hC, h10, h14⟩ := h
    constructor
    · simp [readReg, h0, h4, h8, hC, h10, h14]
    · simp [writeCommands, h0, h4, h8, hC, h10, h14]
  · simp [readReg, writeCommands, h]

/-- Settles O11: the commands of each write, and the fields of each read by the number that the register holds. -/
theorem controlAndUnmapped : Obligations.ControlAndUnmapped := by
  unfold Obligations.ControlAndUnmapped
  refine ⟨fun v => ⟨rfl, rfl, rfl, rfl, rfl, writeCommands_muster v⟩, ?_, ?_, fun s offset size v h => unmapped_access s v h,
    fun s offset size v => rfl⟩
  · intro s h hrange
    obtain ⟨hspan, hlow, hhigh, -, -⟩ := hrange
    obtain ⟨hrun, hreset, hhalting, henables, hrest⟩ := controlValue_fields s
    obtain ⟨hcauses, hzero⟩ := causeValue_fields s.xu.causes
    obtain ⟨hbase, hspan'⟩ := xbaseLo_fields (base := s.xu.base) hspan
    obtain ⟨hstate, hkind, houtcome, hserial, hmuster⟩ := musterValue_fields s
    rw [readReg_control h, readReg_cause h, readReg_xbaseLo h, readReg_xbaseHi h, readReg_survey h, readReg_muster h]
    refine ⟨hrun, hreset, hhalting, henables, hrest, hcauses, hzero, hbase, hspan', rfl, ?_, hstate, hkind, houtcome, hserial,
      hmuster⟩
    rw [BitVec.toNat_ofNat]
    omega
  · intro s offset size h
    simp [readReg, h]

end Sys2Proof.Machine

/-! PROOFS. The held forms of the tables' records, field by field (R2 to R15, R47, R51, R109, R114, R115, R191, R194). -/

namespace Sys2Proof.Machine

open Sys2Proof.Safety

/-! ## Fields (R2, R191) -/

theorem clampNat_eq {lo hi : Nat} (n : Nat) (h : lo ≤ hi) : clampNat lo hi n = max lo (min hi n) := by
  unfold clampNat; split <;> (try split) <;> omega

theorem clampNat_zero (hi n : Nat) : clampNat 0 hi n = min hi n := by simp [clampNat_eq]

theorem clampInt_eq {lo hi : Int} (n : Int) (h : lo ≤ hi) : clampInt lo hi n = max lo (min hi n) := by
  unfold clampInt; split <;> (try split) <;> omega

theorem u16_lt (bs : List Byte) (o : Nat) : u16 bs o < 65536 := by
  have hlow := u8_lt bs o
  have hhigh := u8_lt bs (o + 1)
  unfold u16; omega

theorem toNat_u16 (bs : List Byte) (o : Nat) : (BitVec.ofNat 16 (u16 bs o)).toNat = u16 bs o := by
  rw [BitVec.toNat_ofNat, Nat.mod_eq_of_lt (u16_lt bs o)]

theorem i16_eq (bs : List Byte) (o : Nat) :
    i16 bs o = if u16 bs o < 32768 then (u16 bs o : Int) else (u16 bs o : Int) - 65536 := by
  have h := u16_lt bs o
  rw [i16, BitVec.toInt_eq_toNat_cond, toNat_u16]
  split <;> split <;> omega

theorem textHeld_textAt (bs : List Byte) (off n : Nat) : TextHeld bs off n (textAt bs off n) := by
  refine ⟨textAt_length .., fun i hi => ?_⟩
  simp [textAt, byteAt, hi]

theorem getD_of_eq {α : Type} {o : Option α} {k d : α} (h : o = some k) : o.getD d = k := by rw [h]; rfl

/-- A list read from consecutive fields, at an index within its count. -/
theorem getElem?_map_range {α : Type} (f : Nat → α) {n i : Nat} (h : i < n) : ((List.range n).map f)[i]? = some (f i) := by
  simp [h]

/-! ## Records -/

theorem parseExits_get {bs : List Byte} {i : Nat} (h : i < min 8 (u8 bs 12)) :
    ∃ a, (parseExits bs)[i]? = some (u16 bs (32 + 4 * i), a)
      ∧ ∀ c, exitCodeOf (u8 bs (34 + 4 * i)) = some c → a = c := by
  refine ⟨_, getElem?_map_range _ (by rwa [clampNat_zero]), fun c hc => getD_of_eq hc⟩

theorem stationKindOf_cabin {n : Nat} (h : n = 1) : stationKindOf n = some .cabin := by subst h; rfl
theorem stationKindOf_waypoint {n : Nat} (h : n = 2) : stationKindOf n = some .waypoint := by subst h; rfl
theorem stationKindOf_lobby {n : Nat} (h : n = 3) : stationKindOf n = some .lobby := by subst h; rfl

theorem parseStation_kind {bs : List Byte} {k : StationKind} (h : stationKindOf (u8 bs 1) = some k) :
    (parseStation bs).kind = k := by
  unfold parseStation
  dsimp only
  split <;> simp_all

theorem parseStation_essential (bs : List Byte) : (parseStation bs).essential = decide (u8 bs 13 = 1) := by
  unfold parseStation
  dsimp only
  split <;> rfl

theorem parseStation_cabin {bs : List Byte} (h : u8 bs 1 = 1) :
    (parseStation bs).assigned = u8 bs 14 ∧ (parseStation bs).rotation = 0 ∧ (parseStation bs).tag = 0
      ∧ (parseStation bs).selMask = 0 ∧ (parseStation bs).selValue = 0 ∧ (parseStation bs).landmarks = []
      ∧ (parseStation bs).served = [] := by
  unfold parseStation
  rw [stationKindOf_cabin h]
  exact ⟨rfl, rfl, rfl, rfl, rfl, rfl, rfl⟩

/-- The fields that both kinds of screen hold (R12, R13). -/
theorem parseStation_screen {bs : List Byte} (h : u8 bs 1 = 2 ∨ u8 bs 1 = 3) :
    (parseStation bs).assigned = 0 ∧ (parseStation bs).rotation = u8 bs 15
      ∧ (parseStation bs).tag.toNat = u16 bs 16 ∧ (parseStation bs).selMask.toNat = u16 bs 18
      ∧ (parseStation bs).selValue.toNat = u16 bs 20
      ∧ (parseStation bs).served = (List.range (min 2 (u8 bs 23))).map fun i => u8 bs (28 + i) := by
  unfold parseStation
  obtain h | h := h
  · rw [stationKindOf_waypoint h, ← clampNat_zero]
    exact ⟨rfl, rfl, toNat_u16 .., toNat_u16 .., toNat_u16 .., rfl⟩
  · rw [stationKindOf_lobby h, ← clampNat_zero]
    exact ⟨rfl, rfl, toNat_u16 .., toNat_u16 .., toNat_u16 .., rfl⟩

theorem parseStation_waypoint {bs : List Byte} (h : u8 bs 1 = 2) :
    (parseStation bs).landmarks = (List.range (min 4 (u8 bs 22))).map fun i => u8 bs (24 + i) := by
  unfold parseStation
  rw [stationKindOf_waypoint h, ← clampNat_zero]

theorem parseStation_lobby {bs : List Byte} (h : u8 bs 1 = 3) : (parseStation bs).landmarks = [] := by
  unfold parseStation
  rw [stationKindOf_lobby h]

/-- A step by its kind byte, its dwell clamped (R109). -/
theorem parseStep_kinds (bs : List Byte) (k : Nat) :
    (u8 bs (4 + 8 * k) = 0 → parseStep bs k = .empty)
      ∧ (u8 bs (4 + 8 * k) = 1 → parseStep bs k = .programme (max 2 (min 120 (u8 bs (4 + 8 * k + 2)))))
      ∧ (u8 bs (4 + 8 * k) = 2 → parseStep bs k = .landmarks (max 2 (min 120 (u8 bs (4 + 8 * k + 2)))))
      ∧ (u8 bs (4 + 8 * k) = 3 →
          parseStep bs k = .notice (u8 bs (4 + 8 * k + 1)) (max 2 (min 120 (u8 bs (4 + 8 * k + 2)))))
      ∧ (u8 bs (4 + 8 * k) = 4 →
          parseStep bs k = .loop (u8 bs (4 + 8 * k + 3)) (max 1 (min 15 (u8 bs (4 + 8 * k + 4))))) := by
  rw [← clampNat_eq _ (by decide), ← clampNat_eq _ (by decide)]
  unfold parseStep
  dsimp only
  exact ⟨fun h => by rw [h]; rfl, fun h => by rw [h]; rfl, fun h => by rw [h]; rfl, fun h => by rw [h]; rfl,
    fun h => by rw [h]; rfl⟩

theorem parseWeights_eq (bs : List Byte) (off fixedOff : Nat) : parseWeights bs off fixedOff =
    { corridor := min 15 (u8 bs off), stairUp := min 15 (u8 bs (off + 1)), stairDown := min 15 (u8 bs (off + 2))
      lift := min 15 (u8 bs (off + 3)), exterior := min 15 (u8 bs (off + 4)), liftFixed := min 2000 (u16 bs fixedOff) } := by
  simp only [parseWeights, clampNat_zero]

theorem parseSettings_zero {bs : List Byte} (h : zeroBytes bs 0 32 = true) : parseSettings bs = defaultSettings := if_pos h

theorem parseSettings_of_nonzero {bs : List Byte} (h : zeroBytes bs 0 32 = false) : parseSettings bs =
    { normal := parseWeights bs 0 12, muster := parseWeights bs 5 14
      walkRate := max 300 (min 1500 (u16 bs 16)), initialOffset := max (-720) (min 840 (i16 bs 18))
      lead := max 5 (min 180 (u8 bs 20)), linger := min 30 (u8 bs 21)
      alarmSense := (alarmSenseOf (u8 bs 22)).getD .level, missLimit := max 2 (min 15 (u8 bs 23))
      refreshInterval := max 5 (min 600 (u16 bs 24)), fullRefreshPeriod := max 2 (min 32 (u8 bs 26)) } := by
  simp only [parseSettings, h, Bool.false_eq_true, if_false, clampNat_zero]
  simp only [clampNat_eq _ (show 300 ≤ 1500 by decide), clampNat_eq _ (show 5 ≤ 180 by decide),
    clampNat_eq _ (show 2 ≤ 15 by decide), clampNat_eq _ (show 5 ≤ 600 by decide), clampNat_eq _ (show 2 ≤ 32 by decide),
    clampInt_eq _ (show (-720 : Int) ≤ 840 by decide)]

/-- Settles O49: each parser's fields by the clamps and decoders of its layout, the kinds of a station and of a step apart. -/
theorem heldForms : Obligations.HeldForms := by
  unfold Obligations.HeldForms
  refine ⟨fun bs o => ⟨rfl, ?_, i16_eq bs o⟩, fun bs => rfl, ?_, ?_, ?_, ?_, ?_, ?_, ?_, ?_, ?_, ?_, rfl, rfl, rfl, rfl, rfl,
    rfl, rfl⟩
  · simp only [u32, u16, Nat.add_assoc, Nat.reduceAdd]; omega
  · rintro bs e rfl
    exact ⟨fun k h => getD_of_eq h, fun r h => getD_of_eq h, fun p h => getD_of_eq h, rfl, rfl,
      clampNat_eq _ (by decide), rfl⟩
  · rintro bs st rfl
    obtain ⟨hnode, hlabel, hexits, -⟩ := parseStation_fields bs
    refine ⟨fun k => parseStation_kind, hnode, hlabel ▸ textHeld_textAt .., ?_, ?_, ?_, parseStation_cabin, ?_, ?_,
      parseStation_lobby⟩
    · rw [parseStation_essential, decide_eq_true_eq]
    · simp [hexits, parseExits, clampNat_zero]
    · intro i hi
      rw [hexits]
      exact parseExits_get hi
    · intro h
      obtain ⟨hassigned, hrotation, htag, hmask, hvalue, hserved⟩ := parseStation_screen h
      refine ⟨hassigned, hrotation, htag, hmask, hvalue, ?_, fun i hi => ?_⟩
      · simp [hserved]
      · rw [hserved, getElem?_map_range _ hi]
    · intro h
      refine ⟨?_, fun i hi => ?_⟩
      · simp [parseStation_waypoint h]
      · rw [parseStation_waypoint h, getElem?_map_range _ hi]
  · rintro bs k rfl
    exact ⟨decide_eq_true_iff, rfl, textHeld_textAt .., rfl⟩
  · rintro bs l rfl
    exact ⟨rfl, textHeld_textAt ..⟩
  · rintro bs e rfl
    exact ⟨fun c h => getD_of_eq h, decide_eq_true_iff, clampNat_zero .., clampNat_eq _ (by decide), rfl,
      toNat_u16 .., textHeld_textAt .., textHeld_textAt ..⟩
  · rintro bs q rfl
    refine ⟨by simp [parseRotation], ?_⟩
    rintro k d hk rfl
    exact ⟨_, getElem?_map_range _ hk, parseStep_kinds bs k⟩
  · rintro bs n rfl
    refine ⟨rfl, by simp [parseNotice], fun i hi => ?_⟩
    exact ⟨_, getElem?_map_range _ hi, textHeld_textAt ..⟩
  · rintro bs j rfl
    exact ⟨rfl, decide_eq_true_iff, toNat_u16 .., toNat_u16 .., clampNat_zero .., clampNat_zero ..,
      clampNat_zero .., clampNat_eq _ (by decide)⟩
  · rintro bs c rfl
    exact ⟨clampInt_eq _ (by decide), clampNat_zero ..⟩
  · rintro bs c rfl
    refine ⟨parseSettings_zero, fun h => ?_⟩
    rw [parseSettings_of_nonzero h]
    exact ⟨parseWeights_eq .., parseWeights_eq .., rfl, rfl, rfl, rfl, fun a ha => getD_of_eq ha, rfl, rfl, rfl⟩

end Sys2Proof.Machine

/-! PROOFS. One reference period with no command waiting (logs 1, 8, 38, 40, 54): which events are due, and what each timer
is a period later. -/

namespace Sys2Proof.Machine

open Sys2Proof.Safety

/-! ## The events that are due -/

theorem mem_event {b : Bool} {i j : Instr} : i ∈ event b j ↔ b = true ∧ i = j := by
  unfold event
  split <;> simp [*]

theorem event_mem {b : Bool} {i : Instr} (h : b = true) : i ∈ event b i := mem_event.mpr ⟨h, rfl⟩

section Due

variable {s : State} (h : s.phase = .operating)

include h

/-- The groups of events of a part that works. -/
theorem mem_dueEvents {i : Instr} : i ∈ dueEvents s ↔
    i ∈ clockEvents s.clk ∨ i ∈ pinEvents s.msc ∨ i ∈ event (decide (s.msc.calledTimer = some 0)) .calledTimerExpiry
      ∨ i ∈ event (decide (s.msc.holdTimer = some 0)) .standDownHoldExpiry
      ∨ i ∈ event (decide (s.xu.countdown = some 0)) .surveyCountdownExpiry
      ∨ i ∈ rotEvents s ∨ i ∈ refreshEvents s ∨ i ∈ lineEvents s ∨ i ∈ busEvents s := by
  simp only [dueEvents, h, List.mem_append, or_assoc]

theorem clockEvents_due {i : Instr} (hi : i ∈ clockEvents s.clk) : i ∈ dueEvents s := (mem_dueEvents h).mpr (.inl hi)

theorem pinEvents_due {i : Instr} (hi : i ∈ pinEvents s.msc) : i ∈ dueEvents s := (mem_dueEvents h).mpr (.inr (.inl hi))

theorem calledTimer_due (hzero : s.msc.calledTimer = some 0) : Instr.calledTimerExpiry ∈ dueEvents s :=
  (mem_dueEvents h).mpr (.inr (.inr (.inl (event_mem (decide_eq_true hzero)))))

theorem holdTimer_due (hzero : s.msc.holdTimer = some 0) : Instr.standDownHoldExpiry ∈ dueEvents s :=
  (mem_dueEvents h).mpr (.inr (.inr (.inr (.inl (event_mem (decide_eq_true hzero))))))

theorem surveyCountdown_due (hzero : s.xu.countdown = some 0) : Instr.surveyCountdownExpiry ∈ dueEvents s :=
  (mem_dueEvents h).mpr (.inr (.inr (.inr (.inr (.inl (event_mem (decide_eq_true hzero)))))))

theorem rotEvents_due {i : Instr} (hi : i ∈ rotEvents s) : i ∈ dueEvents s :=
  (mem_dueEvents h).mpr (.inr (.inr (.inr (.inr (.inr (.inl hi))))))

theorem refreshEvents_due {i : Instr} (hi : i ∈ refreshEvents s) : i ∈ dueEvents s :=
  (mem_dueEvents h).mpr (.inr (.inr (.inr (.inr (.inr (.inr (.inl hi)))))))

theorem lineEvents_due {i : Instr} (hi : i ∈ lineEvents s) : i ∈ dueEvents s :=
  (mem_dueEvents h).mpr (.inr (.inr (.inr (.inr (.inr (.inr (.inr (.inl hi))))))))

theorem busEvents_due {i : Instr} (hi : i ∈ busEvents s) : i ∈ dueEvents s :=
  (mem_dueEvents h).mpr (.inr (.inr (.inr (.inr (.inr (.inr (.inr (.inr hi))))))))

end Due

theorem voyageSecond_mem {c : ClockState} (h : 25000000 ≤ c.prescale) : Instr.voyageSecond ∈ clockEvents c :=
  List.mem_append_left _ (event_mem (decide_eq_true h))

theorem minuteEvent_mem {c : ClockState} (h : c.minuteDue = true) : Instr.minuteEvent ∈ clockEvents c :=
  List.mem_append_right _ (event_mem h)

/-- A level of the alarm's pin that was held for 20 ms (R65). -/
theorem alarmEvents_mem {c : MscState} {b : Bool} (h : PinAt b c.alarmPin) :
    (c.alarm = none → Instr.alarmInitialLevel b ∈ pinEvents c)
      ∧ (c.alarm = some (!b) → Instr.alarmQualifiedTransition b ∈ pinEvents c) := by
  have hheld := (pinHeld_iff b c.alarmPin).mpr h
  obtain ⟨rfl, -⟩ := h
  constructor <;> intro halarm <;> unfold pinEvents <;> rw [halarm] <;> refine List.mem_append_left _ ?_
  · exact event_mem hheld
  · dsimp only
    rw [Bool.not_not]
    exact event_mem hheld

/-- A level of the reserve's pin that was held for 20 ms (R86). -/
theorem reserveEvents_mem {c : MscState} {b : Bool} (h : PinAt b c.reservePin) :
    (c.reserveLevel = none → Instr.reserveInitialLevel b ∈ pinEvents c)
      ∧ (c.reserveLevel = some (!b) →
          (if b then Instr.reserveQualifiedRise else Instr.reserveQualifiedFall) ∈ pinEvents c) := by
  have hheld := (pinHeld_iff b c.reservePin).mpr h
  constructor
  · intro hlevel
    obtain ⟨rfl, -⟩ := h
    unfold pinEvents
    rw [hlevel]
    exact List.mem_append_right _ (event_mem hheld)
  · intro hlevel
    unfold pinEvents
    rw [hlevel]
    refine List.mem_append_right _ ?_
    cases b <;> exact event_mem hheld

theorem rotEvents_mem {s : State} {x : Nat} {r : RotState} (hstate : s.msc.state = .standby)
    (hget : tblGet s.pco.rots x = some r) (hzero : r.countdown = some 0) :
    (∀ k, r.position = .step k → Instr.stepCountdownExpiry x ∈ rotEvents s)
      ∧ ∀ i, r.position = .interj i → Instr.interjectionCountdownExpiry x ∈ rotEvents s := by
  have hx : x ∈ tblKeys s.pco.rots := (mem_keys ..).mpr (by simp [tblHas, hget])
  constructor
  · intro k hk
    refine List.mem_flatMap.mpr ⟨x, hx, List.mem_append_left _ (event_mem ?_)⟩
    simp [expiredStep, hget, hk, hstate, hzero]
  · intro i hi
    refine List.mem_flatMap.mpr ⟨x, hx, List.mem_append_right _ (event_mem ?_)⟩
    simp [expiredInterj, hget, hi, hstate, hzero]

/-- Only a station with a record has a refresh countdown. -/
theorem mem_keys_of_door {l : LcsState} {x : Nat} {d : DoorRec} (h : (lineRec l x).door = some d) : x ∈ tblKeys l.recs := by
  rw [mem_keys, tblHas]
  cases hget : tblGet l.recs x with
  | some r => rfl
  | none => simp [lineRec, tblGetD, hget, emptyLineRec] at h

theorem refreshEvents_mem {s : State} {x : Nat} {d : DoorRec} (hdoor : (lineRec s.lcs x).door = some d)
    (hzero : d.refresh = some 0) : Instr.refreshCountdownExpiry x ∈ refreshEvents s :=
  List.mem_flatMap.mpr ⟨x, mem_keys_of_door hdoor, event_mem (by simp [refreshRunOut, hdoor, hzero])⟩

/-- The events of a line by its Line Controller (R126, R139, R140). -/
theorem lineEvents_mem {s : State} {n : Nat} {b : LineCtl} (h : s.lcs.lines[n]? = some b) :
    (b.silence = some 0 → Instr.silentCycleExpiry n ∈ lineEvents s)
      ∧ (turnReady b = true → Instr.turn n ∈ lineEvents s)
      ∧ (∀ t, b.txn = some t → t.left = 0 → t.coming = none → Instr.replyWindowTimeout n ∈ lineEvents s)
      ∧ (∀ t, b.txn = some t → t.left = 0 → t.coming = some 0 → Instr.answerDiscarded n ∈ lineEvents s) := by
  have hn : n ∈ List.range s.lcs.lines.length := List.mem_range.mpr (List.getElem?_eq_some_iff.mp h).1
  have hb : lineAt s.lcs n = b := by simp [lineAt, List.getD_eq_getElem?_getD, h]
  unfold lineEvents
  refine ⟨fun hs => ?_, fun ht => ?_, fun t ht hleft hcoming => ?_, fun t ht hleft hcoming => ?_⟩ <;>
    refine List.mem_flatMap.mpr ⟨n, hn, ?_⟩ <;> rw [hb]
  · exact List.mem_append_left _ (List.mem_append_left _ (List.mem_append_left _ (event_mem (decide_eq_true hs))))
  · exact List.mem_append_left _ (List.mem_append_left _ (List.mem_append_right _ (event_mem ht)))
  · exact List.mem_append_left _ (List.mem_append_right _ (event_mem (by simp [ht, windowClosed, hleft, hcoming])))
  · exact List.mem_append_right _ (event_mem (by simp [ht, hleft, hcoming]))

/-- The ends of the bus accesses, and of a halt (R165, R182, R183, R188). -/
theorem busEvents_mem (s : State) :
    (∀ v, s.xu.survey = some v → surveyReadOver v = true → Instr.busReadFailed .survey ∈ busEvents s)
      ∧ (∀ v, s.xu.survey = some v → statusWriteOver v = true → Instr.statusWriteFailed ∈ busEvents s)
      ∧ (∀ g, s.xu.stage = some g → stagingReadOver g = true → Instr.busReadFailed .staging ∈ busEvents s)
      ∧ (∀ w, s.xu.reportWrite = some w → w.left = 0 → Instr.reportWriteFailed ∈ busEvents s)
      ∧ (haltReady s = true → Instr.haltComplete ∈ busEvents s) := by
  unfold busEvents
  refine ⟨fun v hv ho => ?_, fun v hv ho => ?_, fun g hg ho => ?_, fun w hw hl => ?_, fun hr => ?_⟩
  · refine List.mem_append_left _ (List.mem_append_left _ (List.mem_append_left _ (List.mem_append_left _ (event_mem ?_))))
    simp [hv, ho]
  · refine List.mem_append_left _ (List.mem_append_left _ (List.mem_append_left _ (List.mem_append_right _ (event_mem ?_))))
    simp [hv, ho]
  · refine List.mem_append_left _ (List.mem_append_left _ (List.mem_append_right _ (event_mem ?_)))
    simp [hg, ho]
  · refine List.mem_append_left _ (List.mem_append_right _ (event_mem ?_))
    simp [hw, hl]
  · exact List.mem_append_right _ (event_mem hr)

/-! ## A period later -/

/-- A part that works, one reference period later (log 1). -/
def laterOf (s : State) : State :=
  { s with
    clk := tickClock s.clk, msc := tickMsc s.periods s.msc, pco := tickPco (decide (s.msc.state = .standby)) s.pco
    lcs := tickLcs s.periods s.lcs, xu := tickXu s.xu, periods := s.periods + 1 }

theorem step_idle {s : State} (h : s.pending = []) : step s = .next (tick s) := by simp [step, h]

theorem tick_operating {s : State} (hq : s.pending = []) (h : s.phase = .operating) :
    tick s = { laterOf s with pending := dueEvents (laterOf s) } := by
  simp [tick, tickTimers, h, hq, laterOf]

theorem tick_function {s : State} (hq : s.pending = []) (h : s.phase = .function) :
    tick s = { s with
      clk := tickClock s.clk, resetLeft := s.resetLeft - 1, periods := s.periods + 1
      pending := clockEvents (tickClock s.clk) ++ event (decide (s.resetLeft - 1 = 0)) .functionResetEnd } := by
  simp [tick, tickTimers, h, hq, dueEvents]

theorem tick_powerOn {s : State} (hq : s.pending = []) (h : s.phase = .powerOn) :
    tick s = { s with periods := s.periods + 1 } := by
  obtain ⟨phase, resetLeft, clk, sms, rsv, pgu, msc, pco, lcs, xu, periods, pending⟩ := s
  simp only at hq h
  subst hq h
  rfl

theorem tickPco_rots (standby : Bool) (p : PcoState) (x : Nat) : tblGet (tickPco standby p).rots x =
    (tblGet p.rots x).map fun r => { r with countdown := if standby then count r.countdown else r.countdown } := by
  unfold tickPco
  cases standby
  · simp
  · simp

theorem tickLcs_lineRec (k : Nat) (l : LcsState) (x : Nat) :
    lineRec (tickLcs k l) x = onDoor (fun d => { d with refresh := count d.refresh }) (lineRec l x) := by
  simp only [lineRec, tickLcs, tblGetD, tblGet_map]
  cases tblGet l.recs x <;> rfl

theorem framePeriods_eq (t : Txn) : framePeriods t = 250 * (txnFrame t).length + 75000 := by
  rw [framePeriods, show bytePeriods = 250 from rfl, show windowPeriods = 75000 from rfl]; omega

/-- A transaction a period later: nearer to the close of its window, its idle time begun again, at the close, or with its
answer coming in (R124, R126, log 38). -/
theorem tickTxn_cases (n k : Nat) (t : Txn) :
    (tickTxn n k t).station = t.station ∧ (tickTxn n k t).transfer = t.transfer
      ∧ (2 ≤ t.left → (tickTxn n k t).coming = t.coming
          ∧ ((tickTxn n k t).left = t.left - 1
            ∨ framePeriods t < t.left ∧ (tickTxn n k t).left = 750 + framePeriods t))
      ∧ (t.left = 1 → (tickTxn n k t).left = 0
          ∧ ((tickTxn n k t).coming = none ∨ (tickTxn n k t).coming = some 261000))
      ∧ (t.left = 0 → (tickTxn n k t).left = 0 ∧ (tickTxn n k t).coming = count t.coming) := by
  have hframe : 75000 ≤ framePeriods t := by rw [framePeriods_eq]; omega
  unfold tickTxn
  split
  next hzero => exact ⟨rfl, rfl, by omega, by omega, fun _ => ⟨hzero, rfl⟩⟩
  next hzero =>
    split
    next hstray => exact ⟨rfl, rfl, fun _ => ⟨rfl, .inr ⟨hstray.1, rfl⟩⟩, by omega, by omega⟩
    next =>
      split
      next hone =>
        refine ⟨rfl, rfl, by omega, fun _ => ⟨rfl, ?_⟩, by omega⟩
        cases Config.answerBegun n k
        · exact .inl rfl
        · exact .inr rfl
      next hone => exact ⟨rfl, rfl, fun _ => ⟨rfl, .inl rfl⟩, by omega, by omega⟩

theorem tickLine_idle (k n : Nat) (a : LineCtl) :
    (a.txn = none → (tickLine k n a).txn = none ∧ ((tickLine k n a).idle = a.idle - 1 ∨ (tickLine k n a).idle = 750))
      ∧ (a.txn ≠ none → (tickLine k n a).idle = a.idle - 1) := by
  constructor
  · intro h
    refine ⟨by simp [tickLine, h], ?_⟩
    simp only [tickLine, h]
    split
    · exact .inr rfl
    · exact .inl rfl
  · intro h
    have hsome : a.txn.isNone = false := by simpa [Option.isSome_iff_ne_none] using h
    simp [tickLine, hsome]

theorem tickLcs_lines {k : Nat} {l : LcsState} {n : Nat} {a : LineCtl} (h : l.lines[n]? = some a) :
    (tickLcs k l).lines[n]? = some (tickLine k n a) := by simp [tickLcs, h]

theorem stagingReads_ne_nil {g : Staging} (h : g.phase ≠ .validating) : awaitsRead g = true := by
  unfold awaitsRead stagingReads
  cases hphase : g.phase with
  | validating => exact absurd hphase h
  | header => rfl
  | directory => rfl
  | entries => rfl
  | record entry leaf sub index last => rfl
  | reread => rfl

theorem stagingReadOver_tick {g : Staging} (hphase : g.phase ≠ .validating) (h : readIssued g = false ∨ g.left ≤ 1) :
    stagingReadOver { g with left := g.left - 1 } = true := by
  have hawaits : awaitsRead { g with left := g.left - 1 } = true := stagingReads_ne_nil hphase
  have hissued : readIssued { g with left := g.left - 1 } = readIssued g := rfl
  simp only [stagingReadOver, hawaits, hissued, Bool.true_and, Bool.or_eq_true, Bool.not_eq_true', decide_eq_true_eq]
  obtain h | h := h
  · exact .inl h
  · right; omega

theorem haltReady_later {s : State} (hrun : s.xu.runState = .halting) (hstage : s.xu.stage = none)
    (hsurvey : s.xu.survey = none) (hlines : ∀ l ∈ s.lcs.lines, l.service = .silent) : haltReady (laterOf s) = true := by
  have hsilent : (laterOf s).lcs.lines.all (fun l => decide (l.service = .silent)) = true := by
    rw [List.all_eq_true]
    intro b hb
    obtain ⟨n, hn, rfl⟩ := List.mem_mapIdx.mp hb
    exact decide_eq_true (hlines s.lcs.lines[n] (List.getElem_mem hn))
  simp only [haltReady, hsilent, Bool.and_true]
  simp [laterOf, tickXu, hrun, hstage, hsurvey]

/-- Settles O3: a period moves every timer as `laterOf` says, and each event is due as soon as its timer has run out. -/
theorem idleStepIsOnePeriod : Obligations.IdleStepIsOnePeriod := by
  unfold Obligations.IdleStepIsOnePeriod
  refine ⟨?_, ?_, fun s hq h => by rw [step_idle hq, tick_powerOn hq h]⟩
  · intro s hq h
    have hp : (laterOf s).phase = .operating := h
    obtain ⟨hread, hstatus, hstaging, hreport, hhalt⟩ := busEvents_mem (laterOf s)
    refine ⟨_, (step_idle hq).trans (congrArg _ (tick_operating hq h)), rfl, rfl, fun hc => clockEvents_due hp (voyageSecond_mem hc),
      fun hm => clockEvents_due hp (minuteEvent_mem hm), rfl, calledTimer_due hp, holdTimer_due hp, tickPin_later ..,
      tickPin_later .., ?_, ?_, rfl, rfl, surveyCountdown_due hp, ?_, ?_, ?_, ?_, ?_, ?_, ?_, ?_, ?_,
      fun hr hs hv hl => busEvents_due hp (hhalt (haltReady_later hr hs hv hl)), rfl, ?_, ?_, ?_, ?_, ?_, rfl, rfl, rfl, rfl,
      rfl⟩
    case refine_1 =>
      intro b hb
      have hevents := alarmEvents_mem (c := (laterOf s).msc) hb
      exact ⟨fun ha => pinEvents_due hp (hevents.1 ha), fun ha => pinEvents_due hp (hevents.2 ha)⟩
    case refine_2 =>
      intro b hb
      have hevents := reserveEvents_mem (c := (laterOf s).msc) hb
      exact ⟨fun ha => pinEvents_due hp (hevents.1 ha), fun ha => pinEvents_due hp (hevents.2 ha)⟩
    case refine_3 | refine_4 | refine_5 =>
      intro b l hv
      have hlater : (laterOf s).xu.survey = _ := congrArg (Option.map tickSurvey) hv
      refine ⟨hlater, fun hover => busEvents_due hp (hread _ hlater ?_)⟩
      simp only [tickSurvey, surveyReadOver, Bool.or_eq_true, Bool.not_eq_true', decide_eq_true_eq]
      obtain hb | hl := hover
      · exact .inl hb
      · right; omega
    case refine_6 =>
      intro x r l hv
      have hlater : (laterOf s).xu.survey = _ := congrArg (Option.map tickSurvey) hv
      refine ⟨hlater, fun hl => busEvents_due hp (hstatus _ hlater ?_)⟩
      simp only [tickSurvey, statusWriteOver, decide_eq_true_eq]
      omega
    case refine_7 =>
      rintro (hv | hv) <;> simp [laterOf, tickXu, hv, tickSurvey]
    case refine_8 =>
      intro hg
      simp [laterOf, tickXu, hg]
    case refine_9 =>
      intro g hg
      have hlater : (laterOf s).xu.stage = some { g with left := g.left - 1 } := by simp [laterOf, tickXu, hg]
      exact ⟨hlater, fun hphase hover => busEvents_due hp (hstaging _ hlater (stagingReadOver_tick hphase hover))⟩
    case refine_10 =>
      intro hw
      simp [laterOf, tickXu, hw]
    case refine_11 =>
      intro w hw
      have hlater : (laterOf s).xu.reportWrite = some { w with left := w.left - 1 } := by simp [laterOf, tickXu, hw]
      refine ⟨hlater, fun hl => busEvents_due hp (hreport _ hlater ?_)⟩
      show w.left - 1 = 0
      omega
    case refine_12 =>
      intro x r hr
      have hlater : tblGet (laterOf s).pco.rots x = _ :=
        (tickPco_rots (decide (s.msc.state = .standby)) s.pco x).trans (congrArg _ hr)
      simp only [Option.map_some, decide_eq_true_eq] at hlater
      refine ⟨hlater, fun n hstate hn hone => ?_⟩
      have hzero : (if s.msc.state = .standby then count r.countdown else r.countdown) = some 0 := by
        rw [if_pos hstate, hn]
        exact congrArg some (Nat.sub_eq_zero_of_le hone)
      have hevents := rotEvents_mem (s := laterOf s) hstate hlater hzero
      exact ⟨fun k hk => rotEvents_due hp (hevents.1 k hk), fun i hi => rotEvents_due hp (hevents.2 i hi)⟩
    case refine_13 =>
      intro x hx
      exact (tickPco_rots (decide (s.msc.state = .standby)) s.pco x).trans (by rw [hx]; rfl)
    case refine_14 =>
      intro x
      have hlater := tickLcs_lineRec s.periods s.lcs x
      refine ⟨hlater, fun d n hd hn hone => refreshEvents_due hp (refreshEvents_mem (d := { d with refresh := count d.refresh }) ?_ ?_)⟩
      · show (lineRec (tickLcs s.periods s.lcs) x).door = _
        rw [hlater, onDoor, hd]; rfl
      · show count d.refresh = some 0
        rw [hn]
        exact congrArg some (Nat.sub_eq_zero_of_le hone)
    case refine_15 => simp [laterOf, tickLcs]
    case refine_16 =>
      intro n a ha
      have hlater : (laterOf s).lcs.lines[n]? = some (tickLine s.periods n a) := tickLcs_lines ha
      obtain ⟨hsilence, hturn, htimeout, hdiscarded⟩ := lineEvents_mem hlater
      obtain ⟨hidle, hbusy⟩ := tickLine_idle s.periods n a
      refine ⟨_, hlater, rfl, rfl, fun hz => lineEvents_due hp (hsilence hz), ?_, hidle, hbusy, ?_⟩
      · intro hservice htxn hidle0 hquiet
        refine lineEvents_due hp (hturn ?_)
        simp [turnReady, hservice, htxn, hidle0, hquiet]
      · intro x hx
        have htxn : (tickLine s.periods n a).txn = some (tickTxn n s.periods x) := by simp [tickLine, hx]
        obtain ⟨hstation, htransfer, hgoing, hclose, hover⟩ := tickTxn_cases n s.periods x
        rw [framePeriods_eq] at hgoing
        refine ⟨_, htxn, hstation, htransfer, ?_, ?_, ?_⟩
        · intro h2
          obtain ⟨hcoming, hleft⟩ := hgoing h2
          exact ⟨hcoming, by simpa only [Nat.add_assoc] using hleft⟩
        · intro h1
          obtain ⟨hleft, hcoming⟩ := hclose h1
          exact ⟨hleft, hcoming, fun hnone => lineEvents_due hp (htimeout _ htxn hleft hnone)⟩
        · intro h0
          obtain ⟨hleft, hcoming⟩ := hover h0
          refine ⟨hleft, hcoming, fun hone => lineEvents_due hp (hdiscarded _ htxn hleft ?_)⟩
          rw [hcoming, hone]; rfl
  · intro s hq h
    refine ⟨_, (step_idle hq).trans (congrArg _ (tick_function hq h)), rfl, rfl, ?_, ?_, ?_, rfl, rfl⟩
    · exact fun hc => List.mem_append_left _ (voyageSecond_mem hc)
    · exact fun hm => List.mem_append_left _ (minuteEvent_mem hm)
    · exact fun hl => List.mem_append_right _ (event_mem (decide_eq_true (by omega)))

end Sys2Proof.Machine

/-! PROOFS. What the surveys and the report writes leave of the Exchange Unit (R181, R183), and the run state (R143, R188,
R189). -/

namespace Sys2Proof.Machine

open Sys2Proof.Safety

/-! ## What surveys and report writes leave as it was -/

section Frames

variable (f : ReportFields) (x : XuState)

theorem beginSurvey_frame :
    { beginSurvey x with survey := x.survey, surveyPending := x.surveyPending, surveyBase := x.surveyBase } = x := by
  unfold beginSurvey; split <;> rfl

theorem endSurvey_frame :
    { endSurvey x with survey := x.survey, surveyPending := x.surveyPending, surveyBase := x.surveyBase } = x := by
  obtain h | ⟨-, -, -, h⟩ := endSurvey_cases x <;> rw [h]

theorem startReports_frame :
    { startReports f x with
      survey := x.survey, surveyPending := x.surveyPending, surveyBase := x.surveyBase, reportSerial := x.reportSerial
      reportMark := x.reportMark, reportWrite := x.reportWrite, reportDue := x.reportDue, waiting := x.waiting } = x := by
  obtain h | ⟨-, ⟨-, ⟨r, rest, -, h⟩ | ⟨-, h⟩ | ⟨-, -, -, h⟩⟩ | ⟨-, h | ⟨-, h⟩⟩⟩ := startReports_cases f x <;> rw [h]
  case inr.inl.inl | inr.inl.inr.inl => rfl
  case inr.inl.inr.inr =>
    obtain h | ⟨-, -, -, h⟩ := endSurvey_cases x <;> rw [h]
  case inr.inr.inr =>
    obtain h | ⟨-, -, -, h⟩ := endSurvey_cases { x with reportDue := [] } <;> rw [h]

@[simp] theorem startReports_runState : (startReports f x).runState = x.runState :=
  (congrArg XuState.runState (startReports_frame f x) :)

@[simp] theorem startReports_causes : (startReports f x).causes = x.causes :=
  (congrArg XuState.causes (startReports_frame f x) :)

@[simp] theorem startReports_enables : (startReports f x).enables = x.enables :=
  (congrArg XuState.enables (startReports_frame f x) :)

@[simp] theorem startReports_base : (startReports f x).base = x.base := (congrArg XuState.base (startReports_frame f x) :)

@[simp] theorem startReports_span : (startReports f x).span = x.span := (congrArg XuState.span (startReports_frame f x) :)

@[simp] theorem startReports_counters : (startReports f x).counters = x.counters :=
  (congrArg XuState.counters (startReports_frame f x) :)

@[simp] theorem startReports_lastFault : (startReports f x).lastFault = x.lastFault :=
  (congrArg XuState.lastFault (startReports_frame f x) :)

@[simp] theorem startReports_status : (startReports f x).status = x.status :=
  (congrArg XuState.status (startReports_frame f x) :)

@[simp] theorem startReports_reportLast : (startReports f x).reportLast = x.reportLast :=
  (congrArg XuState.reportLast (startReports_frame f x) :)

@[simp] theorem startReports_msiSent : (startReports f x).msiSent = x.msiSent :=
  (congrArg XuState.msiSent (startReports_frame f x) :)

@[simp] theorem startReports_msiDelivery : (startReports f x).msiDelivery = x.msiDelivery :=
  (congrArg XuState.msiDelivery (startReports_frame f x) :)

@[simp] theorem beginSurvey_causes : (beginSurvey x).causes = x.causes := (congrArg XuState.causes (beginSurvey_frame x) :)

@[simp] theorem beginSurvey_counters : (beginSurvey x).counters = x.counters :=
  (congrArg XuState.counters (beginSurvey_frame x) :)

@[simp] theorem beginSurvey_interval : (beginSurvey x).interval = x.interval :=
  (congrArg XuState.interval (beginSurvey_frame x) :)

@[simp] theorem beginSurvey_countdown : (beginSurvey x).countdown = x.countdown :=
  (congrArg XuState.countdown (beginSurvey_frame x) :)

@[simp] theorem endSurvey_causes : (endSurvey x).causes = x.causes := (congrArg XuState.causes (endSurvey_frame x) :)

@[simp] theorem endSurvey_runState : (endSurvey x).runState = x.runState := (congrArg XuState.runState (endSurvey_frame x) :)

@[simp] theorem endSurvey_base : (endSurvey x).base = x.base := (congrArg XuState.base (endSurvey_frame x) :)

@[simp] theorem endSurvey_span : (endSurvey x).span = x.span := (congrArg XuState.span (endSurvey_frame x) :)

@[simp] theorem endSurvey_reportWrite : (endSurvey x).reportWrite = x.reportWrite :=
  (congrArg XuState.reportWrite (endSurvey_frame x) :)

@[simp] theorem endSurvey_reportDue : (endSurvey x).reportDue = x.reportDue :=
  (congrArg XuState.reportDue (endSurvey_frame x) :)

@[simp] theorem endSurvey_waiting : (endSurvey x).waiting = x.waiting := (congrArg XuState.waiting (endSurvey_frame x) :)

@[simp] theorem endSurvey_counters : (endSurvey x).counters = x.counters := (congrArg XuState.counters (endSurvey_frame x) :)

@[simp] theorem endSurvey_lastFault : (endSurvey x).lastFault = x.lastFault :=
  (congrArg XuState.lastFault (endSurvey_frame x) :)

@[simp] theorem endSurvey_status : (endSurvey x).status = x.status := (congrArg XuState.status (endSurvey_frame x) :)

@[simp] theorem endSurvey_reportMark : (endSurvey x).reportMark = x.reportMark :=
  (congrArg XuState.reportMark (endSurvey_frame x) :)

theorem baseValid_of_held {x y : XuState} (h : xuHeld y = xuHeld x) : baseValid y = baseValid x := by
  have hspan : y.span = x.span := congrArg XuHeld.span h
  simp [baseValid, hspan]

@[simp] theorem startReports_baseValid : baseValid (startReports f x) = baseValid x :=
  baseValid_of_held (startReports_held f x)

/-- The registers are among what is held (R159, R175, R177). -/
theorem sameRegisters_of_held {x y : XuState} (h : xuHeld y = xuHeld x) : SameRegisters x y :=
  ⟨congrArg XuHeld.enables h, congrArg XuHeld.base h, congrArg XuHeld.span h, congrArg XuHeld.pendingHi h,
    congrArg XuHeld.interval h, congrArg XuHeld.applied h, congrArg XuHeld.settled h, congrArg XuHeld.settle h,
    congrArg XuHeld.stage h⟩

end Frames

/-- With no report write in progress and a valid base the first one due begins (R183). -/
theorem startReports_due {f : ReportFields} {x : XuState} {r : WriteReason} {rest : List WriteReason}
    (hwrite : x.reportWrite = none) (hbase : baseValid x = true) (hdue : x.reportDue = r :: rest) :
    startReports f x = beginReport f r { x with reportDue := rest } := by
  simp [startReports, hwrite, hbase, hdue]

theorem startReports_of_write {f : ReportFields} {x : XuState} (h : x.reportWrite ≠ none) : startReports f x = x := by
  unfold startReports
  split
  · rfl
  · rename_i hnone; exact absurd hnone h

/-- A survey that is at no report step and not due to begin stays away. -/
theorem startReports_survey_none {f : ReportFields} {x : XuState} (h : x.survey = none) :
    (startReports f x).survey = none := (startReports_survey_of_ne_report (by simp [h])).1.trans h

/-- No pending survey begins where the part does not run. -/
theorem startReports_pending_false {f : ReportFields} {x : XuState} (h : x.surveyPending = false) :
    (startReports f x).surveyPending = false := by
  have hend (y : XuState) : (endSurvey y).surveyPending = false := by
    obtain h | ⟨-, -, -, h⟩ := endSurvey_cases y <;> rw [h]
  obtain h' | ⟨-, ⟨-, ⟨r, rest, -, h'⟩ | ⟨-, h'⟩ | ⟨-, -, -, h'⟩⟩ | ⟨-, h' | ⟨-, h'⟩⟩⟩ := startReports_cases f x <;> rw [h']
  case inr.inl.inr.inr | inr.inr.inr => exact hend _
  all_goals exact h

/-! ## Faults and causes (R185, R187) -/

@[simp] theorem latch_causes (c : Cause) (x : XuState) : (latch c x).causes = x.causes ||| causeBit c := rfl

/-! ## Run requests (R188) -/

theorem startSurveys_of_baseValid {x : XuState} (h : baseValid x = true) : startSurveys x = reloadSurvey x := if_pos h

theorem startSurveys_of_invalid {x : XuState} (h : baseValid x = false) : startSurveys x = x := by
  simp [startSurveys, h]

/-- RUNNING entered with a valid base: a survey is asked for. -/
theorem enterRunning_of_baseValid {s : State} (h : baseValid s.xu = true) :
    enterRunning s =
      { s with lcs := allLines lineRun s.lcs, xu := reloadSurvey { s.xu with runState := .running } } := by
  have hstart := startSurveys_of_baseValid (x := { s.xu with runState := .running }) h
  have hbase : baseValid (reloadSurvey { s.xu with runState := .running }) = true := (reloadSurvey_baseValid _).trans h
  simp only [enterRunning, hstart, hbase, if_true]

/-- RUNNING entered without a valid base: NO_BASE, and no survey. -/
theorem enterRunning_of_invalid {s : State} (h : baseValid s.xu = false) :
    enterRunning s =
      { s with lcs := allLines lineRun s.lcs, xu := noBase s.clk.second { s.xu with runState := .running } } := by
  have hstart := startSurveys_of_invalid (x := { s.xu with runState := .running }) h
  have hbase : baseValid { s.xu with runState := .running } = false := h
  simp only [enterRunning, hstart, hbase]
  rfl

theorem lineRun_inService (l : LcsState) : ∀ c ∈ (allLines lineRun l).lines, c.service = .inService := by
  intro c hc
  obtain ⟨b, -, rfl⟩ := List.mem_map.mp hc
  rfl

theorem exec_runRequest {s : State} (h : s.phase = .operating) : exec .runRequest s = .next (flush (runRequest s)) :=
  answer_takes _ h rfl

theorem runRequest_enters {s : State} (hrun : s.xu.runState ≠ .running) (hbase : baseValid s.xu = true) :
    runRequest s = enterRunning s := by
  unfold runRequest
  cases hstate : s.xu.runState with
  | running => exact absurd hstate hrun
  | halting => rfl
  | halted => simp [hbase]

/-- A run request that is taken: RUNNING, the lines in service, and a survey asked for (R143, R181, R188). -/
theorem runRequest_taken {s : State} (h : s.phase = .operating) (hrun : s.xu.runState ≠ .running)
    (hbase : baseValid s.xu = true) :
    ∃ t, exec .runRequest s = .next t ∧ t.xu.runState = .running
      ∧ (∀ l ∈ t.lcs.lines, l.service = .inService) ∧ t.lcs.recs = s.lcs.recs
      ∧ SurveyAsked s.xu t.xu ∧ t.xu.countdown = some (s.xu.interval * 25000)
      ∧ t.xu.causes = s.xu.causes ∧ SameRegisters s.xu t.xu ∧ { t with lcs := s.lcs, xu := s.xu } = s := by
  refine ⟨_, exec_runRequest h, ?_⟩
  rw [runRequest_enters hrun hbase, enterRunning_of_baseValid hbase]
  refine ⟨?_, lineRun_inService _, rfl, startReports_reloadSurvey_asked (x := { s.xu with runState := .running }) rfl hbase,
    ?_, ?_, sameRegisters_of_held ?_, rfl⟩
  · simp [flush]
  · simp only [flush, startReports_countdown]
    rfl
  · simp [flush, reloadSurvey]
  · simp only [flush, startReports_held, reloadSurvey_held]
    rfl

theorem runRequest_noBase {s : State} (h : s.phase = .operating) (hrun : s.xu.runState = .halted)
    (hbase : baseValid s.xu = false) :
    ∃ t, exec .runRequest s = .next t ∧ t.xu.runState = .halted
      ∧ t.xu.lastFault = { kind := .noBase, subject := none, second := s.clk.second }
      ∧ t.xu.causes = s.xu.causes ||| 16#7 ∧ t.xu.counters = s.xu.counters
      ∧ SameRegisters s.xu t.xu ∧ { t with xu := s.xu } = s := by
  refine ⟨_, exec_runRequest h, ?_⟩
  have hrequest : runRequest s = { s with xu := noBase s.clk.second s.xu } := by simp [runRequest, hrun, hbase]
  rw [hrequest]
  refine ⟨?_, ?_, ?_, ?_, sameRegisters_of_held ?_, rfl⟩
  · simp only [flush, startReports_runState]; exact hrun
  · simp only [flush, startReports_lastFault]; rfl
  · simp only [flush, startReports_causes]; rfl
  · simp only [flush, startReports_counters]; rfl
  · simp only [flush, startReports_held, noBase_held]

theorem runRequest_halting_noBase {s : State} (h : s.phase = .operating) (hrun : s.xu.runState = .halting)
    (hbase : baseValid s.xu = false) :
    ∃ t, exec .runRequest s = .next t ∧ t.xu.runState = .running
      ∧ (∀ l ∈ t.lcs.lines, l.service = .inService) ∧ t.lcs.recs = s.lcs.recs
      ∧ t.xu.lastFault = { kind := .noBase, subject := none, second := s.clk.second }
      ∧ t.xu.causes = s.xu.causes ||| 16#7 ∧ t.xu.counters = s.xu.counters
      ∧ t.xu.countdown = s.xu.countdown ∧ (s.xu.survey = none → t.xu.survey = none)
      ∧ SameRegisters s.xu t.xu ∧ { t with lcs := s.lcs, xu := s.xu } = s := by
  refine ⟨_, exec_runRequest h, ?_⟩
  have hrequest : runRequest s = enterRunning s := by simp [runRequest, hrun]
  rw [hrequest, enterRunning_of_invalid hbase]
  refine ⟨?_, lineRun_inService _, rfl, ?_, ?_, ?_, ?_, fun hnone => startReports_survey_none hnone,
    sameRegisters_of_held ?_, rfl⟩
  · simp only [flush, startReports_runState]; rfl
  · simp only [flush, startReports_lastFault]; rfl
  · simp only [flush, startReports_causes]; rfl
  · simp only [flush, startReports_counters]; rfl
  · simp only [flush, startReports_countdown]; rfl
  · simp only [flush, startReports_held, noBase_held]; rfl

/-! ## Halt requests (R143, R188) -/

theorem exec_haltRequest {s : State} (h : s.phase = .operating) : exec .haltRequest s = .next (flush (haltRequest s)) :=
  answer_takes _ h rfl

/-- A line asked to stop is silent, or finishing while its transaction lasts (R143). -/
theorem lineStop_service (c : LineCtl) :
    ((lineStop c).txn = none → (lineStop c).service = .silent) ∧ (lineStop c).service ≠ .inService
      ∧ (lineStop c).txn = c.txn := by
  unfold lineStop
  split
  · rename_i t ht
    refine ⟨fun hnone => by simp [ht] at hnone, ?_, rfl⟩
    dsimp only
    split <;> decide
  · exact ⟨fun _ => rfl, (by decide : Service.silent ≠ .inService), rfl⟩

theorem haltRequest_taken {s : State} (h : s.phase = .operating) (hrun : s.xu.runState = .running)
    (hstate : s.msc.state = .standby) :
    ∃ t, exec .haltRequest s = .next t ∧ t.xu.runState = .halting ∧ t.xu.countdown = none ∧ t.xu.surveyPending = false
      ∧ (∀ l ∈ t.lcs.lines, l.txn = none → l.service = .silent) ∧ (∀ l ∈ t.lcs.lines, l.service ≠ .inService)
      ∧ t.lcs.lines.map LineCtl.txn = s.lcs.lines.map LineCtl.txn ∧ t.lcs.recs = s.lcs.recs
      ∧ SameRegisters s.xu t.xu ∧ { t with lcs := s.lcs, xu := s.xu } = s := by
  refine ⟨_, exec_haltRequest h, ?_⟩
  have hrequest : haltRequest s = beginHalt s := by simp [haltRequest, hrun, hstate]
  rw [hrequest]
  refine ⟨?_, ?_, startReports_pending_false rfl, ?_, ?_, ?_, rfl, sameRegisters_of_held ?_, rfl⟩
  · simp only [flush, startReports_runState]; rfl
  · simp only [flush, startReports_countdown]; rfl
  · intro l hl
    obtain ⟨c, -, rfl⟩ := List.mem_map.mp hl
    exact (lineStop_service c).1
  · intro l hl
    obtain ⟨c, -, rfl⟩ := List.mem_map.mp hl
    exact (lineStop_service c).2.1
  · simp only [flush, beginHalt, allLines, List.map_map]
    exact List.map_congr_left fun c _ => (lineStop_service c).2.2
  · simp only [flush, startReports_held]; rfl

theorem haltRequest_refused {s : State} (h : s.phase = .operating) (hrun : s.xu.runState = .running)
    (hstate : s.msc.state ≠ .standby) :
    ∃ t, exec .haltRequest s = .next t ∧ t.xu.runState = .running ∧ t.xu.causes = s.xu.causes ||| 64#7
      ∧ t.xu.countdown = s.xu.countdown ∧ SameRegisters s.xu t.xu ∧ { t with xu := s.xu } = s := by
  refine ⟨_, exec_haltRequest h, ?_⟩
  have hrequest : haltRequest s = { s with xu := latch .haltRefused s.xu } := by simp [haltRequest, hrun, hstate]
  rw [hrequest]
  refine ⟨?_, ?_, ?_, sameRegisters_of_held ?_, rfl⟩
  · simp only [flush, startReports_runState]; exact hrun
  · simp only [flush, startReports_causes]; rfl
  · simp only [flush, startReports_countdown]; rfl
  · simp only [flush, startReports_held, latch_held]

/-! ## The end of a halt (R187, R188) -/

theorem haltReady_iff (s : State) : haltReady s = true ↔
    s.xu.runState = .halting ∧ s.xu.stage = none ∧ s.xu.survey = none ∧ ∀ l ∈ s.lcs.lines, l.service = .silent := by
  simp only [haltReady, Bool.and_eq_true, decide_eq_true_eq, Option.isNone_iff_eq_none, List.all_eq_true]
  tauto

/-- The write of the halt's own is due last (R183, R188). -/
theorem startReports_halt {f : ReportFields} {x : XuState} (hbase : baseValid x = true) (hhalted : f.halted = true) :
    ∃ w, (startReports f (reportNow .halt x)).reportWrite = some w ∧ (x.reportWrite = none → w.fields.halted = true)
      ∧ (x.reportWrite = none → x.reportDue = [] → w.reason = .halt)
      ∧ (x.reportWrite ≠ none ∨ x.reportDue ≠ [] →
          WriteReason.halt ∈ (startReports f (reportNow .halt x)).reportDue) := by
  have hnow : reportNow .halt x = { x with reportDue := x.reportDue ++ [.halt] } := if_pos hbase
  by_cases hwrite : x.reportWrite = none
  · cases hdue : x.reportDue with
    | nil =>
      have hbegin : startReports f (reportNow .halt x) = beginReport f .halt { x with reportDue := [] } := by
        rw [hnow]; exact startReports_due hwrite hbase (by simp [hdue])
      rw [hbegin]
      exact ⟨_, rfl, fun _ => hhalted, fun _ _ => rfl, by simp [hwrite]⟩
    | cons r rest =>
      have hbegin : startReports f (reportNow .halt x) = beginReport f r { x with reportDue := rest ++ [.halt] } := by
        rw [hnow]; exact startReports_due hwrite hbase (by simp [hdue])
      rw [hbegin]
      exact ⟨_, rfl, fun _ => hhalted, by simp, fun _ => List.mem_append_right _ (List.mem_singleton_self _)⟩
  · obtain ⟨w, hw⟩ := Option.ne_none_iff_exists'.mp hwrite
    have hstays : startReports f (reportNow .halt x) = reportNow .halt x := startReports_of_write (by rw [hnow]; exact hwrite)
    rw [hstays, hnow]
    exact ⟨w, hw, by simp [hw], by simp [hw], by simp⟩

theorem haltComplete_taken {s : State} (h : s.phase = .operating) (hready : haltReady s = true) :
    ∃ t, exec .haltComplete s = .next t ∧ t.xu.runState = .halted
      ∧ (baseValid s.xu = true → t.xu.causes = s.xu.causes
          ∧ ∃ w, t.xu.reportWrite = some w ∧ (s.xu.reportWrite = none → w.fields.halted = true)
            ∧ (s.xu.reportWrite = none → s.xu.reportDue = [] → w.reason = .halt)
            ∧ (s.xu.reportWrite ≠ none ∨ s.xu.reportDue ≠ [] → WriteReason.halt ∈ t.xu.reportDue))
      ∧ (baseValid s.xu = false → t.xu.causes = s.xu.causes ||| 32#7)
      ∧ SameRegisters s.xu t.xu ∧ { t with xu := s.xu } = s := by
  refine ⟨_, answer_takes _ h hready, ?_⟩
  cases hbase : baseValid s.xu with
  | true =>
    have hvalid : baseValid { s.xu with runState := .halted } = true := hbase
    have hcomplete : completeHalt s = { s with xu := reportNow .halt { s.xu with runState := .halted } } := by
      simp only [completeHalt, hvalid, if_true]
    have hnow (r : WriteReason) (x : XuState) : (reportNow r x).causes = x.causes ∧ (reportNow r x).runState = x.runState := by
      unfold reportNow; split <;> exact ⟨rfl, rfl⟩
    obtain ⟨hcauses, hstate⟩ := hnow .halt { s.xu with runState := .halted }
    rw [hcomplete]
    refine ⟨?_, fun _ => ⟨?_, startReports_halt (x := { s.xu with runState := .halted }) hvalid ?_⟩, by simp,
      sameRegisters_of_held ?_, rfl⟩
    · simp only [flush, startReports_runState, hstate]
    · simp only [flush, startReports_causes, hcauses]
    · simp only [reportFields, hstate, decide_true]
    · simp only [flush, startReports_held, reportNow_held]; rfl
  | false =>
    have hinvalid : baseValid { s.xu with runState := .halted } = false := hbase
    have hcomplete : completeHalt s = { s with xu := latch .halted { s.xu with runState := .halted } } := by
      simp only [completeHalt, hinvalid]; rfl
    rw [hcomplete]
    refine ⟨?_, by simp, fun _ => ?_, sameRegisters_of_held ?_, rfl⟩
    · simp only [flush, startReports_runState]; rfl
    · simp only [flush, startReports_causes]; rfl
    · simp only [flush, startReports_held, latch_held]; rfl

/-- Settles O7, request by request and run state by run state. -/
theorem runStates : Obligations.RunStates := by
  unfold Obligations.RunStates
  refine ⟨⟨⟨fun s => runRequest_taken, fun s => runRequest_noBase, fun s => runRequest_halting_noBase, fun s h hrun => ?_⟩,
    fun s => haltRequest_taken, fun s => haltRequest_refused, fun s h hrun => ?_⟩, fun s h hrun hstage hsurvey hlines =>
    haltComplete_taken h ((haltReady_iff s).mpr ⟨hrun, hstage, hsurvey, hlines⟩)⟩
  · rw [exec_runRequest h]; simp [runRequest, hrun]
  · rw [exec_haltRequest h]
    have hrequest : haltRequest s = s := by
      unfold haltRequest
      cases hstate : s.xu.runState with
      | running => exact absurd hstate hrun
      | halting => rfl
      | halted => rfl
    rw [hrequest]

end Sys2Proof.Machine

/-! PROOFS. Causes and the MSI (R187): no command but the host's clear takes a cause away, and the MSI is sent as the set of
causes latched and enabled goes from empty to not empty. What the notices and the muster operations add to the Exchange
Unit. -/

namespace Sys2Proof.Machine

open Sys2Proof.Safety

/-! ## The causes grow -/

/-- From `x` to `y` causes are only latched, and the MSI was sent if the enabled ones were none and are some (R187). -/
structure Grows (x y : XuState) : Prop where
  enables : y.enables = x.enables
  delivery : y.msiDelivery = x.msiDelivery
  causes : x.causes &&& y.causes = x.causes
  msi : y.msiSent =
    x.msiSent + if x.causes &&& x.enables = 0 ∧ y.causes &&& x.enables ≠ 0 ∧ x.msiDelivery = true then 1 else 0

theorem and_enabled_ne_zero {a b e : BitVec 7} (h : a &&& b = a) (ha : a &&& e ≠ 0) : b &&& e ≠ 0 := by
  intro hb
  apply ha
  rw [← h, BitVec.and_assoc, hb]
  exact BitVec.and_zero

theorem Grows.refl (x : XuState) : Grows x x := by
  refine ⟨rfl, rfl, BitVec.and_self, ?_⟩
  rw [if_neg (fun h => h.2.1 h.1)]
  rfl

theorem Grows.trans {x y z : XuState} (h : Grows x y) (k : Grows y z) : Grows x z := by
  obtain ⟨he, hd, hc, hm⟩ := h
  obtain ⟨ke, kd, kc, km⟩ := k
  have hxz : x.causes &&& z.causes = x.causes := by rw [← hc, BitVec.and_assoc, kc]
  refine ⟨ke.trans he, kd.trans hd, hxz, ?_⟩
  rw [km, hm, he, hd]
  by_cases hx : x.causes &&& x.enables = 0
  · by_cases hy : y.causes &&& x.enables = 0
    · simp only [hx, hy, ne_eq, not_true, true_and, false_and, if_false, Nat.add_zero]
    · have hz := and_enabled_ne_zero kc hy
      simp only [hx, hy, hz, ne_eq, not_false_iff, true_and, false_and, if_false, Nat.add_zero]
  · have hy := and_enabled_ne_zero hc hx
    simp only [hx, hy, false_and, if_false, Nat.add_zero]

/-- What the causes and the MSI turn on. -/
def xuSignal (x : XuState) : BitVec 7 × BitVec 7 × Bool × Nat := (x.enables, x.causes, x.msiDelivery, x.msiSent)

theorem Grows.of_signal {x y z : XuState} (h : Grows x y) (hs : xuSignal z = xuSignal y) : Grows x z := by
  obtain ⟨he, hd, hc, hm⟩ := h
  simp only [xuSignal, Prod.mk.injEq] at hs
  obtain ⟨se, sc, sd, sm⟩ := hs
  exact ⟨se.trans he, sd.trans hd, sc ▸ hc, by rw [sm, sc, hm]⟩

theorem and_or_self_right (a b : BitVec 7) : a &&& (a ||| b) = a := by
  apply BitVec.eq_of_getLsbD_eq
  intro i _
  rw [BitVec.getLsbD_and, BitVec.getLsbD_or]
  cases a.getLsbD i <;> simp

theorem grows_withCauses {x : XuState} {c : BitVec 7} (h : x.causes &&& c = x.causes) :
    Grows x (withCauses c x.enables x) := by
  refine ⟨rfl, rfl, h, ?_⟩
  simp only [withCauses, bne_iff_ne, beq_iff_eq, Bool.and_eq_true, and_assoc]
  split <;> rfl

theorem grows_latchBits {x y : XuState} (b : BitVec 7) (h : Grows x y) : Grows x (latchBits b y) :=
  h.trans (grows_withCauses (and_or_self_right ..))

theorem grows_latch {x y : XuState} (c : Cause) (h : Grows x y) : Grows x (latch c y) := grows_latchBits _ h

/-! ## What notices and reports add -/

/-- From `x` to `y` faults were counted and causes latched, or made to wait with immediate report writes due; the rest
stands (R183, R185, R187). -/
structure Adds (x y : XuState) : Prop where
  grows : Grows x y
  frame : { y with
    causes := x.causes, msiSent := x.msiSent, waiting := x.waiting, reportDue := x.reportDue, counters := x.counters
    lastFault := x.lastFault } = x
  waiting : x.waiting &&& y.waiting = x.waiting
  due : ∃ more, y.reportDue = x.reportDue ++ more

theorem Adds.refl (x : XuState) : Adds x x := ⟨Grows.refl x, rfl, BitVec.and_self, [], by simp⟩

theorem Adds.trans {x y z : XuState} (h : Adds x y) (k : Adds y z) : Adds x z := by
  obtain ⟨hg, hf, hw, more, hd⟩ := h
  obtain ⟨kg, kf, kw, more', kd⟩ := k
  refine ⟨hg.trans kg, ?_, by rw [← hw, BitVec.and_assoc, kw], more ++ more', by rw [kd, hd, List.append_assoc]⟩
  have hf' := congrArg (fun u : XuState => { u with
    causes := x.causes, msiSent := x.msiSent, waiting := x.waiting, reportDue := x.reportDue, counters := x.counters
    lastFault := x.lastFault }) kf
  exact hf'.trans hf

section AddsFields

variable {x y : XuState} (h : Adds x y)

include h

theorem Adds.held : xuHeld y = xuHeld x := (congrArg xuHeld h.frame :)
theorem Adds.baseValid : baseValid y = baseValid x := baseValid_of_held h.held
theorem Adds.runState : y.runState = x.runState := (congrArg XuState.runState h.frame :)
theorem Adds.survey : y.survey = x.survey := (congrArg XuState.survey h.frame :)
theorem Adds.surveyPending : y.surveyPending = x.surveyPending := (congrArg XuState.surveyPending h.frame :)
theorem Adds.countdown : y.countdown = x.countdown := (congrArg XuState.countdown h.frame :)
theorem Adds.reportWrite : y.reportWrite = x.reportWrite := (congrArg XuState.reportWrite h.frame :)
theorem Adds.reportMark : y.reportMark = x.reportMark := (congrArg XuState.reportMark h.frame :)
theorem Adds.reportSerial : y.reportSerial = x.reportSerial := (congrArg XuState.reportSerial h.frame :)
theorem Adds.status : y.status = x.status := (congrArg XuState.status h.frame :)

end AddsFields

theorem adds_latchBits {x y : XuState} (b : BitVec 7) (h : Adds x y) : Adds x (latchBits b y) :=
  h.trans ⟨grows_latchBits b (Grows.refl y), rfl, BitVec.and_self, [], by simp [latchBits, withCauses]⟩

theorem adds_causeDue {x y : XuState} (c : Cause) (h : Adds x y) : Adds x (causeDue c y) := by
  unfold causeDue
  split
  · exact h.trans ⟨(Grows.refl y).of_signal rfl, rfl, and_or_self_right .., [], by simp⟩
  · exact adds_latchBits _ h

theorem adds_reportNow {x y : XuState} (r : WriteReason) (h : Adds x y) : Adds x (reportNow r y) := by
  unfold reportNow
  split
  · exact h.trans ⟨(Grows.refl y).of_signal rfl, rfl, BitVec.and_self, [r], rfl⟩
  · exact h

theorem adds_recordFault {x y : XuState} (k : FaultKind) (u : Option Nat) (v : Word32) (n : Nat) (h : Adds x y) :
    Adds x (recordFault k u v n y) := by
  have hcount : Adds x { y with counters := bumpCounter k n y.counters, lastFault := { kind := k, subject := u, second := v } } :=
    h.trans ⟨(Grows.refl y).of_signal rfl, rfl, BitVec.and_self, [], by simp⟩
  unfold recordFault
  dsimp only
  split
  · exact adds_latchBits _ hcount
  · exact adds_causeDue _ hcount

theorem adds_claimOp {x : XuState} {s : State} (h : Adds x s.xu) : Adds x (claimOp s).xu := by
  unfold claimOp
  dsimp only
  split
  · exact h
  · exact adds_recordFault _ _ _ _ h

theorem adds_composeOne {x : XuState} (s : State) (acc : Tbl PageRec × XuState) (n : Nat) (h : Adds x acc.2) :
    Adds x (composeOne s acc n).2 := by
  unfold composeOne
  split
  · exact h
  · dsimp only
    split
    · exact adds_recordFault _ _ _ _ h
    · exact h

theorem adds_composeAll {x : XuState} (s : State) (m : List Nat) (acc : Tbl PageRec × XuState) (h : Adds x acc.2) :
    Adds x (m.foldl (composeOne s) acc).2 := by
  induction m generalizing acc with
  | nil => exact h
  | cons n rest ih => exact ih _ (adds_composeOne s acc n h)

theorem adds_composeMarked {x : XuState} (m : List Nat) {s : State} (h : Adds x s.xu) : Adds x (composeMarked m s).xu :=
  adds_composeAll s m _ h

theorem adds_composeEach {α : Type} {x : XuState} (l : List α) (f : State → α → List Nat) {s : State} (h : Adds x s.xu) :
    Adds x (l.foldl (fun t y => composeMarked (f t y) t) s).xu := by
  induction l generalizing s with
  | nil => exact h
  | cons y rest ih => exact ih (adds_composeMarked _ h)

section AddsNotices

variable {x : XuState} {s : State} (h : Adds x s.xu)

include h

theorem adds_pairNotices (p : List Pair) : Adds x (pairNotices p s).xu := adds_composeMarked _ h

theorem adds_timeNotice (g : PguState) : Adds x (timeNotice g s).xu := by
  unfold timeNotice
  rw [pageBlocks_xu]
  split
  · exact adds_composeMarked _ h
  · exact h

theorem adds_listNotices (g : PguState) (l : List Nat) : Adds x (listNotices g l s).xu := by
  unfold listNotices
  rw [pageBlocks_xu]
  exact adds_composeEach _ _ h

theorem adds_mapNotices (c : MscState) : Adds x (mapNotices c s).xu := by
  unfold mapNotices
  rw [pageBlocks_xu]
  exact adds_composeEach _ (fun _ y => [y]) h

theorem adds_markMoved (r : Tbl RotState) : Adds x (markMoved r s).xu := adds_composeMarked _ h

theorem adds_reportCause (c : Cause) : Adds x (reportCause c s).xu := adds_causeDue _ (adds_reportNow _ h)

theorem adds_announceMuster : Adds x (announceMuster s).xu := adds_reportCause (adds_composeMarked _ h) _

theorem adds_enterMustering : Adds x (enterMustering s).xu := adds_announceMuster h

theorem adds_completeTest : Adds x (completeTest s).xu := by
  unfold completeTest
  dsimp only
  split
  · exact adds_enterMustering h
  · exact h

theorem adds_escalate : Adds x (escalate s).xu := adds_completeTest (adds_announceMuster h)

theorem adds_raiseStandbyAttention : Adds x (raiseStandbyAttention s).xu := by
  unfold raiseStandbyAttention
  dsimp only
  split
  · exact adds_causeDue _ h
  · exact h

theorem adds_graphMoved : Adds x (graphMoved s).xu := adds_pairNotices (s := raiseEpoch s) h _

theorem adds_deliverClosure (w : Word64) : Adds x (deliverClosure w s).xu := by
  unfold deliverClosure
  dsimp only
  split
  · exact h
  · exact adds_graphMoved h

theorem adds_deliverExterior (b : Bool) : Adds x (deliverExterior b s).xu := by
  unfold deliverExterior
  dsimp only
  split
  · exact h
  · exact adds_graphMoved h

theorem adds_minuteTaken : Adds x (minuteTaken s).xu := by
  refine adds_markMoved (adds_listNotices (adds_timeNotice ?_ _) _ _) _
  exact adds_claimOp (s := minuteState s) h

theorem adds_moveRot (n : Nat) (r : RotState) : Adds x (moveRot n r s).xu := adds_composeMarked _ h

theorem adds_solveTaken (p : Pair) : Adds x (solveTaken p s).xu := by
  have hpair := adds_pairNotices (s := finishSolve s) h [p]
  unfold solveTaken
  dsimp only
  split
  · exact adds_mapNotices (s := recomputeMap _) hpair _
  · exact hpair

theorem adds_commitRoutes (b : State) : Adds x (commitRoutes b s).xu := by
  have hrisen : Adds x (if graphChanged b.sms s.sms then raiseEpoch s else s).xu := by
    split <;> exact h
  have hclaimed := adds_claimOp hrisen
  unfold commitRoutes
  dsimp only
  split <;> exact hclaimed

theorem adds_commitNotices (b : State) (l : List Nat) : Adds x (commitNotices b l s).xu := by
  have hsolved : Adds x (if graphChanged b.sms s.sms ∨ b.sms.settings.walkRate ≠ s.sms.settings.walkRate then
      pairNotices (vectorPairs b.rsv.slots) s else s).xu := by
    split
    · exact adds_pairNotices h _
    · exact h
  exact adds_composeMarked _ (adds_listNotices (adds_timeNotice (adds_composeMarked _ (adds_mapNotices hsolved _)) _) _ _)

end AddsNotices

theorem adds_stateXu {x u : XuState} (n : Nat) (v : Word32) (e : StateEffect) (h : Adds x u) : Adds x (stateXu n v e u) := by
  have hlost : Adds x (if 0 < e.lost then recordFault .lostPresses (some n) v e.lost u else u) := by
    split
    · exact adds_recordFault _ _ _ _ h
    · exact h
  unfold stateXu
  dsimp only
  split
  · exact adds_causeDue _ hlost
  · exact hlost

/-! ## The causes grow in every operation (R187) -/

section GrowsXu

variable {x y : XuState} (h : Grows x y)

include h

theorem grows_causeDue (c : Cause) : Grows x (causeDue c y) := h.trans (adds_causeDue c (Adds.refl y)).grows

theorem grows_recordFault (k : FaultKind) (u : Option Nat) (v : Word32) (n : Nat) : Grows x (recordFault k u v n y) :=
  h.trans (adds_recordFault k u v n (Adds.refl y)).grows

theorem grows_reportNow (r : WriteReason) : Grows x (reportNow r y) := h.trans (adds_reportNow r (Adds.refl y)).grows

theorem grows_beginSurvey : Grows x (beginSurvey y) :=
  h.of_signal (by unfold beginSurvey; split <;> rfl)

theorem grows_endSurvey : Grows x (endSurvey y) :=
  h.of_signal (by obtain e | ⟨-, -, -, e⟩ := endSurvey_cases y <;> rw [e] <;> rfl)

theorem grows_startReports (f : ReportFields) : Grows x (startReports f y) :=
  h.of_signal (by simp only [xuSignal, startReports_enables, startReports_causes, startReports_msiDelivery,
    startReports_msiSent])

theorem grows_reloadSurvey : Grows x (reloadSurvey y) := (grows_beginSurvey h).of_signal rfl

theorem grows_startSurveys : Grows x (startSurveys y) := by
  unfold startSurveys
  split
  · exact grows_reloadSurvey h
  · exact h

theorem grows_noBase (v : Word32) : Grows x (noBase v y) := grows_recordFault h _ _ _ _

theorem grows_dropWrites : Grows x (dropWrites y) := by
  have hlatched := grows_latchBits (strandedCauses y)
    (h.of_signal (z := { y with reportWrite := none, reportDue := [], waiting := 0 }) rfl)
  unfold dropWrites
  dsimp only
  split
  · exact grows_endSurvey hlatched
  · exact hlatched

theorem grows_baseLost (v : Word32) : Grows x (baseLost v y) := by
  have hdrop := grows_dropWrites h
  unfold baseLost
  dsimp only
  split
  · exact grows_noBase (hdrop.of_signal (z := { dropWrites y with countdown := none }) rfl) v
  · exact hdrop

theorem grows_xbaseXu (v value : Word32) : Grows x (xbaseXu v value y) := by
  have hbase := h.of_signal (z := { y with base := writtenBase y.pendingHi value, span := writtenSpan value }) rfl
  have hmarked : Grows x (if writtenBase y.pendingHi value = y.base ∧ writtenSpan value = y.span then
      { y with base := writtenBase y.pendingHi value, span := writtenSpan value }
      else markAll { y with base := writtenBase y.pendingHi value, span := writtenSpan value }) := by
    split
    · exact hbase
    · exact hbase.of_signal rfl
  unfold xbaseXu
  dsimp only
  split
  · split
    · exact grows_startSurveys hmarked
    · exact hmarked
  · split
    · exact grows_baseLost hmarked _
    · exact hmarked

theorem grows_surveyXu (v : Word32) : Grows x (surveyXu v y) := by
  have hinterval := h.of_signal (z := { y with interval := writtenInterval v }) rfl
  unfold surveyXu
  dsimp only
  split
  · exact grows_reloadSurvey hinterval
  · exact hinterval

theorem grows_publishTaken (bs : List Byte) : Grows x (publishTaken bs y) := by
  refine h.of_signal ?_
  unfold publishTaken takePublish
  dsimp only
  split
  · rfl
  · split <;> rfl

theorem grows_reportEnded (w : ReportWrite) : Grows x (reportEnded w y) := by
  unfold reportEnded
  split
  · exact h
  · exact grows_latch _ h
  · exact grows_endSurvey h

theorem grows_reportDone (w : ReportWrite) : Grows x (reportDone w y) :=
  grows_reportEnded
    (grows_latchBits w.covers (h.of_signal (z := { y with reportWrite := none, reportLast := some w.fields }) rfl)) w

theorem grows_reportFailed (v : Word32) (w : ReportWrite) : Grows x (reportFailed v w y) :=
  grows_reportEnded (grows_recordFault (h.of_signal (z := { y with
    reportWrite := none, reportMark := true, waiting := y.waiting ||| w.covers }) rfl) .reportWrite none v 1) w

end GrowsXu

section GrowsState

variable {x : XuState} {s : State} (h : Grows x s.xu)

include h

theorem grows_flush : Grows x (flush s).xu := grows_startReports h _

theorem grows_composeMarked (m : List Nat) : Grows x (composeMarked m s).xu :=
  h.trans (adds_composeMarked m (Adds.refl s.xu)).grows

theorem grows_announceMuster : Grows x (announceMuster s).xu := h.trans (adds_announceMuster (Adds.refl s.xu)).grows

theorem grows_mapNotices (c : MscState) : Grows x (mapNotices c s).xu :=
  h.trans (adds_mapNotices (Adds.refl s.xu) c).grows

theorem grows_completeTest : Grows x (completeTest s).xu := h.trans (adds_completeTest (Adds.refl s.xu)).grows

theorem grows_reportCause (c : Cause) : Grows x (reportCause c s).xu :=
  h.trans (adds_reportCause (Adds.refl s.xu) c).grows

theorem grows_enterRunning : Grows x (enterRunning s).xu := by
  have hstart := grows_startSurveys (h.of_signal (z := { s.xu with runState := .running }) rfl)
  unfold enterRunning
  dsimp only
  split
  · exact hstart
  · exact grows_noBase hstart _

theorem grows_runRequest : Grows x (runRequest s).xu := by
  unfold runRequest
  split
  · exact h
  · exact grows_enterRunning h
  · split
    · exact grows_enterRunning h
    · exact grows_noBase h _

theorem grows_musterResume : Grows x (musterResume s).xu := by
  unfold musterResume
  split
  · exact h
  · exact grows_latch _ (grows_enterRunning h)
  · exact grows_latch _ (grows_runRequest h)

theorem grows_haltRequest : Grows x (haltRequest s).xu := by
  unfold haltRequest
  split
  · split
    · exact h.of_signal rfl
    · exact grows_latch _ h
  · exact h

theorem grows_completeHalt : Grows x (completeHalt s).xu := by
  have hhalted := h.of_signal (z := { s.xu with runState := .halted }) rfl
  unfold completeHalt
  dsimp only
  split
  · exact grows_reportNow hhalted _
  · exact grows_latch _ hhalted

theorem grows_callMuster (k : MusterKind) : Grows x (callMuster k s).xu := by
  have hbuilt : Grows x (if s.msc.state = .standby then recomputeMap (claimOp { s with msc := calledMsc k s.msc })
      else { s with msc := calledMsc k s.msc }).xu := by
    split
    · exact h.trans (adds_claimOp (s := { s with msc := calledMsc k s.msc }) (Adds.refl s.xu)).grows
    · exact h
  exact grows_completeTest (grows_musterResume (grows_mapNotices (grows_announceMuster hbuilt) _))

theorem grows_escalate : Grows x (escalate s).xu := h.trans (adds_escalate (Adds.refl s.xu)).grows

theorem grows_realCall : Grows x (realCall s).xu := by
  unfold realCall
  split
  · exact grows_callMuster h _
  · exact grows_callMuster h _
  · split
    · exact h
    · exact grows_escalate h
  · split
    · exact h
    · exact grows_escalate h

theorem grows_levelTest : Grows x (levelTest s).xu := by
  unfold levelTest
  rw [musterBlocks_xu]
  split
  · exact grows_realCall h
  · exact h

theorem grows_endCalled : Grows x (endCalled s).xu :=
  grows_levelTest (s := enterMustering s) (h.trans (adds_enterMustering (Adds.refl s.xu)).grows)

theorem grows_recount : Grows x (recount s).xu := by
  unfold recount
  rw [musterBlocks_xu]
  split
  · exact grows_endCalled h
  · exact h

theorem grows_orderCallReal : Grows x (orderCallReal s).xu :=
  grows_realCall (s := withOutcome (callRealOutcome s.msc) s) h

theorem grows_orderCallDrill : Grows x (orderCallDrill s).xu := by
  unfold orderCallDrill
  dsimp only
  rw [musterBlocks_xu]
  split
  · exact grows_levelTest (grows_callMuster (s := withOutcome (callDrillOutcome s.msc) s) h _)
  · exact h

theorem grows_orderStandDown : Grows x (orderStandDown s).xu := by
  unfold orderStandDown
  dsimp only
  rw [musterBlocks_xu]
  split
  · refine grows_levelTest (grows_announceMuster ?_)
    exact h
  · exact h

theorem grows_returnToStandby : Grows x (returnToStandby s).xu := by
  have hback := h.trans
    (adds_raiseStandbyAttention (adds_claimOp (s := { s with msc := standbyMsc s.msc }) (Adds.refl s.xu))).grows
  simp only [returnToStandby, musterBlocks_xu]
  refine grows_levelTest (grows_announceMuster (hback.trans (adds_markMoved ?_ _).grows))
  exact Adds.refl _

theorem grows_reserveBegin : Grows x (reserveBegin s).xu := by
  refine grows_recount (grows_reportCause ?_ _)
  exact grows_composeMarked (s := { s with msc := { s.msc with reserve := true } }) h _

theorem grows_reserveFinish : Grows x (reserveFinish s).xu := by
  refine grows_recount (grows_reportCause ?_ _)
  exact grows_composeMarked (s := { s with msc := { s.msc with reserve := false }, lcs := clearShed s.lcs }) h _

theorem grows_withRecord (n : Nat) (r : LineRec) : Grows x (withRecord n r s).xu :=
  grows_recount (s := shedAt n { s with lcs := setLineRec n r s.lcs }) h

theorem grows_finishTxn (n m idle : Nat) (r : LineRec) : Grows x (finishTxn n m idle r s).xu :=
  grows_withRecord (s := { s with lcs := setLine n (endTxn idle (lineAt s.lcs n)) s.lcs }) h m r

theorem grows_noAnswer (n idle : Nat) (t : Txn) : Grows x (noAnswer n idle t s).xu := by
  unfold noAnswer
  dsimp only
  split
  · exact grows_finishTxn (s := countFail t.station s) (grows_recordFault h .transferFail (some t.station) s.clk.second 1) _ _ _ _
  · exact grows_finishTxn h _ _ _ _

theorem grows_discardAnswer (n idle : Nat) (t : Txn) : Grows x (discardAnswer n idle t s).xu :=
  grows_noAnswer (s := { s with xu := recordFault .lineCrc (some t.station) s.clk.second 1 s.xu })
    (grows_recordFault h .lineCrc (some t.station) s.clk.second 1) _ _ _

theorem grows_heldOffAnswer (n : Nat) (t : Txn) : Grows x (heldOffAnswer n t s).xu := by
  unfold heldOffAnswer
  dsimp only
  split
  · exact grows_finishTxn (s := countFail t.station s) (grows_recordFault h .transferFail (some t.station) s.clk.second 1) _ _ _ _
  · exact grows_finishTxn h _ _ _ _

theorem grows_afterTaken (n m : Nat) (p : SentPage) (k : Nat) (r : LineRec) : Grows x (afterTaken n m p k r s).xu := by
  unfold afterTaken
  split
  · exact grows_finishTxn h _ _ _ _
  · split
    · exact grows_finishTxn h _ _ _ _
    · refine grows_withRecord ?_ m r
      exact h

theorem grows_stateTaken (n m : Nat) (a : StateFields) : Grows x (stateTaken n m a s).xu := by
  have hend := grows_finishTxn (s := { s with xu := stateXu m s.clk.second (stateEffect (decide (s.msc.state ≠ .standby)) a
    (answered s.clk.second (lineRec s.lcs m))) s.xu }) (h.trans (adds_stateXu _ _ _ (Adds.refl s.xu)).grows) n m idlePeriods
    (stateEffect (decide (s.msc.state ≠ .standby)) a (answered s.clk.second (lineRec s.lcs m))).record
  unfold stateTaken
  dsimp only
  split
  · exact grows_composeMarked hend _
  · exact hend

theorem grows_liveTaken (bs : List Byte) : Grows x (liveTaken bs s).xu := by
  have hdelivered := h.trans
    (adds_deliverExterior (adds_deliverClosure (Adds.refl s.xu) (closureWord bs)) (exteriorFlag bs)).grows
  exact hdelivered.of_signal rfl

theorem grows_surveyWrites (n : Nat) : Grows x (surveyWrites n s).xu := by
  obtain ⟨-, ⟨m, -, e⟩ | ⟨-, e⟩⟩ | ⟨-, e⟩ := surveyWrites_cases n s <;> rw [e]
  · exact h.of_signal rfl
  · exact h.of_signal rfl
  · exact grows_endSurvey h

theorem grows_acksTaken (bs : List Byte) : Grows x (acksTaken bs s).xu := by
  refine grows_surveyWrites (s := { s with lcs := _, xu := _ }) ?_ 0
  dsimp only
  split
  · exact grows_causeDue h _
  · exact h

theorem grows_surveyReadFailed (v : Survey) : Grows x (surveyReadFailed v s).xu := by
  have hfault := grows_recordFault h .fetchFailed none s.clk.second 1
  unfold surveyReadFailed
  dsimp only
  split
  · exact hfault.of_signal rfl
  · exact hfault.of_signal rfl
  · refine grows_surveyWrites ?_ 0
    exact hfault
  · exact h
  · exact h

theorem grows_statusDone (n : Nat) (c : StatusRec) : Grows x (statusDone n c s).xu := by
  refine grows_surveyWrites ?_ _
  exact h.of_signal rfl

theorem grows_statusFailed (n : Nat) : Grows x (statusFailed n s).xu := by
  refine grows_surveyWrites ?_ _
  exact (grows_recordFault h .reportWrite none s.clk.second 1).of_signal rfl

theorem grows_rejectEdition (number : Word32) (f : Failure) : Grows x (rejectEdition number f s).xu := by
  refine grows_reportCause (s := { s with xu := rejectXu s.clk.second number f s.xu }) ?_ _
  exact grows_recordFault (h.of_signal (z := { s.xu with
    settled := number, stage := none
    settle := { outcome := .rejected, reason := f.reason, entry := f.entry, record := f.record } }) rfl)
    .rejected f.leaf s.clk.second 1

theorem grows_applyProgress (number : Word32) (p : Progress) : Grows x (applyProgress number p s).xu := by
  cases p with
  | failed f => exact grows_rejectEdition h number f
  | going g => exact h.of_signal rfl

theorem grows_stagingFailed (g : Staging) : Grows x (stagingFailed g s).xu := by
  exact grows_rejectEdition
    (s := { s with xu := recordFault .fetchFailed (fetchSubject g) s.clk.second 1 s.xu })
    (grows_recordFault h .fetchFailed (fetchSubject g) s.clk.second 1) _ _

theorem grows_commitTests (b : State) : Grows x (commitTests b s).xu := by
  have hsensed : Grows x (if b.sms.settings.alarmSense ≠ s.sms.settings.alarmSense ∧ s.sms.settings.alarmSense = .level then
      levelTest s else s).xu := by
    split
    · exact grows_levelTest h
    · exact h
  refine grows_reportCause (grows_recount ?_) _
  exact hsensed

theorem grows_commitEdition (g : Staging) : Grows x (commitEdition g s).xu := by
  have hinstalled : Grows x (installEdition g s).1.xu := h.of_signal rfl
  refine grows_commitTests ?_ s
  exact hinstalled.trans (adds_commitNotices (adds_commitRoutes (Adds.refl _) s) s _).grows

theorem grows_finishValidation (g : Staging) : Grows x (finishValidation g s).xu := by
  unfold finishValidation
  split
  · exact grows_rejectEdition h _ _
  · exact grows_commitEdition h g

end GrowsState

theorem discards_grows {n : Nat} {s u : State} (h : Discards n s u) : Grows s.xu u.xu := by
  obtain ⟨t, idle, -, rfl⟩ := h
  exact grows_discardAnswer (Grows.refl _) ..

/-- Does a command change the enables, clear causes, or reset the part? -/
def setsCauses : Instr → Bool
  | .powerOnReset => true
  | .functionReset _ => true
  | .causeEnablesWrite _ => true
  | .causeClear _ => true
  | _ => false

/-- Every other command only latches causes (R187). -/
theorem effect_grows {c : Instr} {s u : State} (h : Effect c s u) (hc : setsCauses c = false) : Grows s.xu u.xu := by
  have hs := Grows.refl s.xu
  cases c <;> simp only [Effect] at h
  case powerOnReset | functionReset | causeEnablesWrite | causeClear => cases hc
  case functionResetEnd | powerOnResetEnd | silentCycleExpiry => rw [h.2]; exact hs
  case badOrder | voyageSecond | refreshCountdownExpiry => subst h; exact hs
  case xbaseHiWrite => subst h; exact hs.of_signal rfl
  case xbaseLoWrite => subst h; exact grows_xbaseXu hs ..
  case surveyWrite => subst h; exact grows_surveyXu hs _
  case surveyCountdownExpiry => subst h; exact grows_reloadSurvey hs
  case publishWordRead => subst h; exact grows_publishTaken hs _
  case runRequest => subst h; exact grows_runRequest hs
  case haltRequest => subst h; exact grows_haltRequest hs
  case callReal => subst h; exact grows_orderCallReal hs
  case callDrill => subst h; exact grows_orderCallDrill hs
  case standDown => subst h; exact grows_orderStandDown hs
  case liveWordsRead => subst h; exact grows_liveTaken hs _
  case ackArrayRead => subst h; exact grows_acksTaken hs _
  case minuteEvent => subst h; exact (adds_minuteTaken (Adds.refl s.xu)).grows
  case alarmQualifiedTransition level =>
    obtain ⟨-, -, ⟨-, rfl⟩ | ⟨-, -, rfl⟩ | ⟨-, -, rfl⟩⟩ := h
    · exact grows_levelTest (s := { s with msc := { s.msc with alarm := some level } }) hs
    · exact grows_realCall (s := { s with msc := { s.msc with alarm := some level } }) hs
    · exact hs
  case alarmInitialLevel level =>
    rw [h.2.2]; exact grows_levelTest (s := { s with msc := { s.msc with alarm := some level } }) hs
  case reserveQualifiedRise =>
    rw [h.2.2]; exact grows_reserveBegin (s := { s with msc := { s.msc with reserveLevel := some true } }) hs
  case reserveQualifiedFall =>
    rw [h.2.2]; exact grows_reserveFinish (s := { s with msc := { s.msc with reserveLevel := some false } }) hs
  case reserveInitialLevel level =>
    obtain ⟨-, -, ⟨-, rfl⟩ | ⟨-, rfl⟩⟩ := h
    · exact grows_reserveBegin (s := { s with msc := { s.msc with reserveLevel := some true } }) hs
    · exact hs
  case calledTimerExpiry => rw [h.2.2]; exact grows_endCalled hs
  case standDownHoldExpiry => rw [h.2.2]; exact grows_returnToStandby hs
  case stepCountdownExpiry => obtain ⟨r, n, -, rfl⟩ := h; exact (adds_moveRot (Adds.refl s.xu) ..).grows
  case interjectionCountdownExpiry => obtain ⟨r, -, rfl⟩ := h; exact (adds_moveRot (Adds.refl s.xu) ..).grows
  case solveComplete => obtain ⟨p, -, rfl⟩ := h; exact (adds_solveTaken (Adds.refl s.xu) p).grows
  case turn => rw [h.2.2]; exact hs
  case haltComplete => rw [h.2]; exact grows_completeHalt hs
  case stateAnswer =>
    obtain ⟨t, -, -, rfl⟩ | h := h
    · exact grows_stateTaken hs ..
    · exact discards_grows h
  case takenToPageHead =>
    obtain ⟨t, p, -, -, rfl⟩ | h | rfl := h
    · exact grows_afterTaken hs ..
    · exact discards_grows h
    · exact hs
  case takenToPageBlock =>
    obtain ⟨t, p, k, -, -, rfl⟩ | h | rfl := h
    · exact grows_afterTaken hs ..
    · exact discards_grows h
    · exact hs
  case heldOff =>
    obtain ⟨t, -, -, rfl⟩ | h := h
    · exact grows_heldOffAnswer hs ..
    · exact discards_grows h
  case answerDiscarded => exact discards_grows h
  case replyWindowTimeout => obtain ⟨t, -, -, rfl⟩ := h; exact grows_noAnswer hs ..
  case statusRecordWritten => obtain ⟨x, content, left, -, rfl⟩ := h; exact grows_statusDone hs ..
  case statusWriteFailed => obtain ⟨x, content, left, -, rfl⟩ := h; exact grows_statusFailed hs _
  case reportWriteDone => obtain ⟨w, -, rfl⟩ := h; exact grows_reportDone hs w
  case reportWriteFailed => obtain ⟨w, -, rfl⟩ := h; exact grows_reportFailed hs _ w
  case busReadFailed side =>
    cases side with
    | survey => obtain ⟨v, -, -, rfl⟩ := h; exact grows_surveyReadFailed hs v
    | staging => obtain ⟨g, -, -, rfl⟩ := h; exact grows_stagingFailed hs g
  case noticeHeaderRead | directoryRead | noticeEntriesRead | publishWordReread =>
    obtain ⟨g, -, -, rfl⟩ := h
    exact grows_applyProgress hs ..
  case recordRead =>
    obtain ⟨g, entry, leaf, sub, index, last, -, -, rfl⟩ := h
    exact grows_applyProgress hs ..
  case validationDone => obtain ⟨g, -, -, rfl⟩ := h; exact grows_finishValidation hs g

theorem exec_grows {c : Instr} {s t : State} (hc : setsCauses c = false) (h : exec c s = .next t) : Grows s.xu t.xu := by
  obtain rfl | ⟨-, heff⟩ | ⟨-, u, heff, rfl⟩ := exec_effect h
  · exact Grows.refl _
  · exact effect_grows heff hc
  · exact grows_flush (effect_grows heff hc)

end Sys2Proof.Machine

/-! PROOFS. Writes of the enables, of CAUSE (R176, R187) and of the base (R177, R183, R189). -/

namespace Sys2Proof.Machine

open Sys2Proof.Safety

/-! ## Causes and enables (R187) -/

theorem exec_causeEnablesWrite (e : BitVec 7) {s : State} (h : s.phase = .operating) :
    exec (.causeEnablesWrite e) s = .next (flush { s with xu := withCauses s.xu.causes e s.xu }) := answer_takes _ h rfl

theorem exec_causeClear (v : Word32) {s : State} (h : s.phase = .operating) :
    exec (.causeClear v) s =
      .next (flush { s with xu := withCauses (s.xu.causes &&& ~~~clearedCauses v) s.xu.enables s.xu }) :=
  answer_takes _ h rfl

theorem withCauses_msiSent (c e : BitVec 7) (x : XuState) : (withCauses c e x).msiSent =
    x.msiSent + if x.causes &&& x.enables = 0 ∧ c &&& e ≠ 0 ∧ x.msiDelivery = true then 1 else 0 := by
  simp only [withCauses, bne_iff_ne, beq_iff_eq, Bool.and_eq_true, and_assoc]
  split <;> rfl

/-- A clear leaves no cause latched and enabled where none was. -/
theorem cleared_enabled_zero {c m e : BitVec 7} (h : c &&& e = 0) : (c &&& m) &&& e = 0 := by
  rw [BitVec.and_assoc, BitVec.and_comm m e, ← BitVec.and_assoc, h]
  exact BitVec.zero_and

/-- The MSI rule of a command that only latches causes, in the words of R187. -/
theorem Grows.msi_rule {x y : XuState} (h : Grows x y) :
    x.causes &&& ~~~y.causes = 0
      ∧ (x.causes &&& x.enables ≠ 0 ∨ x.msiDelivery = false → y.msiSent = x.msiSent)
      ∧ (x.causes &&& x.enables = 0 → x.msiDelivery = true →
          y.msiSent = x.msiSent + if y.causes &&& y.enables = 0 then 0 else 1) := by
  obtain ⟨henables, -, hcauses, hmsi⟩ := h
  refine ⟨?_, ?_, ?_⟩
  · rw [← hcauses, BitVec.and_assoc, BitVec.and_not_self]
    exact BitVec.and_zero
  · intro hquiet
    rw [hmsi, if_neg, Nat.add_zero]
    rintro ⟨hzero, -, hdelivery⟩
    obtain hne | hoff := hquiet
    · exact hne hzero
    · rw [hoff] at hdelivery
      cases hdelivery
  · intro hzero hdelivery
    rw [hmsi, henables]
    by_cases hy : y.causes &&& x.enables = 0
    · rw [if_neg (fun hs => hs.2.1 hy), if_pos hy]
    · rw [if_pos ⟨hzero, hy, hdelivery⟩, if_neg hy]

/-- Settles O8: the two writes by their equations, and every other command by the growth of the causes. -/
theorem causesLatched : Obligations.CausesLatched := by
  unfold Obligations.CausesLatched
  refine ⟨⟨?_, ?_⟩, ?_⟩
  · intro e s h
    refine ⟨_, exec_causeEnablesWrite e h, ?_, ?_, ?_, rfl⟩
    · simp only [flush, startReports_enables]; rfl
    · simp only [flush, startReports_causes]; rfl
    · simp only [flush, startReports_msiSent]; exact withCauses_msiSent ..
  · intro v s h
    refine ⟨_, exec_causeClear v h, ?_, ?_, ?_, sameRegisters_of_held ?_, rfl⟩
    · simp only [flush, startReports_causes]; rfl
    · simp only [flush, startReports_enables]; rfl
    · simp only [flush, startReports_msiSent]
      rw [withCauses_msiSent, if_neg (fun hs => hs.2.1 (cleared_enabled_zero hs.1))]
      rfl
    · simp only [flush, startReports_held]; rfl
  · intro c s t hreset hclear h
    cases c
    case causeEnablesWrite e =>
      by_cases hp : s.phase = .operating
      · rw [exec_causeEnablesWrite e hp] at h
        obtain rfl := Host.Outcome.next.inj h
        simp only [flush, startReports_causes, startReports_enables, startReports_msiSent]
        have hcauses : (withCauses s.xu.causes e s.xu).causes = s.xu.causes := rfl
        have henables : (withCauses s.xu.causes e s.xu).enables = e := rfl
        rw [withCauses_msiSent, hcauses, henables]
        refine ⟨BitVec.and_not_self .., ?_, ?_⟩
        · rintro (⟨-, hne⟩ | hoff)
          · exact absurd rfl (hne e)
          · rw [if_neg (fun hs => by rw [hoff] at hs; exact nomatch hs.2.2), Nat.add_zero]
        · intro hzero hdelivery
          by_cases hy : s.xu.causes &&& e = 0
          · rw [if_neg (fun hs => hs.2.1 hy), if_pos hy]
          · rw [if_pos ⟨hzero, hy, hdelivery⟩, if_neg hy]
      · have hsame : exec (.causeEnablesWrite e) s = .next s :=
          congrArg Host.Outcome.next (if_neg (by simp [operating, hp]))
        rw [hsame] at h
        obtain rfl := Host.Outcome.next.inj h
        obtain ⟨hgrow, hquiet, hsent⟩ := (Grows.refl s.xu).msi_rule
        exact ⟨hgrow, fun hs => hquiet (hs.imp_left And.left), hsent⟩
    case causeClear v => exact absurd rfl (hclear v)
    case powerOnReset | functionReset => cases hreset
    all_goals
      obtain ⟨hgrow, hquiet, hsent⟩ := (exec_grows rfl h).msi_rule
      exact ⟨hgrow, fun hs => hquiet (hs.imp_left And.left), hsent⟩

/-! ## The base in force (R177) -/

/-- The Exchange Unit with the written base and span in force, and what a change of either marks (R177). -/
def rebased (v : Word32) (x : XuState) : XuState :=
  let y := { x with base := writtenBase x.pendingHi v, span := writtenSpan v }
  if y.base = x.base ∧ y.span = x.span then y else markAll y

theorem rebased_frame (v : Word32) (x : XuState) :
    { rebased v x with base := x.base, span := x.span, reportMark := x.reportMark, status := x.status } = x := by
  unfold rebased
  dsimp only
  split <;> rfl

theorem rebased_span (v : Word32) (x : XuState) : (rebased v x).span = writtenSpan v := by
  unfold rebased
  dsimp only
  split <;> rfl

theorem markAll_mark (x : XuState) (n : Nat) : (statusHold (markAll x) n).mark = true := by
  simp only [statusHold, markAll, tblGetD, tblGet_map]
  cases tblGet x.status n <;> rfl

/-- A change of base or span marks the report block and every status record (R177). -/
theorem rebased_marks {v : Word32} {x : XuState} (h : writtenBase x.pendingHi v ≠ x.base ∨ writtenSpan v ≠ x.span) :
    (rebased v x).reportMark = true ∧ ∀ n, (statusHold (rebased v x) n).mark = true := by
  have hchange : ¬(writtenBase x.pendingHi v = x.base ∧ writtenSpan v = x.span) := by tauto
  have hrebased : rebased v x = markAll { x with base := writtenBase x.pendingHi v, span := writtenSpan v } :=
    if_neg hchange
  rw [hrebased]
  exact ⟨rfl, markAll_mark _⟩

theorem writtenSpan_eq (v : Word32) : writtenSpan v = min 16 (v.toNat % 32) := by simp [writtenSpan]

theorem baseValid_rebased (v : Word32) (x : XuState) : baseValid (rebased v x) = true ↔ writtenSpan v ≠ 0 := by
  have hle := writtenSpan_le v
  simp only [baseValid, rebased_span, Bool.and_eq_true, decide_eq_true_eq]
  omega

theorem baseValid_rebased_false {v : Word32} {x : XuState} (h : writtenSpan v = 0) : baseValid (rebased v x) = false := by
  rw [← Bool.not_eq_true, baseValid_rebased]
  exact not_not_intro h

section Rebased

variable (second v : Word32) (x : XuState)

/-- A write of XBASE_LO by the validity of the base before and after it (R177, R189). -/
theorem xbaseXu_eq : xbaseXu second v x =
    if baseValid (rebased v x) then
      if baseValid x = false ∧ x.runState = .running then startSurveys (rebased v x) else rebased v x
    else if baseValid x then baseLost second (rebased v x)
    else rebased v x := by
  have hy : baseValid { x with base := writtenBase x.pendingHi v, span := writtenSpan v } = baseValid (rebased v x) := by
    simp only [baseValid, rebased_span]
  unfold xbaseXu
  dsimp only
  rw [hy]
  rfl

/-- A base made valid while RUNNING starts the surveys (R189). -/
theorem xbaseXu_starts (hspan : writtenSpan v ≠ 0) (hbase : baseValid x = false) (hrun : x.runState = .running) :
    xbaseXu second v x = reloadSurvey (rebased v x) := by
  have hvalid := (baseValid_rebased v x).mpr hspan
  rw [xbaseXu_eq, if_pos hvalid, if_pos ⟨hbase, hrun⟩, startSurveys_of_baseValid hvalid]

/-- A valid base in other run states, or changed for another, starts nothing (R189, log 15). -/
theorem xbaseXu_changes (hspan : writtenSpan v ≠ 0) (hquiet : baseValid x = true ∨ x.runState ≠ .running) :
    xbaseXu second v x = rebased v x := by
  have hno : ¬(baseValid x = false ∧ x.runState = .running) := by
    rintro ⟨hfalse, hrun⟩
    obtain htrue | hne := hquiet
    · rw [htrue] at hfalse; cases hfalse
    · exact hne hrun
  rw [xbaseXu_eq, if_pos ((baseValid_rebased v x).mpr hspan), if_neg hno]

/-- A base made invalid drops the writes (R183, R189). -/
theorem xbaseXu_loses (hspan : writtenSpan v = 0) (hbase : baseValid x = true) :
    xbaseXu second v x = baseLost second (rebased v x) := by
  rw [xbaseXu_eq, baseValid_rebased_false hspan, hbase]
  rfl

theorem xbaseXu_stays (hspan : writtenSpan v = 0) (hbase : baseValid x = false) : xbaseXu second v x = rebased v x := by
  rw [xbaseXu_eq, baseValid_rebased_false hspan, hbase]
  rfl

end Rebased

/-! ## The writes that a lost base drops (R183, R187) -/

/-- With no valid base no pending survey begins at the end of one (R181). -/
theorem endSurvey_of_invalid {x : XuState} (hbase : baseValid x = false) :
    endSurvey x = { x with survey := none, surveyPending := false } := by
  obtain e | ⟨-, -, hvalid, -⟩ := endSurvey_cases x
  · exact e
  · rw [hbase] at hvalid; cases hvalid

/-- What is left when the report and status writes are dropped: the causes that waited are latched, and a survey at a
status write ends. -/
theorem dropWrites_eq (x : XuState) (hbase : baseValid x = false) :
    ∃ msi survey pending, dropWrites x = { x with
        reportWrite := none, reportDue := [], waiting := 0, causes := x.causes ||| strandedCauses x, msiSent := msi
        survey, surveyPending := pending }
      ∧ (∀ n r l, survey ≠ some (.status n r l)) ∧ (x.survey = none → survey = none) := by
  unfold dropWrites
  dsimp only
  split
  · rename_i n r l hs
    have hdropped : baseValid (latchBits (strandedCauses x)
        { x with reportWrite := none, reportDue := [], waiting := 0 }) = false := hbase
    rw [endSurvey_of_invalid hdropped]
    exact ⟨_, _, _, rfl, by simp, fun _ => rfl⟩
  · rename_i hs
    exact ⟨_, _, _, rfl, hs, id⟩

theorem strandedCauses_eq (x : XuState) : strandedCauses x =
    x.waiting ||| (x.reportWrite.map ReportWrite.covers).getD 0
      ||| if WriteReason.halt ∈ x.reportDue ∨ x.reportWrite.map ReportWrite.reason = some .halt then 32#7 else 0 := by
  simp only [strandedCauses, haltDropped, Bool.or_eq_true, List.contains_iff_mem, decide_eq_true_eq]
  rfl

/-- The Exchange Unit when its base is lost (R183, R187, R189). -/
structure BaseGone (second : Word32) (x y : XuState) : Prop where
  write : y.reportWrite = none
  due : y.reportDue = []
  waiting : y.waiting = 0
  counters : y.counters = x.counters
  status : y.status = x.status
  mark : y.reportMark = x.reportMark
  serial : y.reportSerial = x.reportSerial
  runState : y.runState = x.runState
  survey : ∀ n r l, y.survey ≠ some (.status n r l)
  idle : x.survey = none → y.survey = none
  causes : y.causes = x.causes ||| strandedCauses x ||| if x.runState = .running then 16#7 else 0
  running : x.runState = .running → y.countdown = none
    ∧ y.lastFault = { kind := .noBase, subject := none, second }
  others : x.runState ≠ .running → y.countdown = x.countdown ∧ y.lastFault = x.lastFault

theorem baseLost_gone (second : Word32) {x : XuState} (hbase : baseValid x = false) :
    BaseGone second x (baseLost second x) := by
  obtain ⟨msi, survey, pending, hdrop, hsurvey, hidle⟩ := dropWrites_eq x hbase
  unfold baseLost
  dsimp only
  rw [hdrop]
  split
  · rename_i hrun
    exact ⟨rfl, rfl, rfl, rfl, rfl, rfl, rfl, rfl, hsurvey, hidle, by rw [if_pos hrun]; rfl, fun _ => ⟨rfl, rfl⟩,
      fun hne => absurd hrun hne⟩
  · rename_i hrun
    exact ⟨rfl, rfl, rfl, rfl, rfl, rfl, rfl, rfl, hsurvey, hidle, by rw [if_neg hrun]; exact BitVec.or_zero.symm,
      fun heq => absurd heq hrun, fun _ => ⟨rfl, rfl⟩⟩

/-- With no valid base and no write in progress none begins, and a survey at its report step ends (R183). -/
theorem startReports_of_invalid {f : ReportFields} {x : XuState} (hwrite : x.reportWrite = none)
    (hbase : baseValid x = false) :
    (startReports f x).reportWrite = none ∧ (startReports f x).reportDue = [] ∧ (startReports f x).waiting = x.waiting
      ∧ ((startReports f x).survey = x.survey ∨ (startReports f x).survey = none) ∧ (startReports f x).survey ≠ some .report := by
  have hdropped : baseValid { x with reportDue := [] } = false := hbase
  unfold startReports
  split
  · rename_i w hw; rw [hwrite] at hw; cases hw
  · rw [if_neg (by simp [hbase])]
    dsimp only
    split
    · rw [endSurvey_of_invalid hdropped]
      exact ⟨hwrite, rfl, rfl, .inr rfl, by simp⟩
    · rename_i hs
      exact ⟨hwrite, rfl, rfl, .inl rfl, hs⟩

/-- A block that is marked stays so, or its survey's write begins (R183, log 52). -/
theorem startReports_mark {f : ReportFields} {x : XuState} (h : x.reportMark = true) :
    (startReports f x).reportMark = true ∨ ∃ w, (startReports f x).reportWrite = some w ∧ w.reason = .survey
      ∧ w.base = x.base ∧ w.serial = x.reportSerial + 1 := by
  obtain e | ⟨-, ⟨-, ⟨r, rest, -, e⟩ | ⟨-, e⟩ | ⟨-, hmark, -, e⟩⟩ | ⟨-, e | ⟨-, e⟩⟩⟩ := startReports_cases f x <;> rw [e]
  case inl => exact .inl h
  case inr.inl.inl =>
    by_cases hr : r = .survey
    · exact .inr ⟨_, rfl, hr, rfl, rfl⟩
    · left
      have hkeeps : keepsMark r = true := by
        cases r with
        | survey => exact absurd rfl hr
        | immediate => rfl
        | halt => rfl
      simp [beginReport, h, hkeeps]
  case inr.inl.inr.inl => exact .inr ⟨_, rfl, rfl, rfl, rfl⟩
  case inr.inl.inr.inr => rw [hmark] at h; cases h
  case inr.inr.inl => exact .inl h
  case inr.inr.inr => left; rw [endSurvey_reportMark]; exact h

/-! ## Writes of the base -/

section RebasedFields

variable (v : Word32) (x : XuState)

theorem rebased_runState : (rebased v x).runState = x.runState := (congrArg XuState.runState (rebased_frame v x) :)
theorem rebased_countdown : (rebased v x).countdown = x.countdown := (congrArg XuState.countdown (rebased_frame v x) :)
theorem rebased_lastFault : (rebased v x).lastFault = x.lastFault := (congrArg XuState.lastFault (rebased_frame v x) :)
theorem rebased_causes : (rebased v x).causes = x.causes := (congrArg XuState.causes (rebased_frame v x) :)
theorem rebased_counters : (rebased v x).counters = x.counters := (congrArg XuState.counters (rebased_frame v x) :)
theorem rebased_survey : (rebased v x).survey = x.survey := (congrArg XuState.survey (rebased_frame v x) :)
theorem rebased_serial : (rebased v x).reportSerial = x.reportSerial :=
  (congrArg XuState.reportSerial (rebased_frame v x) :)
theorem rebased_interval : (rebased v x).interval = x.interval := (congrArg XuState.interval (rebased_frame v x) :)

theorem rebased_stranded : strandedCauses (rebased v x) = strandedCauses x := by
  have hwaiting : (rebased v x).waiting = x.waiting := (congrArg XuState.waiting (rebased_frame v x) :)
  have hwrite : (rebased v x).reportWrite = x.reportWrite := (congrArg XuState.reportWrite (rebased_frame v x) :)
  have hdue : (rebased v x).reportDue = x.reportDue := (congrArg XuState.reportDue (rebased_frame v x) :)
  simp only [strandedCauses_eq, hwaiting, hwrite, hdue]

end RebasedFields

/-- Whatever a write of XBASE_LO starts or stops, the marks, the serial and the run state are those with the base in
force. -/
theorem xbaseXu_keeps (second v : Word32) (x : XuState) :
    (xbaseXu second v x).runState = x.runState ∧ (xbaseXu second v x).status = (rebased v x).status
      ∧ (xbaseXu second v x).reportMark = (rebased v x).reportMark ∧ (xbaseXu second v x).reportSerial = x.reportSerial := by
  by_cases hspan : writtenSpan v = 0 <;> by_cases hbase : baseValid x = true
  · have hgone := baseLost_gone second (baseValid_rebased_false (x := x) hspan)
    rw [xbaseXu_loses second v x hspan hbase]
    exact ⟨hgone.runState.trans (rebased_runState ..), hgone.status, hgone.mark, hgone.serial.trans (rebased_serial ..)⟩
  · rw [xbaseXu_stays second v x hspan (by simpa using hbase)]
    exact ⟨rebased_runState .., rfl, rfl, rebased_serial ..⟩
  · rw [xbaseXu_changes second v x hspan (.inl hbase)]
    exact ⟨rebased_runState .., rfl, rfl, rebased_serial ..⟩
  · by_cases hrun : x.runState = .running
    · rw [xbaseXu_starts second v x hspan (by simpa using hbase) hrun]
      have hframe := beginSurvey_frame (rebased v x)
      exact ⟨(reloadSurvey_runState _).trans (rebased_runState ..), (congrArg XuState.status hframe :),
        (congrArg XuState.reportMark hframe :), (congrArg XuState.reportSerial hframe :).trans (rebased_serial ..)⟩
    · rw [xbaseXu_changes second v x hspan (.inr hrun)]
      exact ⟨rebased_runState .., rfl, rfl, rebased_serial ..⟩

theorem exec_xbaseLoWrite (v : Word32) {s : State} (h : s.phase = .operating) :
    exec (.xbaseLoWrite v) s = .next (flush { s with xu := xbaseXu s.clk.second v s.xu }) := answer_takes _ h rfl

/-- The base of a write, field by field (R177). -/
theorem writtenBase_fields (hi v : Word32) :
    (writtenBase hi v).extractLsb' 32 32 = hi ∧ (writtenBase hi v).extractLsb' 12 20 = v.extractLsb' 12 20 := by
  have hmask : (0xFFFFF000#32).extractLsb' 12 20 = BitVec.allOnes 20 := by decide
  unfold writtenBase
  constructor
  · ext i hi'
    simp only [BitVec.getElem_extractLsb', BitVec.getLsbD_append]
    rw [if_neg (by omega), Nat.add_sub_cancel_left]
    exact BitVec.getLsbD_eq_getElem hi'
  · have hlow : (hi ++ (v &&& 0xFFFFF000#32)).extractLsb' 12 20 = (v &&& 0xFFFFF000#32).extractLsb' 12 20 := by
      ext i hi'
      simp only [BitVec.getElem_extractLsb', BitVec.getLsbD_append]
      rw [if_pos (by omega)]
    rw [hlow, BitVec.extractLsb'_and, hmask, BitVec.and_allOnes]

theorem xbaseHiWrite_taken (v : Word32) {s : State} (h : s.phase = .operating) :
    ∃ t, exec (.xbaseHiWrite v) s = .next t ∧ t.xu.pendingHi = v ∧ t.xu.base = s.xu.base ∧ t.xu.span = s.xu.span
      ∧ readReg t 0x0C 4 = v ∧ { t with xu := s.xu } = s := by
  have hheld := flush_held { s with xu := { s.xu with pendingHi := v } }
  have hv : (flush { s with xu := { s.xu with pendingHi := v } }).xu.pendingHi = v := (congrArg XuHeld.pendingHi hheld :)
  refine ⟨_, answer_takes { s with xu := { s.xu with pendingHi := v } } h rfl, hv, (congrArg XuHeld.base hheld :),
    (congrArg XuHeld.span hheld :), ?_, rfl⟩
  rw [readReg_xbaseHi (by simpa using h), hv]

/-- Settles O9: by the validity of the base before and after the write, as the four equations of `xbaseXu` say. -/
theorem xbaseWrites : Obligations.XbaseWrites := by
  unfold Obligations.XbaseWrites
  refine ⟨fun v s => xbaseHiWrite_taken v, ?_⟩
  intro v s h
  have hheld := (startReports_held (reportFields { s with xu := xbaseXu s.clk.second v s.xu })
    (xbaseXu s.clk.second v s.xu)).trans (xbaseXu_held s.clk.second v s.xu)
  obtain ⟨hhi, hmid⟩ := writtenBase_fields s.xu.pendingHi v
  obtain ⟨hrunState, hstatus, hmark, hserial⟩ := xbaseXu_keeps s.clk.second v s.xu
  refine ⟨_, exec_xbaseLoWrite v h, ?_⟩
  simp only [flush]
  generalize reportFields { s with xu := xbaseXu s.clk.second v s.xu } = f at hheld ⊢
  have hbase : (startReports f (xbaseXu s.clk.second v s.xu)).base = writtenBase s.xu.pendingHi v :=
    (congrArg XuHeld.base hheld :)
  have hspan : (startReports f (xbaseXu s.clk.second v s.xu)).span = writtenSpan v := (congrArg XuHeld.span hheld :)
  have hxbase : (xbaseXu s.clk.second v s.xu).base = writtenBase s.xu.pendingHi v := (startReports_base f _).symm.trans hbase
  rw [hbase, hspan]
  refine ⟨hhi, hmid, writtenBase_aligned .., writtenSpan_eq v, (startReports_runState ..).trans hrunState, ?_, ?_, ?_, ?_, ?_,
    ?_, ?_, (congrArg XuHeld.stage hheld :), (congrArg XuHeld.applied hheld :), (congrArg XuHeld.settled hheld :), trivial⟩
  · intro hchange
    obtain ⟨hblock, hrecords⟩ := rebased_marks hchange
    refine ⟨fun n => ?_, ?_⟩
    · simp only [statusHold, startReports_status, hstatus]
      exact hrecords n
    · obtain hstays | ⟨w, hw, hreason, hwbase, hwserial⟩ := startReports_mark (f := f) (hmark.trans hblock)
      · exact .inl hstays
      · exact .inr ⟨w, hw, hreason, hwbase.trans hxbase, by rw [hwserial, hserial]⟩
  · intro hrun hvalid hzero
    have hgone := baseLost_gone s.clk.second (baseValid_rebased_false (x := s.xu) hzero)
    obtain ⟨hcountdown, hfault⟩ := hgone.running ((rebased_runState ..).trans hrun)
    simp only [startReports_countdown, startReports_lastFault, startReports_causes]
    rw [xbaseXu_loses _ _ _ hzero hvalid]
    refine ⟨hcountdown, hfault, ?_⟩
    rw [hgone.causes, rebased_runState, if_pos hrun, BitVec.getLsbD_or]
    simp
  · intro hvalid hzero
    have hfalse := baseValid_rebased_false (x := s.xu) hzero
    have hgone := baseLost_gone s.clk.second hfalse
    have hlost : baseValid (baseLost s.clk.second (rebased v s.xu)) = false :=
      (baseValid_of_held (baseLost_held ..)).trans hfalse
    rw [xbaseXu_loses _ _ _ hzero hvalid]
    obtain ⟨hwrite, hdue, hwaiting, hsurvey, hreport⟩ := startReports_of_invalid (f := f) hgone.write hlost
    refine ⟨hwrite, hdue, hwaiting.trans hgone.waiting, ?_, ?_, hreport, ?_⟩
    · rw [startReports_counters, hgone.counters, rebased_counters]
    · intro n r l
      obtain e | e := hsurvey
      · rw [e]; exact hgone.survey n r l
      · rw [e]; simp
    · rw [startReports_causes, hgone.causes, rebased_causes, rebased_runState, rebased_stranded, strandedCauses_eq]
      simp only [BitVec.or_assoc]
  · intro hrun hinvalid hne
    rw [xbaseXu_starts _ _ _ hne hinvalid hrun]
    have hasked := startReports_reloadSurvey_asked (f := f) ((rebased_runState v s.xu).trans hrun)
      ((baseValid_rebased v s.xu).mpr hne)
    unfold SurveyAsked at hasked ⊢
    rw [rebased_survey] at hasked
    refine ⟨hasked, ?_⟩
    rw [startReports_countdown]
    show some ((rebased v s.xu).interval * 25000) = _
    rw [rebased_interval]
  · intro hvalid hne
    rw [xbaseXu_changes _ _ _ hne (.inl hvalid)]
    simp only [startReports_countdown, startReports_lastFault, startReports_causes, rebased_countdown, rebased_lastFault,
      rebased_causes, true_and]
    intro hreport
    rw [(startReports_survey_of_ne_report (by rwa [rebased_survey])).1, rebased_survey]
  · intro hrun
    simp only [startReports_countdown, startReports_lastFault]
    by_cases hzero : writtenSpan v = 0
    · by_cases hvalid : baseValid s.xu = true
      · have hgone := baseLost_gone s.clk.second (baseValid_rebased_false (x := s.xu) hzero)
        obtain ⟨hcountdown, hfault⟩ := hgone.others (by rwa [rebased_runState])
        rw [xbaseXu_loses _ _ _ hzero hvalid, hcountdown, hfault, rebased_countdown, rebased_lastFault]
        exact ⟨rfl, rfl, fun hnone => startReports_survey_none (hgone.idle ((rebased_survey ..).trans hnone))⟩
      · rw [xbaseXu_stays _ _ _ hzero (by simpa using hvalid), rebased_countdown, rebased_lastFault]
        exact ⟨rfl, rfl, fun hnone => startReports_survey_none ((rebased_survey ..).trans hnone)⟩
    · rw [xbaseXu_changes _ _ _ hzero (.inr hrun), rebased_countdown, rebased_lastFault]
      exact ⟨rfl, rfl, fun hnone => startReports_survey_none ((rebased_survey ..).trans hnone)⟩
  · intro hinvalid hzero
    simp only [startReports_countdown, startReports_lastFault, startReports_causes]
    rw [xbaseXu_stays _ _ _ hzero hinvalid, rebased_countdown, rebased_lastFault, rebased_causes]
    exact ⟨rfl, rfl, rfl, fun hnone => startReports_survey_none ((rebased_survey ..).trans hnone)⟩

end Sys2Proof.Machine

/-! PROOFS. Composition (R90 to R98): what a notice does to the composition records, and when every configured station shows
the page that the part calls for. What a report that is asked for becomes at the end of the command (R183, R187). -/

namespace Sys2Proof.Machine

open Sys2Proof.Safety

/-! ## The candidate page -/

/-- A candidate page is made from the tables, the slots, the Programme Unit, the Muster Controller and the rotations. -/
theorem candidate_congr {s t : State} (hsms : t.sms = s.sms) (hrsv : t.rsv = s.rsv) (hpgu : t.pgu = s.pgu)
    (hmsc : t.msc = s.msc) (hpco : { t.pco with pages := s.pco.pages } = s.pco) (x : Nat) (st : StationRec) :
    candidate t x st = candidate s x st := by
  have hrots : t.pco.rots = s.pco.rots := (congrArg PcoState.rots hpco :)
  have hrotations : t.pco.rotations = s.pco.rotations := (congrArg PcoState.rotations hpco :)
  have hnotices : t.pco.notices = s.pco.notices := (congrArg PcoState.notices hpco :)
  have hinterj : t.pco.interjections = s.pco.interjections := (congrArg PcoState.interjections hpco :)
  simp only [candidate, excluded, composeScreen, composeProgramme, positionShows, hsms, hrsv, hpgu, hmsc, hrots, hrotations,
    hnotices, hinterj] <;> rfl

/-- Taking a candidate a second time leaves the record. -/
theorem takeCandidate_twice (c : Candidate) (r : PageRec) : takeCandidate c (takeCandidate c r) = takeCandidate c r := by
  simp [takeCandidate]

/-! ## One notice (R91, R92) -/

theorem composeOne_page (s : State) (acc : Tbl PageRec × XuState) (n x : Nat) :
    tblGetD (composeOne s acc n).1 x emptyPageRec =
      match tblGet s.sms.stations x with
      | some st => if n = x then takeCandidate (candidate s x st) (tblGetD acc.1 x emptyPageRec)
          else tblGetD acc.1 x emptyPageRec
      | none => tblGetD acc.1 x emptyPageRec := by
  unfold composeOne
  by_cases hx : n = x
  · subst hx
    cases tblGet s.sms.stations n with
    | none => rfl
    | some st => simp [tblGetD_put_self]
  · cases hn : tblGet s.sms.stations n with
    | none => cases tblGet s.sms.stations x <;> simp [hx]
    | some st => cases tblGet s.sms.stations x <;> simp [hx, tblGetD_put_ne _ _ _ (Ne.symm hx)]

/-- The record of a station after the marks of a notice: a configured one that is marked takes its candidate. -/
theorem composeAll_page (s : State) (m : List Nat) (acc : Tbl PageRec × XuState) (x : Nat) :
    tblGetD (m.foldl (composeOne s) acc).1 x emptyPageRec =
      match tblGet s.sms.stations x with
      | some st => if x ∈ m then takeCandidate (candidate s x st) (tblGetD acc.1 x emptyPageRec)
          else tblGetD acc.1 x emptyPageRec
      | none => tblGetD acc.1 x emptyPageRec := by
  induction m generalizing acc with
  | nil => cases tblGet s.sms.stations x <;> simp
  | cons n rest ih =>
    rw [List.foldl_cons, ih, composeOne_page]
    cases tblGet s.sms.stations x with
    | none => rfl
    | some st =>
      by_cases hn : n = x
      · subst hn
        by_cases hr : n ∈ rest <;> simp [hr, takeCandidate_twice]
      · by_cases hr : x ∈ rest <;> simp [hr, hn, Ne.symm hn]

theorem composeMarked_pageRec (m : List Nat) (s : State) (x : Nat) :
    pageRec (composeMarked m s).pco x =
      match tblGet s.sms.stations x with
      | some st => if x ∈ m then takeCandidate (candidate s x st) (pageRec s.pco x) else pageRec s.pco x
      | none => pageRec s.pco x := composeAll_page s m _ x

theorem composeMarked_pageRec_marked {m : List Nat} {s : State} {x : Nat} {st : StationRec}
    (hst : tblGet s.sms.stations x = some st) (hx : x ∈ m) :
    pageRec (composeMarked m s).pco x = takeCandidate (candidate s x st) (pageRec s.pco x) := by
  rw [composeMarked_pageRec, hst]; simp [hx]

theorem composeMarked_pageRec_unmarked {m : List Nat} (s : State) {x : Nat} (hx : x ∉ m) :
    pageRec (composeMarked m s).pco x = pageRec s.pco x := by
  rw [composeMarked_pageRec]; cases tblGet s.sms.stations x <;> simp [hx]

theorem composeMarked_pageRec_unconfigured (m : List Nat) {s : State} {x : Nat} (hx : tblGet s.sms.stations x = none) :
    pageRec (composeMarked m s).pco x = pageRec s.pco x := by
  rw [composeMarked_pageRec, hx]

theorem candidate_composeMarked (m : List Nat) (s : State) (x : Nat) (st : StationRec) :
    candidate (composeMarked m s) x st = candidate s x st := candidate_congr rfl rfl rfl rfl rfl x st

/-- The page of a station is the one that the part calls for (R92, R95). -/
def PageShown (s : State) (x : Nat) : Prop :=
  ∀ st, tblGet s.sms.stations x = some st → desiredPage s.pco x = some (candidate s x st).page

theorem pagesShown_iff {s : State} : PagesShown s ↔ ∀ x, PageShown s x := Iff.rfl

theorem pageShown_marked {m : List Nat} {s : State} {x : Nat} (hx : x ∈ m) : PageShown (composeMarked m s) x := by
  intro st hst
  rw [composeMarked_sms] at hst
  rw [desiredPage, composeMarked_pageRec_marked hst hx, candidate_composeMarked]
  rfl

theorem pageShown_composeMarked {s : State} {x : Nat} (h : PageShown s x) (m : List Nat) : PageShown (composeMarked m s) x := by
  by_cases hx : x ∈ m
  · exact pageShown_marked hx
  · intro st hst
    rw [desiredPage, composeMarked_pageRec_unmarked s hx, candidate_composeMarked]
    exact h st hst

/-- A page is as shown where neither its record nor what it is made from has changed. -/
theorem pageShown_of_same {s t : State} {x : Nat} (h : PageShown s x) (hsms : t.sms = s.sms) (hrsv : t.rsv = s.rsv)
    (hpgu : t.pgu = s.pgu) (hmsc : t.msc = s.msc) (hpco : t.pco = s.pco) : PageShown t x := by
  intro st hst
  rw [candidate_congr hsms hrsv hpgu hmsc (by rw [hpco]) x st, hpco]
  exact h st (hsms ▸ hst)

theorem pagesShown_of_same {s t : State} (h : PagesShown s) (hsms : t.sms = s.sms) (hrsv : t.rsv = s.rsv)
    (hpgu : t.pgu = s.pgu) (hmsc : t.msc = s.msc) (hpco : t.pco = s.pco) : PagesShown t :=
  fun x => pageShown_of_same (h x) hsms hrsv hpgu hmsc hpco

theorem pagesShown_composeMarked {s : State} (h : PagesShown s) (m : List Nat) : PagesShown (composeMarked m s) :=
  fun x => pageShown_composeMarked (h x) m

theorem pagesShown_composeEach {α : Type} {s : State} (h : PagesShown s) (l : List α) (f : State → α → List Nat) :
    PagesShown (l.foldl (fun t y => composeMarked (f t y) t) s) := by
  induction l generalizing s with
  | nil => exact h
  | cons y rest ih => exact ih (pagesShown_composeMarked h _)

/-- A list of notices changes pages and the Exchange Unit alone. -/
theorem composeEach_frame {α : Type} (l : List α) (f : State → α → List Nat) (s : State) :
    { l.foldl (fun t y => composeMarked (f t y) t) s with pco := s.pco, xu := s.xu } = s
      ∧ { (l.foldl (fun t y => composeMarked (f t y) t) s).pco with pages := s.pco.pages } = s.pco := by
  induction l generalizing s with
  | nil => exact ⟨rfl, rfl⟩
  | cons y rest ih =>
    obtain ⟨hs, hp⟩ := ih (composeMarked (f s y) s)
    refine ⟨?_, ?_⟩
    · exact (congrArg (fun t : State => { t with pco := s.pco, xu := s.xu }) hs :)
    · exact (congrArg (fun p : PcoState => { p with pages := s.pco.pages }) hp :)

theorem pageBlocks_eq {t s : State} (h : { t with pco := s.pco, xu := s.xu } = s) : pageBlocks t s = t := by
  have ht := congrArg (fun u : State => { u with pco := t.pco, xu := t.xu }) h
  exact ht.symm

/-- The notices of changed map entries are compositions, one after another. -/
theorem mapNotices_eq (c : MscState) (s : State) :
    mapNotices c s = (changedEntries c s.msc).foldl (fun t x => composeMarked [x] t) s :=
  pageBlocks_eq (composeEach_frame _ (fun _ x => [x]) s).1

theorem listNotices_eq (g : PguState) (anew : List Nat) (s : State) :
    listNotices g anew s = (changedLists g s.pgu anew).foldl (fun t x => composeMarked (showingList t [x]) t) s :=
  pageBlocks_eq (composeEach_frame _ (fun t x => showingList t [x]) s).1

theorem timeNotice_eq (g : PguState) (s : State) :
    timeNotice g s = if timeChanged g s.pgu then composeMarked (showingTime s) s else s := by
  unfold timeNotice
  split <;> rfl

theorem pagesShown_mapNotices {s : State} (h : PagesShown s) (c : MscState) : PagesShown (mapNotices c s) := by
  rw [mapNotices_eq]
  exact pagesShown_composeEach h _ (fun _ x => [x])

/-- With every configured station marked, every page is shown (R95). -/
theorem pagesShown_announceMuster (s : State) : PagesShown (announceMuster s) := by
  have hshown : PagesShown (composeMarked (allStations s) s) := by
    intro x st hst
    have hx : x ∈ allStations s := (mem_keys ..).mpr (by simp only [tblHas]; rw [show tblGet s.sms.stations x = some st from hst]; rfl)
    exact pageShown_marked hx st hst
  exact pagesShown_of_same hshown rfl rfl rfl rfl rfl

theorem pagesShown_enterMustering (s : State) : PagesShown (enterMustering s) := pagesShown_announceMuster _

/-- Outside its end the completion test leaves every state as it was (R72). -/
theorem completeTest_eq (s : State) : completeTest s = if tallyComplete s then enterMustering s else s := by
  unfold completeTest
  dsimp only
  split <;> rfl

theorem pagesShown_completeTest {s : State} (h : PagesShown s) : PagesShown (completeTest s) := by
  rw [completeTest_eq]
  split
  · exact pagesShown_enterMustering s
  · exact h

theorem pagesShown_flush {s : State} (h : PagesShown s) : PagesShown (flush s) :=
  pagesShown_of_same h rfl rfl rfl rfl rfl

/-! ## Causes and reports that are told (R183, R187) -/

/-- A cause waits for a report write, or is latched with no valid base (R187). -/
def CauseHeld (k : Nat) (x : XuState) : Prop :=
  (baseValid x = false → x.causes.getLsbD k = true) ∧ (baseValid x = true → x.waiting.getLsbD k = true)

/-- A cause waits for a report write that is due at once, or is latched with no valid base (R76, R172, R187). -/
def ReportAsked (k : Nat) (x : XuState) : Prop :=
  CauseHeld k x ∧ (baseValid x = true → WriteReason.immediate ∈ x.reportDue)

theorem getLsbD_of_and {a b : BitVec 7} (h : a &&& b = a) {k : Nat} (hk : a.getLsbD k = true) : b.getLsbD k = true := by
  rw [← h, BitVec.getLsbD_and, Bool.and_eq_true] at hk
  exact hk.2

/-- What keeps a cause held: the base as valid as it was, and causes and waiting causes that only grow. -/
structure Holds (x y : XuState) : Prop where
  valid : baseValid y = baseValid x
  causes : x.causes &&& y.causes = x.causes
  waiting : x.waiting &&& y.waiting = x.waiting
  due : ∀ r ∈ x.reportDue, r ∈ y.reportDue

theorem Adds.holds {x y : XuState} (h : Adds x y) : Holds x y := by
  obtain ⟨more, hdue⟩ := h.due
  exact ⟨h.baseValid, h.grows.causes, h.waiting, fun r hr => hdue ▸ List.mem_append_left _ hr⟩

theorem Holds.refl (x : XuState) : Holds x x := (Adds.refl x).holds

theorem Holds.trans {x y z : XuState} (h : Holds x y) (k : Holds y z) : Holds x z := by
  refine ⟨k.valid.trans h.valid, ?_, ?_, fun r hr => k.due r (h.due r hr)⟩
  · rw [← h.causes, BitVec.and_assoc, k.causes]
  · rw [← h.waiting, BitVec.and_assoc, k.waiting]

theorem CauseHeld.mono {k : Nat} {x y : XuState} (hk : CauseHeld k x) (h : Holds x y) : CauseHeld k y := by
  refine ⟨fun hb => getLsbD_of_and h.causes (hk.1 ?_), fun hb => getLsbD_of_and h.waiting (hk.2 ?_)⟩ <;> rwa [← h.valid]

theorem ReportAsked.mono {k : Nat} {x y : XuState} (hk : ReportAsked k x) (h : Holds x y) : ReportAsked k y :=
  ⟨hk.1.mono h, fun hb => h.due _ (hk.2 (by rwa [← h.valid]))⟩

/-- The bit of a cause. -/
def causeIndex : Cause → Nat
  | .settled => 0
  | .attention => 1
  | .muster => 2
  | .reserve => 3
  | .fault => 4
  | .halted => 5
  | .haltRefused => 6

theorem causeBit_index (c : Cause) : (causeBit c).getLsbD (causeIndex c) = true := by cases c <;> rfl

theorem causeHeld_causeDue (c : Cause) (x : XuState) : CauseHeld (causeIndex c) (causeDue c x) := by
  have hbit := causeBit_index c
  unfold causeDue
  split
  next hvalid =>
    refine ⟨fun hb => ?_, fun _ => ?_⟩
    · have hfalse : baseValid x = false := hb
      rw [hvalid] at hfalse
      cases hfalse
    · rw [BitVec.getLsbD_or, hbit, Bool.or_true]
  next hvalid =>
    refine ⟨fun _ => ?_, fun hb => absurd hb hvalid⟩
    rw [latch_causes, BitVec.getLsbD_or, hbit, Bool.or_true]

theorem reportAsked_reportCause (c : Cause) (s : State) : ReportAsked (causeIndex c) (reportCause c s).xu := by
  refine ⟨causeHeld_causeDue c _, fun hb => ?_⟩
  have hholds := (adds_causeDue c (Adds.refl (reportNow .immediate s.xu))).holds
  have hvalid : baseValid s.xu = true :=
    (baseValid_of_held (reportNow_held ..)).symm.trans (hholds.valid.symm.trans hb)
  refine hholds.due _ ?_
  simp [reportNow, hvalid]

theorem reportAsked_announceMuster (s : State) : ReportAsked 2 (announceMuster s).xu :=
  reportAsked_reportCause .muster (composeMarked (allStations s) s)

/-- At the end of the command a cause that is held is latched, waits, or is covered by the write that began (R187). -/
theorem causeTold_startReports {k : Nat} {x : XuState} (h : CauseHeld k x) (f : ReportFields) :
    (baseValid x = false → (startReports f x).causes.getLsbD k = true)
      ∧ (baseValid x = true → (startReports f x).waiting.getLsbD k = true
          ∨ ∃ w, (startReports f x).reportWrite = some w ∧ w.covers.getLsbD k = true) := by
  refine ⟨fun hb => by rw [startReports_causes]; exact h.1 hb, fun hb => ?_⟩
  have hwaits := h.2 hb
  obtain e | ⟨-, ⟨-, ⟨r, rest, -, e⟩ | ⟨-, e⟩ | ⟨-, -, -, e⟩⟩ | ⟨hinvalid, -⟩⟩ := startReports_cases f x
  case inl => rw [e]; exact .inl hwaits
  case inr.inl.inl => rw [e]; exact .inr ⟨_, rfl, hwaits⟩
  case inr.inl.inr.inl => rw [e]; exact .inr ⟨_, rfl, hwaits⟩
  case inr.inl.inr.inr => rw [e, endSurvey_waiting]; exact .inl hwaits
  case inr.inr => rw [hb] at hinvalid; cases hinvalid

theorem causeTold_flush {k : Nat} {s u : State} (h : CauseHeld k u.xu) (hbase : baseValid u.xu = baseValid s.xu) :
    CauseTold k s (flush u) := by
  obtain ⟨hlatched, hwaits⟩ := causeTold_startReports h (reportFields u)
  exact ⟨fun hb => hlatched (hbase.trans hb), fun hb => hwaits (hbase.trans hb)⟩

/-- At the end of the command a report that is asked for is in progress, or the write in progress is followed by it (R183). -/
theorem reportTold_flush {k : Nat} {s u : State} (h : ReportAsked k u.xu) (hbase : baseValid u.xu = baseValid s.xu) :
    ReportTold k s (flush u) := by
  obtain ⟨⟨hlatched, hwaits⟩, hdue⟩ := h
  refine ⟨fun hb => ?_, fun hb => ?_⟩
  · simp only [flush, startReports_causes]
    exact hlatched (hbase.trans hb)
  · have hvalid := hbase.trans hb
    simp only [flush]
    by_cases hwrite : u.xu.reportWrite = none
    · obtain ⟨r, rest, hlist⟩ := List.exists_cons_of_ne_nil (List.ne_nil_of_mem (hdue hvalid))
      rw [startReports_due hwrite hvalid hlist]
      exact ⟨_, rfl, .inl (hwaits hvalid)⟩
    · obtain ⟨w, hw⟩ := Option.ne_none_iff_exists'.mp hwrite
      rw [startReports_of_write hwrite]
      exact ⟨w, hw, .inr ⟨hwaits hvalid, hdue hvalid⟩⟩

end Sys2Proof.Machine

/-! PROOFS. The claim operation as the statements say it (R29 to R36), the counters that compositions leave alone (R185), the
counted stations and the tally (R84, R85), and the resume that a muster call asks for (R78, R188, R189). -/

namespace Sys2Proof.Machine

open Sys2Proof.Safety

/-! ## Claims (R29 to R36) -/

theorem keptSlot_eq (desired : List Claim) (sl : Slot) : keptSlot desired sl = withdrawFrom desired sl := by
  unfold keptSlot withdrawFrom
  simp only [List.filter_eq_nil_iff, decide_eq_true_eq]
  by_cases h : ∃ w ∈ sl.holders, ({ who := w, pair := sl.pair } : Claim) ∈ desired
  · rw [if_pos h, if_neg (by simpa using h)]
  · rw [if_neg h, if_pos (by simpa using h)]

theorem keptSlots_eq (desired : List Claim) (slots : List Slot) :
    solverSelect (slots.map (keptSlot desired)) = withdrawAll desired slots := by
  rw [withdrawAll, funext (keptSlot_eq desired)]

/-- The claims of an event that are left waiting and did not wait before (R34). -/
def newlyWaiting (desired : List Claim) (r : RsvState) : Nat :=
  ((claimRsv desired r).waiting.filter fun c => decide (c ∉ r.waiting)).length

/-- CLAIM_WAIT after an event that leaves `n` of its claims waiting (R34, R185). -/
def waitCount (n k : Nat) : Nat := if n = 0 then k else min 65535 (k + n)

theorem satAdd_eq (limit n k : Nat) : satAdd limit n k = min limit (n + k) := by
  unfold satAdd; split <;> omega

theorem claimsServed_of {desired : List Claim} {s t : State} (hrsv : t.rsv = claimRsv desired s.rsv)
    (hwait : t.xu.counters.claimWait = waitCount (newlyWaiting desired s.rsv) s.xu.counters.claimWait) :
    ClaimsServed desired s t := by
  refine ⟨fun kept slots waiting hkept hserve => ?_, fun n hn => ?_⟩
  · rw [keptSlots_eq] at hkept
    subst hkept
    rw [hrsv]
    simp only [claimRsv, claimStep, hserve]
  · rw [hwait, hn, hrsv]
    rfl

theorem onlyClaims_of {desired : List Claim} {s t : State} (hrsv : t.rsv = claimRsv desired s.rsv)
    (hfit : SlotsFit s.rsv.slots) : OnlyClaims t desired := by
  obtain ⟨-, hwithin, hwaiting, -⟩ := claimRsv_spec desired s.rsv hfit
  exact ⟨hrsv ▸ hwithin, hrsv ▸ hwaiting⟩

theorem claimsPlaced_of {desired : List Claim} {s t : State} (hrsv : t.rsv = claimRsv desired s.rsv)
    (hfit : SlotsFit s.rsv.slots) : ClaimsPlaced t desired := by
  obtain ⟨hplaced, -⟩ := claimRsv_spec desired s.rsv hfit
  intro c hc
  rw [hrsv]
  exact hplaced c hc

theorem slotsFit_of_held {s : State} (h : SlotsHeld s) : SlotsFit s.rsv.slots := h.2.2

theorem claimOp_claimWait (s : State) :
    (claimOp s).xu.counters.claimWait = waitCount (newlyWaiting (desiredClaims s) s.rsv) s.xu.counters.claimWait := by
  have hcount : newlyWaiting (desiredClaims s) s.rsv = (claimStep (desiredClaims s) s.rsv).2 := rfl
  rw [hcount, waitCount]
  unfold claimOp
  dsimp only
  split
  next => rfl
  next =>
    simp only [recordFault, faultAtOnce, if_false, Bool.false_eq_true, causeDue]
    split <;> exact satAdd_eq ..

/-! ## Counters that compositions leave alone (R185) -/

/-- Every counter but UNLISTED_EXIT, which compositions count. -/
def otherCounts (x : XuState) : Counters := { x.counters with unlistedExit := 0 }

theorem claimWait_of_counts {x y : XuState} (h : otherCounts y = otherCounts x) :
    y.counters.claimWait = x.counters.claimWait := (congrArg Counters.claimWait h :)

@[simp] theorem otherCounts_latchBits (b : BitVec 7) (x : XuState) : otherCounts (latchBits b x) = otherCounts x := rfl
@[simp] theorem otherCounts_latch (c : Cause) (x : XuState) : otherCounts (latch c x) = otherCounts x := rfl

@[simp] theorem otherCounts_causeDue (c : Cause) (x : XuState) : otherCounts (causeDue c x) = otherCounts x := by
  unfold causeDue; split <;> rfl

@[simp] theorem otherCounts_reportNow (r : WriteReason) (x : XuState) : otherCounts (reportNow r x) = otherCounts x := by
  unfold reportNow; split <;> rfl

@[simp] theorem otherCounts_noBase (v : Word32) (x : XuState) : otherCounts (noBase v x) = otherCounts x := rfl

@[simp] theorem otherCounts_unlistedExit (u : Option Nat) (v : Word32) (n : Nat) (x : XuState) :
    otherCounts (recordFault .unlistedExit u v n x) = otherCounts x := by
  simp only [recordFault, faultAtOnce, Bool.false_eq_true, if_false, otherCounts_causeDue]
  rfl

theorem otherCounts_composeOne (s : State) (acc : Tbl PageRec × XuState) (n : Nat) :
    otherCounts (composeOne s acc n).2 = otherCounts acc.2 := by
  unfold composeOne
  split
  next => rfl
  next =>
    dsimp only
    split <;> simp

theorem otherCounts_composeAll (s : State) (m : List Nat) (acc : Tbl PageRec × XuState) :
    otherCounts (m.foldl (composeOne s) acc).2 = otherCounts acc.2 := by
  induction m generalizing acc with
  | nil => rfl
  | cons n rest ih => exact (ih _).trans (otherCounts_composeOne s acc n)

@[simp] theorem otherCounts_composeMarked (m : List Nat) (s : State) :
    otherCounts (composeMarked m s).xu = otherCounts s.xu := otherCounts_composeAll s m _

theorem otherCounts_composeEach {α : Type} (l : List α) (f : State → α → List Nat) (s : State) :
    otherCounts (l.foldl (fun t y => composeMarked (f t y) t) s).xu = otherCounts s.xu := by
  induction l generalizing s with
  | nil => rfl
  | cons y rest ih => exact (ih _).trans (otherCounts_composeMarked _ s)

@[simp] theorem otherCounts_mapNotices (c : MscState) (s : State) : otherCounts (mapNotices c s).xu = otherCounts s.xu := by
  rw [mapNotices_eq]
  exact otherCounts_composeEach _ (fun _ x => [x]) s

@[simp] theorem otherCounts_reportCause (c : Cause) (s : State) : otherCounts (reportCause c s).xu = otherCounts s.xu := by
  simp [reportCause]

@[simp] theorem otherCounts_announceMuster (s : State) : otherCounts (announceMuster s).xu = otherCounts s.xu := by
  simp [announceMuster]

@[simp] theorem otherCounts_completeTest (s : State) : otherCounts (completeTest s).xu = otherCounts s.xu := by
  rw [completeTest_eq]
  split
  · exact otherCounts_announceMuster _
  · rfl

@[simp] theorem otherCounts_reloadSurvey (x : XuState) : otherCounts (reloadSurvey x) = otherCounts x :=
  congrArg (fun c : Counters => { c with unlistedExit := 0 }) (beginSurvey_counters x)

@[simp] theorem otherCounts_startReports (f : ReportFields) (x : XuState) : otherCounts (startReports f x) = otherCounts x := by
  rw [otherCounts, startReports_counters]
  rfl

@[simp] theorem otherCounts_flush (s : State) : otherCounts (flush s).xu = otherCounts s.xu := otherCounts_startReports _ _

/-! ## Counted stations and the tally (R84, R85) -/

theorem lineStatus_congr {s u : State} (hstations : u.sms.stations = s.sms.stations)
    (hlimit : u.sms.settings.missLimit = s.sms.settings.missLimit) (hrecs : u.lcs.recs = s.lcs.recs) (x : Nat) :
    lineStatus u x = lineStatus s x := by
  simp only [lineStatus, lineRec, hstations, hlimit, hrecs]

theorem countedStations_congr {s u : State} (hstations : u.sms.stations = s.sms.stations)
    (hlimit : u.sms.settings.missLimit = s.sms.settings.missLimit) (hrecs : u.lcs.recs = s.lcs.recs)
    (hreserve : u.msc.reserve = s.msc.reserve) : countedStations u = countedStations s := by
  simp only [countedStations, answering, lineStatus_congr hstations hlimit hrecs, excluded, hstations, hreserve]

theorem allConfirmed_congr {s u : State} (hstations : u.sms.stations = s.sms.stations)
    (hlimit : u.sms.settings.missLimit = s.sms.settings.missLimit) (hrecs : u.lcs.recs = s.lcs.recs)
    (hreserve : u.msc.reserve = s.msc.reserve) (k : Word16) : AllConfirmed u k ↔ AllConfirmed s k := by
  simp only [AllConfirmed, countedStations_congr hstations hlimit hrecs hreserve, lineRec, hrecs]

/-- The tally has reached the number of counted stations when each of them has confirmed (R72, R85). -/
theorem tallyComplete_iff (s : State) : tallyComplete s = true ↔ s.msc.state = .called ∧ AllConfirmed s s.msc.serial := by
  unfold tallyComplete
  simp only [Bool.and_eq_true, decide_eq_true_eq]
  refine and_congr_right fun hcalled => ?_
  have hne : s.msc.state ≠ .standby := by simp [hcalled]
  rw [tally, if_neg hne, countedCount, List.length_filter_eq_length_iff]
  simp [AllConfirmed]

/-! ## The resume that a muster call asks for (R78, R188, R189) -/

/-- A survey that was asked for has begun, or is marked pending (R181). -/
def SurveyReady (x y : XuState) : Prop :=
  (x.survey = none → y.survey = some (.publish true busPeriods))
    ∧ (x.survey ≠ none → y.survey = x.survey ∧ y.surveyPending = true)

theorem surveyReady_reloadSurvey {x : XuState} (hbase : baseValid x = true) : SurveyReady x (reloadSurvey x) :=
  ⟨reloadSurvey_survey_of_none hbase, reloadSurvey_survey_of_ne_none⟩

theorem SurveyReady.adds {x y z : XuState} (h : SurveyReady x y) (k : Adds y z) : SurveyReady x z := by
  rw [SurveyReady, k.survey, k.surveyPending]
  exact h

/-- A survey that is ready at the end of a command has been asked for, also where the last one ends there (R181). -/
theorem surveyAsked_startReports {f : ReportFields} {x y : XuState} (h : SurveyReady x y) (hrun : y.runState = .running)
    (hbase : baseValid y = true) : SurveyAsked x (startReports f y) := by
  refine ⟨fun hnone => ?_, fun hsome => ?_⟩
  · have hbegun := h.1 hnone
    rw [(startReports_survey_of_ne_report (by simp [hbegun])).1, hbegun]
    rfl
  · obtain ⟨hkept, hpending⟩ := h.2 hsome
    obtain ⟨hsurvey, hmark⟩ | ⟨hreport, hended⟩ := startReports_survey_of_baseValid (f := f) hbase
    · exact .inl ⟨hsurvey.trans hkept, hmark.trans hpending⟩
    · refine .inr ⟨hkept.symm.trans hreport, ?_⟩
      rw [hended, endSurvey_survey_of_pending hpending hrun hbase]
      rfl

/-- What a muster call asks of the run state, before the reports of the command begin (R78, R188, R189). -/
structure ResumeAsked (s u : State) : Prop where
  running : s.xu.runState = .running → u = s
  resumed : s.xu.runState ≠ .running → baseValid s.xu = true →
    u.xu.runState = .running ∧ u.lcs = allLines lineRun s.lcs ∧ SurveyReady s.xu u.xu
      ∧ u.xu.countdown = some (s.xu.interval * 25000)
  haltingNoBase : s.xu.runState = .halting → baseValid s.xu = false →
    u.xu.runState = .running ∧ u.lcs = allLines lineRun s.lcs
  haltedNoBase : s.xu.runState = .halted → baseValid s.xu = false → u.xu.runState = .halted ∧ u.lcs = s.lcs
  noBase : s.xu.runState ≠ .running → baseValid s.xu = false →
    u.xu.countdown = s.xu.countdown ∧ u.xu.survey = s.xu.survey ∧ u.xu.causes.getLsbD 4 = true
      ∧ u.xu.lastFault = { kind := .noBase, subject := none, second := s.clk.second }
  halting : s.xu.runState = .halting → u.xu.causes.getLsbD 6 = true
  halted : s.xu.runState = .halted → u.xu.causes.getLsbD 2 = true
  recs : u.lcs.recs = s.lcs.recs
  holds : Holds s.xu u.xu
  counts : otherCounts u.xu = otherCounts s.xu
  frame : { u with lcs := s.lcs, xu := s.xu } = s

theorem holds_of_same {x y : XuState} (hheld : xuHeld y = xuHeld x) (hcauses : y.causes = x.causes)
    (hwaiting : y.waiting = x.waiting) (hdue : y.reportDue = x.reportDue) : Holds x y :=
  ⟨baseValid_of_held hheld, by rw [hcauses, BitVec.and_self], by rw [hwaiting, BitVec.and_self], fun r hr => hdue ▸ hr⟩

theorem holds_reloadSurvey (x : XuState) : Holds x (reloadSurvey x) :=
  holds_of_same (reloadSurvey_held x) (congrArg XuState.causes (beginSurvey_frame x) :)
    (congrArg XuState.waiting (beginSurvey_frame x) :) (congrArg XuState.reportDue (beginSurvey_frame x) :)

theorem holds_noBase (v : Word32) (x : XuState) : Holds x (noBase v x) :=
  (adds_recordFault .noBase none v 0 (Adds.refl x)).holds

theorem holds_latch (c : Cause) (x : XuState) : Holds x (latch c x) := (adds_latchBits (causeBit c) (Adds.refl x)).holds

theorem latch_bit (c : Cause) (x : XuState) : (latch c x).causes.getLsbD (causeIndex c) = true := by
  rw [latch_causes, BitVec.getLsbD_or, causeBit_index, Bool.or_true]

theorem latch_keeps_bit {k : Nat} {x : XuState} (c : Cause) (h : x.causes.getLsbD k = true) :
    (latch c x).causes.getLsbD k = true := by
  rw [latch_causes, BitVec.getLsbD_or, h, Bool.true_or]

/-- A resume with a valid base, `c` being the cause that it latches besides (R188, R189). -/
theorem resumeAsked_valid {s : State} {c : Cause} (hrun : s.xu.runState ≠ .running) (hbase : baseValid s.xu = true)
    (hhalting : s.xu.runState = .halting → c = .haltRefused) (hhalted : s.xu.runState = .halted → c = .muster) :
    ResumeAsked s { enterRunning s with xu := latch c (enterRunning s).xu } := by
  rw [enterRunning_of_baseValid hbase]
  have hready := surveyReady_reloadSurvey (x := { s.xu with runState := .running }) hbase
  have hholds := (holds_of_same (x := s.xu) (y := { s.xu with runState := .running }) rfl rfl rfl rfl).trans (holds_reloadSurvey _)
  refine {
    running := fun h => absurd h hrun
    resumed := fun _ _ => ⟨beginSurvey_runState _, rfl, hready, rfl⟩
    haltingNoBase := fun _ h => by simp [hbase] at h
    haltedNoBase := fun _ h => by simp [hbase] at h
    noBase := fun _ h => by simp [hbase] at h
    halting := fun h => hhalting h ▸ latch_bit ..
    halted := fun h => hhalted h ▸ latch_bit ..
    recs := rfl
    holds := hholds.trans (holds_latch c _)
    counts := otherCounts_reloadSurvey _
    frame := rfl }

/-- A resume without a valid base (R188, R189, log 14). -/
theorem resumeAsked_invalid {s u : State} {c : Cause} {r : RunState} {l : LcsState} (hbase : baseValid s.xu = false)
    (hrun : s.xu.runState ≠ .running) (hrecs : l.recs = s.lcs.recs)
    (hhalting : s.xu.runState = .halting → c = .haltRefused ∧ r = .running ∧ l = allLines lineRun s.lcs)
    (hhalted : s.xu.runState = .halted → c = .muster ∧ r = .halted ∧ l = s.lcs)
    (hu : u = { s with lcs := l, xu := latch c (noBase s.clk.second { s.xu with runState := r }) }) : ResumeAsked s u := by
  subst hu
  have hholds := (holds_of_same (x := s.xu) (y := { s.xu with runState := r }) rfl rfl rfl rfl).trans (holds_noBase s.clk.second _)
  have hfault : (noBase s.clk.second { s.xu with runState := r }).causes.getLsbD 4 = true := latch_bit .fault _
  refine {
    running := fun h => absurd h hrun
    resumed := fun _ h => by simp [hbase] at h
    haltingNoBase := fun h _ => (hhalting h).2
    haltedNoBase := fun h _ => (hhalted h).2
    noBase := fun _ _ => ⟨rfl, rfl, latch_keeps_bit c hfault, rfl⟩
    halting := fun h => (hhalting h).1 ▸ latch_bit ..
    halted := fun h => (hhalted h).1 ▸ latch_bit ..
    recs := hrecs
    holds := hholds.trans (holds_latch c _)
    counts := rfl
    frame := rfl }

theorem musterResume_asked (s : State) : ResumeAsked s (musterResume s) := by
  unfold musterResume
  split
  case h_1 hrun => exact ⟨fun _ => rfl, by simp [hrun], by simp [hrun], by simp [hrun], by simp [hrun], by simp [hrun],
    by simp [hrun], rfl, Holds.refl _, rfl, rfl⟩
  case h_2 hrun =>
    cases hbase : baseValid s.xu
    case true => exact resumeAsked_valid (by simp [hrun]) hbase (fun _ => rfl) (by simp [hrun])
    case false =>
      refine resumeAsked_invalid hbase (by simp [hrun]) (l := allLines lineRun s.lcs) rfl (fun _ => ⟨rfl, rfl, rfl⟩)
        (by simp [hrun]) ?_
      rw [enterRunning_of_invalid hbase]
  case h_3 hrun =>
    cases hbase : baseValid s.xu
    case true =>
      dsimp only
      rw [runRequest_enters (by simp [hrun]) hbase]
      exact resumeAsked_valid (by simp [hrun]) hbase (by simp [hrun]) (fun _ => rfl)
    case false =>
      refine resumeAsked_invalid hbase (by simp [hrun]) (r := .halted) (l := s.lcs) rfl (by simp [hrun])
        (fun _ => ⟨rfl, rfl, rfl⟩) ?_
      simp only [runRequest, hrun, hbase, Bool.false_eq_true, if_false]
      rw [← hrun]

end Sys2Proof.Machine

/-! PROOFS. Muster calls, escalations and orders (R65 to R79): what each leaves, with its pages and its report. -/

namespace Sys2Proof.Machine

open Sys2Proof.Safety

/-! ## The operations without their frames -/

theorem musterBlocks_eq {t s : State}
    (h : { t with rsv := s.rsv, msc := s.msc, pco := s.pco, lcs := s.lcs, xu := s.xu } = s) : musterBlocks t s = t := by
  have ht := congrArg (fun u : State => { u with rsv := t.rsv, msc := t.msc, pco := t.pco, lcs := t.lcs, xu := t.xu }) h
  exact ht.symm

/-- A call as far as its notices: claims and map, then every configured station marked, then the changed entries (R70). -/
def callTold (k : MusterKind) (s : State) : State :=
  mapNotices s.msc (announceMuster (
    if s.msc.state = .standby then recomputeMap (claimOp { s with msc := calledMsc k s.msc })
    else { s with msc := calledMsc k s.msc }))

theorem mapNotices_frame (c : MscState) (s : State) : { mapNotices c s with pco := s.pco, xu := s.xu } = s := rfl

theorem announceMuster_frame (s : State) : { announceMuster s with pco := s.pco, xu := s.xu } = s := rfl

theorem callTold_frame (k : MusterKind) (s : State) :
    { callTold k s with rsv := s.rsv, msc := s.msc, pco := s.pco, xu := s.xu } = s := by
  have htold : ∀ u : State, { u with rsv := s.rsv, msc := s.msc, pco := s.pco, xu := s.xu } = s →
      { mapNotices s.msc (announceMuster u) with rsv := s.rsv, msc := s.msc, pco := s.pco, xu := s.xu } = s := by
    intro u hu
    have hmap := congrArg (fun v : State => { v with rsv := s.rsv, msc := s.msc, pco := s.pco, xu := s.xu })
      (mapNotices_frame s.msc (announceMuster u))
    have hannounce := congrArg (fun v : State => { v with rsv := s.rsv, msc := s.msc, pco := s.pco, xu := s.xu })
      (announceMuster_frame u)
    exact hmap.trans (hannounce.trans hu)
  unfold callTold
  split
  · exact htold (recomputeMap (claimOp { s with msc := calledMsc k s.msc })) rfl
  · exact htold { s with msc := calledMsc k s.msc } rfl

theorem callMuster_eq (k : MusterKind) (s : State) : callMuster k s = completeTest (musterResume (callTold k s)) := by
  refine musterBlocks_eq (t := completeTest (musterResume (callTold k s))) ?_
  have htold := callTold_frame k s
  have hresume := (musterResume_asked (callTold k s)).frame
  have hframe : { completeTest (musterResume (callTold k s)) with
      rsv := s.rsv, msc := s.msc, pco := s.pco, lcs := s.lcs, xu := s.xu }
      = { musterResume (callTold k s) with rsv := s.rsv, msc := s.msc, pco := s.pco, lcs := s.lcs, xu := s.xu } := rfl
  have hback := congrArg (fun u : State =>
    { u with rsv := s.rsv, msc := s.msc, pco := s.pco, lcs := s.lcs, xu := s.xu }) hresume
  have hlcs := congrArg (fun u : State => { u with lcs := s.lcs }) htold
  exact hframe.trans (hback.trans hlcs)

theorem callTold_msc (k : MusterKind) (s : State) : (callTold k s).msc = callBase k s := by
  unfold callTold callBase
  simp only [mapNotices_msc, announceMuster_msc]
  split <;> rfl

theorem adds_callTold (k : MusterKind) (s : State) : Adds s.xu (callTold k s).xu := by
  refine adds_mapNotices (adds_announceMuster ?_) _
  split
  · exact adds_claimOp (s := { s with msc := calledMsc k s.msc }) (Adds.refl _)
  · exact Adds.refl _

theorem pagesShown_callTold (k : MusterKind) (s : State) : PagesShown (callTold k s) :=
  pagesShown_mapNotices (pagesShown_announceMuster _) _

theorem reportAsked_callTold (k : MusterKind) (s : State) : ReportAsked 2 (callTold k s).xu :=
  (reportAsked_announceMuster _).mono (adds_mapNotices (Adds.refl _) _).holds

theorem callTold_claimWait (k : MusterKind) (s : State) (hstate : s.msc.state = .standby) :
    (callTold k s).xu.counters.claimWait
      = waitCount (newlyWaiting (musterClaims s.sms) s.rsv) s.xu.counters.claimWait := by
  have hcounts : otherCounts (callTold k s).xu = otherCounts (claimOp { s with msc := calledMsc k s.msc }).xu := by
    unfold callTold
    rw [if_pos hstate, otherCounts_mapNotices, otherCounts_announceMuster]
    rfl
  rw [claimWait_of_counts hcounts, claimOp_claimWait]
  rfl

/-! ## The completion test (R72, R85) -/

theorem completeTest_frame (s : State) : { completeTest s with msc := s.msc, pco := s.pco, xu := s.xu } = s := rfl

theorem adds_completeTest_self (s : State) : Adds s.xu (completeTest s).xu := adds_completeTest (Adds.refl _)

theorem completeTest_of_confirmed {s : State} (hcalled : s.msc.state = .called) (hall : AllConfirmed s s.msc.serial) :
    completeTest s = enterMustering s := by
  rw [completeTest_eq, if_pos ((tallyComplete_iff s).mpr ⟨hcalled, hall⟩)]

theorem completeTest_of_not {s : State} (h : ¬(s.msc.state = .called ∧ AllConfirmed s s.msc.serial)) : completeTest s = s := by
  rw [completeTest_eq, if_neg (fun hc => h ((tallyComplete_iff s).mp hc))]

/-! ## What a call leaves (R70 to R72, R78, R79) -/

section Call

variable (k : MusterKind) (s : State)

/-- A call up to the test of the tally: the pages told, and the resume asked for. -/
def callResumed : State := musterResume (callTold k s)

theorem callResumed_msc : (callResumed k s).msc = callBase k s := by
  rw [callResumed, musterResume_msc, callTold_msc]

theorem callResumed_confirmed :
    AllConfirmed (callResumed k s) (callResumed k s).msc.serial ↔ AllConfirmed s (nextSerial s.msc.serial) := by
  have hserial : (callResumed k s).msc.serial = nextSerial s.msc.serial := by
    rw [callResumed_msc]; rfl
  have htold := callTold_frame k s
  rw [hserial]
  refine allConfirmed_congr ?_ ?_ ?_ ?_ _
  · rw [callResumed, musterResume_sms]; exact (congrArg (fun u : State => u.sms.stations) htold :)
  · rw [callResumed, musterResume_sms]; exact (congrArg (fun u : State => u.sms.settings.missLimit) htold :)
  · exact (musterResume_asked _).recs.trans (congrArg (fun u : State => u.lcs.recs) htold :)
  · rw [callResumed_msc]; rfl

theorem callMuster_of_confirmed (h : AllConfirmed s (nextSerial s.msc.serial)) :
    callMuster k s = enterMustering (callResumed k s) := by
  rw [callMuster_eq]
  refine completeTest_of_confirmed (s := callResumed k s) ?_ ((callResumed_confirmed k s).mpr h)
  rw [callResumed_msc]; rfl

theorem callMuster_of_not_confirmed (h : ¬AllConfirmed s (nextSerial s.msc.serial)) : callMuster k s = callResumed k s := by
  rw [callMuster_eq]
  exact completeTest_of_not (s := callResumed k s) fun hc => h ((callResumed_confirmed k s).mp hc.2)

theorem callMuster_of_confirmed_msc (h : AllConfirmed s (nextSerial s.msc.serial)) :
    (callMuster k s).msc = endedMsc (callBase k s) := by
  rw [callMuster_of_confirmed k s h, enterMustering_msc, callResumed_msc]

theorem callMuster_of_not_confirmed_msc (h : ¬AllConfirmed s (nextSerial s.msc.serial)) :
    (callMuster k s).msc = callBase k s := by
  rw [callMuster_of_not_confirmed k s h, callResumed_msc]

theorem callMuster_lcs : (callMuster k s).lcs = (callResumed k s).lcs := by
  rw [callMuster_eq]; rfl

theorem callMuster_recs : (callMuster k s).lcs.recs = s.lcs.recs := by
  rw [callMuster_lcs]
  exact (musterResume_asked _).recs.trans (congrArg (fun u : State => u.lcs.recs) (callTold_frame k s) :)

theorem adds_callResumed : Adds (callResumed k s).xu (callMuster k s).xu := by
  rw [callMuster_eq]; exact adds_completeTest_self _

theorem callMuster_claimWait (hstate : s.msc.state = .standby) :
    (callMuster k s).xu.counters.claimWait
      = waitCount (newlyWaiting (musterClaims s.sms) s.rsv) s.xu.counters.claimWait := by
  rw [← callTold_claimWait k s hstate]
  refine claimWait_of_counts ?_
  rw [callMuster_eq, otherCounts_completeTest]
  exact (musterResume_asked _).counts

theorem pagesShown_callMuster : PagesShown (callMuster k s) := by
  rw [callMuster_eq]
  refine pagesShown_completeTest (pagesShown_of_same (pagesShown_callTold k s) ?_ ?_ ?_ ?_ ?_) <;> simp

theorem reportAsked_callMuster : ReportAsked 2 (callMuster k s).xu :=
  ((reportAsked_callTold k s).mono (musterResume_asked _).holds).mono (adds_callResumed k s).holds

theorem calledFrom_callMuster : CalledFrom k s (flush (callMuster k s)) := by
  have hbase : ((callMuster k s).msc.kind = k ∧ (callMuster k s).msc.serial = nextSerial s.msc.serial)
      ∧ (callMuster k s).msc.holdTimer = none ∧ (callMuster k s).msc.map = (callBase k s).map
      ∧ (callMuster k s).msc.reserve = s.msc.reserve := by
    obtain h | h := callMuster_msc k s <;> rw [h] <;> exact ⟨⟨rfl, rfl⟩, rfl, rfl, rfl⟩
  obtain ⟨⟨hkind, hserial⟩, hhold, hmap, hreserve⟩ := hbase
  refine ⟨hkind, hserial, hhold, fun hall => ?_, fun hall => ?_, fun hstate hheld => ?_, fun hstate => ?_,
    callMuster_recs k s, hreserve⟩
  · simp only [flush_msc, callMuster_of_confirmed_msc k s hall]; exact ⟨rfl, rfl⟩
  · simp only [flush_msc, callMuster_of_not_confirmed_msc k s hall]; exact ⟨rfl, rfl⟩
  · have hrsv : (flush (callMuster k s)).rsv = claimRsv (musterClaims s.sms) s.rsv := by
      simp only [flush_rsv, callMuster_rsv, if_pos hstate]
    have hfit := slotsFit_of_held hheld
    refine ⟨?_, onlyClaims_of hrsv hfit, claimsPlaced_of hrsv hfit, claimsServed_of hrsv ?_⟩
    · rw [hrsv, flush_msc, hmap]
      simp only [callBase, if_pos hstate]
      rfl
    · rw [← callMuster_claimWait k s hstate]
      exact claimWait_of_counts (otherCounts_flush _)
  · have hne : s.msc.state ≠ .standby := by simp [hstate]
    refine ⟨?_, ?_⟩
    · simp only [flush_msc, hmap, callBase, if_neg hne]
    · simp only [flush_rsv, callMuster_rsv, if_neg hne]

/-- What the call asks of the run state, seen from the state that it found (R78). -/
theorem resumeAsked_call :
    (s.xu.runState = .running → callResumed k s = callTold k s)
      ∧ (s.xu.runState ≠ .running → baseValid s.xu = true →
          (callResumed k s).xu.runState = .running ∧ (callResumed k s).lcs = allLines lineRun s.lcs
            ∧ SurveyReady s.xu (callResumed k s).xu ∧ (callResumed k s).xu.countdown = some (s.xu.interval * 25000))
      ∧ (s.xu.runState = .halting → baseValid s.xu = false →
          (callResumed k s).xu.runState = .running ∧ (callResumed k s).lcs = allLines lineRun s.lcs)
      ∧ (s.xu.runState = .halted → baseValid s.xu = false →
          (callResumed k s).xu.runState = .halted ∧ (callResumed k s).lcs = s.lcs)
      ∧ (s.xu.runState ≠ .running → baseValid s.xu = false →
          (callResumed k s).xu.countdown = s.xu.countdown ∧ (callResumed k s).xu.survey = s.xu.survey
            ∧ (callResumed k s).xu.causes.getLsbD 4 = true
            ∧ (callResumed k s).xu.lastFault = { kind := .noBase, subject := none, second := s.clk.second })
      ∧ (s.xu.runState = .halting → (callResumed k s).xu.causes.getLsbD 6 = true)
      ∧ (s.xu.runState = .halted → (callResumed k s).xu.causes.getLsbD 2 = true) := by
  have htold := adds_callTold k s
  have hlcs : (callTold k s).lcs = s.lcs := (congrArg State.lcs (callTold_frame k s) :)
  have hclk : (callTold k s).clk = s.clk := (congrArg State.clk (callTold_frame k s) :)
  have hinterval : (callTold k s).xu.interval = s.xu.interval := congrArg XuHeld.interval htold.held
  obtain ⟨hrunning, hresumed, hhalting0, hhalted0, hnone, hhalting, hhalted, -, -, -, -⟩ := musterResume_asked (callTold k s)
  simp only [SurveyReady, htold.runState, htold.baseValid, htold.countdown, htold.survey, hlcs, hclk, hinterval] at *
  exact ⟨hrunning, hresumed, hhalting0, hhalted0, hnone, hhalting, hhalted⟩

theorem resumed_callMuster : Resumed s (flush (callMuster k s)) := by
  have hend := adds_callResumed k s
  have hbase : baseValid (callMuster k s).xu = baseValid s.xu := baseValid_of_held (callMuster_held k s)
  have hrunState : (flush (callMuster k s)).xu.runState = (callResumed k s).xu.runState :=
    (startReports_runState ..).trans hend.runState
  have hlcs : (flush (callMuster k s)).lcs = (callResumed k s).lcs := callMuster_lcs k s
  have hcountdown : (flush (callMuster k s)).xu.countdown = (callResumed k s).xu.countdown :=
    (startReports_countdown ..).trans hend.countdown
  have hbit : ∀ {n : Nat}, (callResumed k s).xu.causes.getLsbD n = true →
      (flush (callMuster k s)).xu.causes.getLsbD n = true := fun h => by
    simp only [flush, startReports_causes]
    exact getLsbD_of_and hend.grows.causes h
  have htold := reportTold_flush (s := s) (reportAsked_callMuster k s) hbase
  obtain ⟨hrunning, hresumed, hhalting0, hhalted0, hnone, hhalting, hhalted⟩ := resumeAsked_call k s
  refine ⟨fun hrun => ?_, fun hrun hvalid => ?_, fun hrun hvalid => ?_, fun hrun hvalid => ?_, fun hrun hvalid => ?_,
    fun hrun => hbit (hhalting hrun), fun hrun => hbit (hhalted hrun), htold⟩
  · rw [hrunState, hlcs, hcountdown, hrunning hrun, (adds_callTold k s).runState, (adds_callTold k s).countdown]
    exact ⟨hrun, (congrArg State.lcs (callTold_frame k s) :), rfl⟩
  · obtain ⟨hrunsOn, hlines, hsurvey, hcount⟩ := hresumed hrun hvalid
    refine ⟨hrunState.trans hrunsOn, by rw [hlcs, hlines]; rfl, ?_, hcountdown.trans hcount⟩
    exact surveyAsked_startReports (hsurvey.adds hend) (hend.runState.trans hrunsOn) (hbase.trans hvalid)
  · obtain ⟨hrunsOn, hlines⟩ := hhalting0 hrun hvalid
    exact ⟨hrunState.trans hrunsOn, by rw [hlcs, hlines]; rfl⟩
  · obtain ⟨hhalts, hlines⟩ := hhalted0 hrun hvalid
    exact ⟨hrunState.trans hhalts, hlcs.trans hlines⟩
  · obtain ⟨hcount, hsurvey, hfault, hlast⟩ := hnone hrun hvalid
    refine ⟨hcountdown.trans hcount, fun h => ?_, hbit hfault, fun hnot => ?_⟩
    · exact startReports_survey_none (hend.survey.trans (hsurvey.trans h))
    · simp only [flush, startReports_lastFault, callMuster_of_not_confirmed k s hnot]
      exact hlast

end Call

/-! ## What an escalation leaves (R73) -/

/-- An escalation up to the test of the tally. -/
def escalateTold (s : State) : State := announceMuster { s with msc := escalatedMsc s.msc }

theorem escalate_eq (s : State) : escalate s = completeTest (escalateTold s) :=
  musterBlocks_eq (t := completeTest (escalateTold s)) rfl

theorem escalateTold_confirmed (s : State) (k : Word16) : AllConfirmed (escalateTold s) k ↔ AllConfirmed s k :=
  allConfirmed_congr rfl rfl rfl rfl k

theorem escalate_of_ended {s : State} (hcalled : s.msc.state = .called) (h : AllConfirmed s (nextSerial s.msc.serial)) :
    (escalate s).msc = endedMsc (escalatedMsc s.msc) := by
  rw [escalate_eq, completeTest_of_confirmed (s := escalateTold s) hcalled ((escalateTold_confirmed s _).mpr h)]
  rfl

theorem escalate_of_not_ended {s : State} (h : ¬(s.msc.state = .called ∧ AllConfirmed s (nextSerial s.msc.serial))) :
    (escalate s).msc = escalatedMsc s.msc := by
  rw [escalate_eq, completeTest_of_not (s := escalateTold s)]
  · rfl
  · exact fun hc => h ⟨hc.1, (escalateTold_confirmed s _).mp hc.2⟩

theorem escalatedFrom_escalate (s : State) : EscalatedFrom s (flush (escalate s)) := by
  have hbase : ((escalate s).msc.kind = .real ∧ (escalate s).msc.serial = nextSerial s.msc.serial)
      ∧ (escalate s).msc.map = s.msc.map ∧ (escalate s).msc.holdTimer = s.msc.holdTimer := by
    obtain h | h := escalate_msc s <;> rw [h] <;> exact ⟨⟨rfl, rfl⟩, rfl, rfl⟩
  obtain ⟨⟨hkind, hserial⟩, hmap, hhold⟩ := hbase
  have hrun : (flush (escalate s)).xu.runState = s.xu.runState :=
    (startReports_runState ..).trans (adds_escalate (s := s) (Adds.refl _)).runState
  refine ⟨hkind, hserial, fun hstate => ?_, fun hstate hall => ?_, fun hstate hall => ?_, hmap, hhold, escalate_rsv s, hrun⟩
  · rw [flush_msc, escalate_of_not_ended (by simp [hstate])]
    simp [escalatedMsc, hstate]
  · rw [flush_msc, escalate_of_not_ended (by simp [hall])]
    refine ⟨hstate, ?_⟩
    simp only [escalatedMsc, hstate, if_true]
    rfl
  · rw [flush_msc, escalate_of_ended hstate hall]
    exact ⟨rfl, rfl⟩

theorem pagesShown_escalate (s : State) : PagesShown (escalate s) := by
  rw [escalate_eq]
  exact pagesShown_completeTest (pagesShown_announceMuster _)

theorem reportAsked_escalate (s : State) : ReportAsked 2 (escalate s).xu := by
  rw [escalate_eq]
  exact (reportAsked_announceMuster _).mono (adds_completeTest_self _).holds

theorem reportTold_escalate (s : State) : ReportTold 2 s (flush (escalate s)) :=
  reportTold_flush (reportAsked_escalate s) (baseValid_of_held (escalate_held s))

theorem escalate_outcome (s : State) : (escalate s).msc.outcome = s.msc.outcome := by
  obtain h | h := escalate_msc s <;> rw [h] <;> rfl

theorem callMuster_outcome (k : MusterKind) (s : State) : (callMuster k s).msc.outcome = s.msc.outcome := by
  obtain h | h := callMuster_msc k s <;> rw [h] <;> rfl

/-! ## The test of R66 -/

/-- An asserted alarm is to be answered by a REAL muster (R66). -/
def AlarmDemands (s : State) : Prop := s.sms.settings.alarmSense = .level ∧ s.msc.alarm = some true

theorem realCall_frame (s : State) :
    { realCall s with rsv := s.rsv, msc := s.msc, pco := s.pco, lcs := s.lcs, xu := s.xu } = s := by
  unfold realCall
  split
  case h_1 | h_2 => rfl
  case h_3 | h_4 => split <;> rfl

theorem levelTest_of_demands {s : State} (h : AlarmDemands s) : levelTest s = realCall s := by
  obtain ⟨hlevel, halarm⟩ := h
  unfold levelTest
  rw [if_pos ⟨hlevel, halarm⟩]
  exact musterBlocks_eq (realCall_frame s)

theorem levelTest_of_not {s : State} (h : ¬AlarmDemands s) : levelTest s = s := by
  unfold levelTest
  rw [if_neg (c := _ ∧ _) h]
  rfl

/-- Under the invariant an asserted alarm finds its REAL muster called, so in no other state is it asserted (R66). -/
theorem not_alarmDemands {s : State} (h : AlarmAnswered s)
    (hstate : s.msc.state = .standby ∨ s.msc.state = .standingDown ∨ s.msc.kind ≠ .real) : ¬AlarmDemands s := by
  rintro ⟨hlevel, halarm⟩
  obtain ⟨hkind, hcalled⟩ := h hlevel halarm
  obtain hs | hs | hs := hstate
  · simp [hs] at hcalled
  · simp [hs] at hcalled
  · exact hs hkind

theorem realCall_of_calling {s : State} (h : s.msc.state = .standby ∨ s.msc.state = .standingDown) :
    realCall s = callMuster .real s := by
  obtain h | h := h <;> simp only [realCall, h]

theorem realCall_of_drill {s : State} (h : s.msc.state = .called ∨ s.msc.state = .mustering) (hkind : s.msc.kind ≠ .real) :
    realCall s = escalate s := by
  obtain h | h := h <;> simp only [realCall, h, if_neg hkind]

theorem realCall_of_real {s : State} (h : s.msc.state = .called ∨ s.msc.state = .mustering) (hkind : s.msc.kind = .real) :
    realCall s = s := by
  obtain h | h := h <;> simp only [realCall, h, if_pos hkind]

/-- The test of R66 finds nothing where a REAL muster is called. -/
theorem levelTest_of_real {s : State} (h : s.msc.state = .called ∨ s.msc.state = .mustering) (hkind : s.msc.kind = .real) :
    levelTest s = s := by
  by_cases hd : AlarmDemands s
  · rw [levelTest_of_demands hd, realCall_of_real h hkind]
  · exact levelTest_of_not hd

/-! ## Orders (R69, R74) -/

theorem exec_callReal {s : State} (h : s.phase = .operating) : exec .callReal s = .next (flush (orderCallReal s)) :=
  answer_takes _ h rfl

theorem exec_callDrill {s : State} (h : s.phase = .operating) : exec .callDrill s = .next (flush (orderCallDrill s)) :=
  answer_takes _ h rfl

theorem exec_standDown {s : State} (h : s.phase = .operating) : exec .standDown s = .next (flush (orderStandDown s)) :=
  answer_takes _ h rfl

theorem orderCallReal_eq (s : State) : orderCallReal s = realCall (withOutcome (callRealOutcome s.msc) s) := by
  unfold orderCallReal
  exact musterBlocks_eq (congrArg (fun u : State =>
    { u with rsv := s.rsv, msc := s.msc, pco := s.pco, lcs := s.lcs, xu := s.xu })
    (realCall_frame (withOutcome (callRealOutcome s.msc) s)) :)

/-- An accepted call with its outcome. -/
def acceptedCall (k : MusterKind) (s : State) : State := callMuster k (withOutcome .accepted s)

theorem orderCallReal_calls {s : State} (h : s.msc.state = .standby ∨ s.msc.state = .standingDown) :
    orderCallReal s = acceptedCall .real s := by
  have hout : callRealOutcome s.msc = .accepted := by
    obtain h | h := h <;> simp only [callRealOutcome, h]
  rw [orderCallReal_eq, hout, realCall_of_calling (s := withOutcome .accepted s) h]
  rfl

theorem orderCallDrill_calls {s : State} (h : s.msc.state = .standby ∨ s.msc.state = .standingDown ∧ s.msc.kind ≠ .real)
    (halarm : AlarmAnswered s) : orderCallDrill s = acceptedCall .drill s := by
  have hout : callDrillOutcome s.msc = .accepted := by
    obtain h | ⟨h, hkind⟩ := h
    · simp only [callDrillOutcome, h]
    · simp only [callDrillOutcome, h, if_neg hkind]
  have hnot : ¬AlarmDemands s :=
    not_alarmDemands halarm (h.elim .inl fun hs => .inr (.inl hs.1))
  have hlevel : levelTest (acceptedCall .drill s) = acceptedCall .drill s := by
    refine levelTest_of_not fun hd => hnot ⟨?_, ?_⟩
    · simpa [acceptedCall, withOutcome] using hd.1
    · rw [← hd.2]; exact (callMuster_alarm .drill (withOutcome .accepted s)).symm
  unfold orderCallDrill
  simp only [hout, if_true]
  rw [show levelTest (callMuster .drill (withOutcome .accepted s)) = acceptedCall .drill s from hlevel]
  rfl

theorem order_calls {drill : Bool} {s : State} (hphase : s.phase = .operating)
    (hstate : s.msc.state = .standby ∨ s.msc.state = .standingDown) (hkind : drill = true → s.msc.state = .standingDown →
      s.msc.kind ≠ .real) (halarm : AlarmAnswered s) :
    exec (if drill then .callDrill else .callReal) s
      = .next (flush (acceptedCall (if drill then .drill else .real) s)) := by
  cases drill
  case false =>
    simp only [Bool.false_eq_true, if_false]
    rw [exec_callReal hphase, orderCallReal_calls hstate]
  case true =>
    simp only [if_true]
    rw [exec_callDrill hphase, orderCallDrill_calls (hstate.imp id fun h => ⟨h, hkind rfl h⟩) halarm]

/-- What an accepted call by order leaves (R70, R76, R78). -/
theorem acceptedCall_leaves (k : MusterKind) (s : State) :
    (flush (acceptedCall k s)).msc.outcome = .accepted ∧ CalledFrom k s (flush (acceptedCall k s))
      ∧ (flush (acceptedCall k s)).msc.alarm = s.msc.alarm ∧ PagesShown (flush (acceptedCall k s))
      ∧ Resumed s (flush (acceptedCall k s)) ∧ SameRegisters s.xu (flush (acceptedCall k s)).xu
      ∧ { flush (acceptedCall k s) with rsv := s.rsv, msc := s.msc, pco := s.pco, lcs := s.lcs, xu := s.xu } = s := by
  have hheld : xuHeld (flush (acceptedCall k s)).xu = xuHeld s.xu :=
    (flush_held _).trans (callMuster_held k (withOutcome .accepted s))
  exact ⟨callMuster_outcome k (withOutcome .accepted s), calledFrom_callMuster k (withOutcome .accepted s),
    callMuster_alarm k (withOutcome .accepted s), pagesShown_flush (pagesShown_callMuster k _),
    resumed_callMuster k (withOutcome .accepted s), sameRegisters_of_held hheld, rfl⟩

/-- Settles O12: an accepted call is `callMuster` on the state with its outcome, its pages and its report after it. -/
theorem callsAccepted : Obligations.CallsAccepted := by
  unfold Obligations.CallsAccepted
  refine ⟨fun drill s hphase hstate halarm _ => ?_, fun drill s hphase hstate halarm hkind => ?_⟩
  · exact ⟨_, order_calls hphase (.inl hstate) (by simp [hstate]) halarm, acceptedCall_leaves _ s⟩
  · obtain ⟨hout, hcalled, -, hpages, hresumed, hregs, hframe⟩ :=
      acceptedCall_leaves (if drill then .drill else .real) s
    refine ⟨_, order_calls hphase (.inr hstate) (fun hd _ => hkind hd) halarm, hout, hcalled, hpages, hresumed, hregs, ?_⟩
    have hrsv : (flush (acceptedCall (if drill then .drill else .real) s)).rsv = s.rsv := by
      rw [flush_rsv, acceptedCall, callMuster_rsv, if_neg (by simp [withOutcome, hstate])]
      rfl
    rw [← hrsv] at hframe
    exact hframe

/-- Settles O13: CALL_REAL in a DRILL is `escalate` on the state with its outcome. -/
theorem realOrderEscalates : Obligations.RealOrderEscalates := by
  unfold Obligations.RealOrderEscalates
  intro s hphase hstate hkind
  have hout : callRealOutcome s.msc = .escalated := by
    obtain h | h := hstate <;> simp only [callRealOutcome, h, if_neg hkind]
  have horder : orderCallReal s = escalate (withOutcome .escalated s) := by
    rw [orderCallReal_eq, hout, realCall_of_drill (s := withOutcome .escalated s) hstate hkind]
  refine ⟨_, exec_callReal hphase, ?_⟩
  rw [horder]
  refine ⟨escalate_outcome _, escalatedFrom_escalate (withOutcome .escalated s), pagesShown_flush (pagesShown_escalate _),
    reportTold_escalate (withOutcome .escalated s), ?_⟩
  rw [escalate_eq]
  rfl

end Sys2Proof.Machine

/-! PROOFS. The muster orders that call nothing, and the two ship inputs (R65 to R69, R74, R86 to R88). -/

namespace Sys2Proof.Machine

open Sys2Proof.Safety

/-! ## Orders that change the outcome alone (R69, R74) -/

theorem alarmBlocks_iff (s : State) :
    alarmBlocks s = true ↔ s.msc.kind = .real ∧ s.sms.settings.alarmSense = .level ∧ s.msc.alarm = some true := by
  simp [alarmBlocks, and_assoc]

theorem standDownOutcome_of_muster {s : State} (h : s.msc.state = .called ∨ s.msc.state = .mustering) :
    standDownOutcome s = if alarmBlocks s then .refusedAlarmAsserted else .accepted := by
  obtain h | h := h <;> simp only [standDownOutcome, h]

theorem standDownOutcome_of_none {s : State} (h : s.msc.state = .standby ∨ s.msc.state = .standingDown) :
    standDownOutcome s = .ignored := by
  obtain h | h := h <;> simp only [standDownOutcome, h]

/-- A stand-down that is not accepted leaves its outcome (R69, R74). -/
theorem orderStandDown_of_not {s : State} {o : OrderOutcome} (h : standDownOutcome s = o) (ho : o ≠ .accepted) :
    orderStandDown s = withOutcome o s := by
  unfold orderStandDown
  simp only [h, if_neg ho]
  rfl

theorem orderCallDrill_of_not {s : State} {o : OrderOutcome} (h : callDrillOutcome s.msc = o) (ho : o ≠ .accepted) :
    orderCallDrill s = withOutcome o s := by
  unfold orderCallDrill
  simp only [h, if_neg ho]
  rfl

theorem orderCallReal_of_real {s : State} (h : s.msc.state = .called ∨ s.msc.state = .mustering) (hkind : s.msc.kind = .real) :
    orderCallReal s = withOutcome .ignored s := by
  have hout : callRealOutcome s.msc = .ignored := by
    obtain h | h := h <;> simp only [callRealOutcome, h, if_pos hkind]
  rw [orderCallReal_eq, hout, realCall_of_real (s := withOutcome .ignored s) h hkind]

/-- An accepted stand-down, its change of state told (R74, R76). -/
def stoodDown (s : State) : State :=
  announceMuster { withOutcome .accepted s with msc := stoodDownMsc (withOutcome .accepted s).msc }

theorem orderStandDown_of_accepted {s : State} (hstate : s.msc.state = .called ∨ s.msc.state = .mustering)
    (halarm : AlarmAnswered s) (hfree : alarmBlocks s = false) : orderStandDown s = stoodDown s := by
  have hnot : ¬AlarmDemands (stoodDown s) := by
    rintro ⟨hlevel, hasserted⟩
    obtain ⟨hkind, -⟩ := halarm hlevel hasserted
    rw [(alarmBlocks_iff s).mpr ⟨hkind, hlevel, hasserted⟩] at hfree
    cases hfree
  have hout : standDownOutcome s = .accepted := by rw [standDownOutcome_of_muster hstate, hfree]; rfl
  unfold orderStandDown
  simp only [hout, if_true]
  rw [show levelTest (announceMuster { withOutcome .accepted s with msc := stoodDownMsc (withOutcome .accepted s).msc })
    = stoodDown s from levelTest_of_not hnot]
  rfl

theorem standDown_accepts {s : State} (hphase : s.phase = .operating)
    (hstate : s.msc.state = .called ∨ s.msc.state = .mustering) (halarm : AlarmAnswered s) (hfree : alarmBlocks s = false) :
    ∃ t, exec .standDown s = .next t
      ∧ t.msc = { s.msc with
          outcome := .accepted, state := .standingDown, calledTimer := none, holdTimer := some 1500000000 }
      ∧ t.xu.runState = s.xu.runState ∧ PagesShown t ∧ ReportTold 2 s t
      ∧ { t with msc := s.msc, pco := s.pco, xu := s.xu } = s := by
  refine ⟨_, exec_standDown hphase, ?_⟩
  rw [orderStandDown_of_accepted hstate halarm hfree]
  have hadds : Adds s.xu (stoodDown s).xu := adds_announceMuster (Adds.refl s.xu)
  exact ⟨rfl, (startReports_runState ..).trans hadds.runState, pagesShown_flush (pagesShown_announceMuster _),
    reportTold_flush (reportAsked_announceMuster _) hadds.baseValid, rfl⟩

/-- Settles O14. -/
theorem ordersNotCalling : Obligations.OrdersNotCalling := by
  unfold Obligations.OrdersNotCalling
  refine ⟨⟨fun s hphase hstate hkind hlevel halarm => ?_, fun s hphase hstate hanswered hfree => ?_⟩, fun s hphase => ⟨fun code => ?_,
    fun hstate hkind => ?_, fun hstate hkind => ?_, fun hstate hkind => ?_, fun hstate => ?_⟩⟩
  · have hblocks := (alarmBlocks_iff s).mpr ⟨hkind, hlevel, halarm⟩
    rw [exec_standDown hphase, orderStandDown_of_not (o := .refusedAlarmAsserted) ?_ (by decide)]
    · rfl
    · rw [standDownOutcome_of_muster hstate, hblocks]; rfl
  · exact standDown_accepts hphase hstate hanswered (by rwa [← Bool.not_eq_true, alarmBlocks_iff])
  · exact answer_takes _ hphase rfl
  · rw [exec_callReal hphase, orderCallReal_of_real hstate hkind]
    rfl
  · rw [exec_callDrill hphase, orderCallDrill_of_not (o := .ignored) ?_ (by decide)]
    · rfl
    · obtain h | h := hstate <;> simp only [callDrillOutcome, h, if_neg hkind]
  · rw [exec_callDrill hphase, orderCallDrill_of_not (o := .refusedDrillInReal) ?_ (by decide)]
    · rfl
    · cases h : s.msc.state
      case standby => exact absurd h hstate
      case called | mustering | standingDown => simp only [callDrillOutcome, h, if_pos hkind]
  · rw [exec_standDown hphase, orderStandDown_of_not (standDownOutcome_of_none hstate) (by decide)]
    rfl

/-! ## The alarm (R65, R66, R67) -/

/-- The state that a level of the alarm is recorded in. -/
def withAlarm (level : Bool) (s : State) : State := { s with msc := { s.msc with alarm := some level } }

theorem exec_alarmInitialLevel {level : Bool} {s : State} (hphase : s.phase = .operating) (hpin : PinAt level s.msc.alarmPin)
    (hnone : s.msc.alarm = none) :
    exec (.alarmInitialLevel level) s = .next (flush (levelTest (withAlarm level s))) :=
  answer_takes _ hphase (by simp [hnone, (pinHeld_iff ..).mpr hpin])

theorem exec_alarmTransition_level {level : Bool} {s : State} (hphase : s.phase = .operating)
    (hpin : PinAt level s.msc.alarmPin) (hother : s.msc.alarm = some (!level)) (hsense : s.sms.settings.alarmSense = .level) :
    exec (.alarmQualifiedTransition level) s = .next (flush (levelTest (withAlarm level s))) := by
  refine (answer_takes _ hphase (by simp [hother, (pinHeld_iff ..).mpr hpin])).trans ?_
  simp only [hsense]
  rfl

theorem exec_alarmTransition_edge {level : Bool} {s : State} (hphase : s.phase = .operating)
    (hpin : PinAt level s.msc.alarmPin) (hother : s.msc.alarm = some (!level)) (hsense : s.sms.settings.alarmSense = .edge) :
    exec (.alarmQualifiedTransition level) s
      = .next (flush (if level then realCall (withAlarm level s) else withAlarm level s)) := by
  refine (answer_takes _ hphase (by simp [hother, (pinHeld_iff ..).mpr hpin])).trans ?_
  simp only [hsense]
  cases level
  case false => rfl
  case true =>
    simp only [if_true]
    exact congrArg (fun u => Host.Outcome.next (flush u)) (musterBlocks_eq (realCall_frame (withAlarm true s)))

/-- A level is recorded, and nothing is called (R66, R67, log 17). -/
theorem withAlarm_leaves (level : Bool) (s : State) :
    (flush (withAlarm level s)).msc.alarm = some level ∧ (flush (withAlarm level s)).msc.outcome = s.msc.outcome
      ∧ (flush (withAlarm level s)).lcs.recs = s.lcs.recs
      ∧ { flush (withAlarm level s) with rsv := s.rsv, msc := s.msc, pco := s.pco, lcs := s.lcs, xu := s.xu } = s :=
  ⟨rfl, rfl, rfl, rfl⟩

/-- The alarm's call from STANDBY or STANDING_DOWN (R66, R67, R70, R78). -/
def alarmCall (level : Bool) (s : State) : State := callMuster .real (withAlarm level s)

theorem alarmCall_leaves (level : Bool) (s : State) :
    (flush (alarmCall level s)).msc.alarm = some level ∧ (flush (alarmCall level s)).msc.outcome = s.msc.outcome
      ∧ (flush (alarmCall level s)).lcs.recs = s.lcs.recs
      ∧ { flush (alarmCall level s) with rsv := s.rsv, msc := s.msc, pco := s.pco, lcs := s.lcs, xu := s.xu } = s
      ∧ PagesShown (flush (alarmCall level s)) ∧ CalledFrom .real s (flush (alarmCall level s))
      ∧ Resumed s (flush (alarmCall level s)) :=
  ⟨callMuster_alarm .real (withAlarm level s), callMuster_outcome .real (withAlarm level s),
    callMuster_recs .real (withAlarm level s), rfl, pagesShown_flush (pagesShown_callMuster .real _),
    calledFrom_callMuster .real (withAlarm level s), resumed_callMuster .real (withAlarm level s)⟩

theorem escalate_frame (s : State) :
    { escalate s with rsv := s.rsv, msc := s.msc, pco := s.pco, lcs := s.lcs, xu := s.xu } = s := rfl

/-- The alarm's escalation of a DRILL (R66, R67, R73). -/
def alarmEscalation (level : Bool) (s : State) : State := escalate (withAlarm level s)

theorem alarmEscalation_leaves (level : Bool) (s : State) :
    (flush (alarmEscalation level s)).msc.alarm = some level
      ∧ (flush (alarmEscalation level s)).msc.outcome = s.msc.outcome
      ∧ (flush (alarmEscalation level s)).lcs.recs = s.lcs.recs
      ∧ { flush (alarmEscalation level s) with rsv := s.rsv, msc := s.msc, pco := s.pco, lcs := s.lcs, xu := s.xu } = s
      ∧ PagesShown (flush (alarmEscalation level s)) ∧ EscalatedFrom s (flush (alarmEscalation level s))
      ∧ ReportTold 2 s (flush (alarmEscalation level s)) :=
  ⟨escalate_alarm (withAlarm level s), escalate_outcome (withAlarm level s), congrArg LcsState.recs (escalate_lcs _),
    (congrArg (fun u : State => { u with rsv := s.rsv, msc := s.msc, pco := s.pco, lcs := s.lcs, xu := s.xu })
      (escalate_frame (withAlarm level s)) :),
    pagesShown_flush (pagesShown_escalate _), escalatedFrom_escalate (withAlarm level s),
    reportTold_escalate (withAlarm level s)⟩

theorem calledFrom_mustering {s t : State} {k : MusterKind} (h : CalledFrom k s t) :
    t.msc.state = .called ∨ t.msc.state = .mustering := by
  obtain ⟨-, -, -, hall, hnot, -⟩ := h
  by_cases hc : AllConfirmed s (nextSerial s.msc.serial)
  · exact .inr (hall hc).1
  · exact .inl (hnot hc).1

theorem escalatedFrom_mustering {s t : State} (h : EscalatedFrom s t)
    (hstate : s.msc.state = .called ∨ s.msc.state = .mustering) : t.msc.state = .called ∨ t.msc.state = .mustering := by
  obtain ⟨-, -, hmustering, hnot, hall, -⟩ := h
  obtain hstate | hstate := hstate
  · by_cases hc : AllConfirmed s (nextSerial s.msc.serial)
    · exact .inr (hall hstate hc).1
    · exact .inl (hnot hstate hc).1
  · exact .inr (hmustering hstate).1

theorem muster_cases (s : State) :
    (s.msc.state = .standby ∨ s.msc.state = .standingDown)
      ∨ (s.msc.state = .called ∨ s.msc.state = .mustering) ∧ s.msc.kind ≠ .real
      ∨ (s.msc.state = .called ∨ s.msc.state = .mustering) ∧ s.msc.kind = .real := by
  by_cases hkind : s.msc.kind = .real <;> cases s.msc.state <;> simp [hkind]

theorem realCall_withAlarm_of_calling {level : Bool} {s : State}
    (h : s.msc.state = .standby ∨ s.msc.state = .standingDown) : realCall (withAlarm level s) = alarmCall level s :=
  realCall_of_calling (s := withAlarm level s) h

theorem realCall_withAlarm_of_drill {level : Bool} {s : State} (h : s.msc.state = .called ∨ s.msc.state = .mustering)
    (hkind : s.msc.kind ≠ .real) : realCall (withAlarm level s) = alarmEscalation level s :=
  realCall_of_drill (s := withAlarm level s) h hkind

theorem realCall_withAlarm_of_real {level : Bool} {s : State} (h : s.msc.state = .called ∨ s.msc.state = .mustering)
    (hkind : s.msc.kind = .real) : realCall (withAlarm level s) = withAlarm level s :=
  realCall_of_real (s := withAlarm level s) h hkind

/-- The test of R66 on a level just recorded: it calls where that level is asserted. -/
theorem levelTest_withAlarm {s : State} (hsense : s.sms.settings.alarmSense = .level) (level : Bool) :
    levelTest (withAlarm level s) = if level then realCall (withAlarm level s) else withAlarm level s := by
  cases level
  case true => exact levelTest_of_demands ⟨hsense, rfl⟩
  case false => exact levelTest_of_not fun h => by simp [AlarmDemands, withAlarm] at h

theorem exec_alarm_level {c : Instr} {level : Bool} {s : State} (hphase : s.phase = .operating)
    (hsense : s.sms.settings.alarmSense = .level) (hpin : PinAt level s.msc.alarmPin)
    (hc : c = .alarmQualifiedTransition level ∧ s.msc.alarm = some (!level)
      ∨ c = .alarmInitialLevel level ∧ s.msc.alarm = none) :
    exec c s = .next (flush (if level then realCall (withAlarm level s) else withAlarm level s)) := by
  rw [← levelTest_withAlarm hsense]
  obtain ⟨rfl, hother⟩ | ⟨rfl, hnone⟩ := hc
  · exact exec_alarmTransition_level hphase hpin hother hsense
  · exact exec_alarmInitialLevel hphase hpin hnone

/-- Settles O15: under LEVEL and under EDGE a level that is taken is recorded, and the REAL call of R69 follows or not. -/
theorem alarmSensing : Obligations.AlarmSensing := by
  unfold Obligations.AlarmSensing
  refine ⟨fun c level s hphase hsense hpin hc => ?_, fun s hphase hsense => ⟨fun hpin hother hstate => ?_,
    fun hpin hother hstate hkind => ?_, fun hpin hother => ?_, fun hnone level hpin => ?_⟩, fun level s hphase hpin => ?_⟩
  · refine ⟨_, exec_alarm_level hphase hsense hpin hc, ?_⟩
    cases level
    case false =>
      obtain ⟨halarm, hout, hrecs, hframe⟩ := withAlarm_leaves false s
      exact ⟨halarm, hout, hrecs, hframe, by simp, by simp, by simp, by simp, fun _ => rfl⟩
    case true =>
      simp only [if_true]
      obtain hcalls | ⟨hmuster, hkind⟩ | ⟨hmuster, hkind⟩ := muster_cases s
      · rw [realCall_withAlarm_of_calling hcalls]
        obtain ⟨halarm, hout, hrecs, hframe, hpages, hcalled, hresumed⟩ := alarmCall_leaves true s
        have hnone : ¬(s.msc.state = .called ∨ s.msc.state = .mustering) := by obtain h | h := hcalls <;> simp [h]
        exact ⟨halarm, hout, hrecs, hframe, fun _ => ⟨hcalled.1, calledFrom_mustering hcalled⟩,
          fun _ _ => ⟨hcalled.2.1, hpages, hresumed.2.2.2.2.2.2.2⟩, fun _ _ => ⟨hcalled, hresumed⟩,
          fun _ h => absurd h hnone, fun h => by simp [hnone] at h⟩
      · rw [realCall_withAlarm_of_drill hmuster hkind]
        obtain ⟨halarm, hout, hrecs, hframe, hpages, hescalated, htold⟩ := alarmEscalation_leaves true s
        have hnone : ¬(s.msc.state = .standby ∨ s.msc.state = .standingDown) := by obtain h | h := hmuster <;> simp [h]
        exact ⟨halarm, hout, hrecs, hframe, fun _ => ⟨hescalated.1, escalatedFrom_mustering hescalated hmuster⟩,
          fun _ _ => ⟨hescalated.2.1, hpages, htold⟩, fun _ h => absurd h hnone, fun _ _ _ => hescalated,
          fun h => by simp [hkind] at h⟩
      · rw [realCall_withAlarm_of_real hmuster hkind]
        obtain ⟨halarm, hout, hrecs, hframe⟩ := withAlarm_leaves true s
        have hnone : ¬(s.msc.state = .standby ∨ s.msc.state = .standingDown) := by obtain h | h := hmuster <;> simp [h]
        refine ⟨halarm, hout, hrecs, hframe, fun _ => ⟨hkind, hmuster⟩, fun _ h => ?_, fun _ h => absurd h hnone,
          fun _ _ h => absurd hkind h, fun _ => rfl⟩
        rw [← or_assoc] at h
        exact (h.elim hnone fun hk => hk hkind).elim
  · refine ⟨_, exec_alarmTransition_edge hphase hpin hother hsense, ?_⟩
    simp only [if_true]
    obtain hcalls | ⟨hmuster, hkind⟩ | ⟨hmuster, hkind⟩ := muster_cases s
    · rw [realCall_withAlarm_of_calling hcalls]
      obtain ⟨halarm, hout, -, -, hpages, hcalled, hresumed⟩ := alarmCall_leaves true s
      have hnone : ¬(s.msc.state = .called ∨ s.msc.state = .mustering) := by obtain h | h := hcalls <;> simp [h]
      exact ⟨halarm, hcalled.1, calledFrom_mustering hcalled, hcalled.2.1, hout, hpages, hresumed.2.2.2.2.2.2.2,
        fun _ => ⟨hcalled, hresumed⟩, fun h => absurd h hnone⟩
    · rw [realCall_withAlarm_of_drill hmuster hkind]
      obtain ⟨halarm, hout, -, -, hpages, hescalated, htold⟩ := alarmEscalation_leaves true s
      have hnone : ¬(s.msc.state = .standby ∨ s.msc.state = .standingDown) := by obtain h | h := hmuster <;> simp [h]
      exact ⟨halarm, hescalated.1, escalatedFrom_mustering hescalated hmuster, hescalated.2.1, hout, hpages, htold,
        fun h => absurd h hnone, fun _ => hescalated⟩
    · have hnone : ¬(s.msc.state = .standby ∨ s.msc.state = .standingDown) := by obtain h | h := hmuster <;> simp [h]
      rw [← or_assoc] at hstate
      exact (hstate.elim hnone fun hk => hk hkind).elim
  · rw [exec_alarmTransition_edge hphase hpin hother hsense]
    simp only [if_true]
    rw [realCall_withAlarm_of_real hstate hkind]
    rfl
  · exact exec_alarmTransition_edge hphase hpin hother hsense
  · rw [exec_alarmInitialLevel hphase hpin hnone, levelTest_of_not (s := withAlarm level s)]
    · rfl
    · rintro ⟨hlevel, -⟩
      simp [withAlarm, hsense] at hlevel
  · have hheld := pinHeld_false _ _ hpin
    simp only [exec, execAlarmQualifiedTransition, execAlarmInitialLevel, hheld, Bool.and_false]
    exact ⟨by simp [answer], by simp [answer]⟩

end Sys2Proof.Machine

/-! PROOFS. Recounts and what they do to CALLED (R72, R84, R85), and the reserve regime (R86 to R88, R142). -/

namespace Sys2Proof.Machine

open Sys2Proof.Safety

/-! ## Entries of a canonical table -/

theorem tblGet_of_mem {α : Type} {t : Tbl α} (h : tblSorted t = true) {k : Nat} {a : α} (hmem : (k, a) ∈ t) :
    tblGet t k = some a := by
  induction t with
  | nil => cases hmem
  | cons e rest ih =>
    obtain ⟨i, b⟩ := e
    obtain ⟨hlt, hrest⟩ := (sorted_cons (i, b) rest).mp h
    obtain heq | hmem := List.mem_cons.mp hmem
    · cases heq
      simp [tblGet]
    · have hk : i < k := hlt k (List.mem_map.mpr ⟨(k, a), hmem, rfl⟩)
      rw [tblGet, if_neg (by omega)]
      exact ih hrest hmem

theorem mem_iff_tblGet {α : Type} {t : Tbl α} (h : tblSorted t = true) {k : Nat} {a : α} :
    (k, a) ∈ t ↔ tblGet t k = some a := ⟨tblGet_of_mem h, get_mem⟩

theorem mem_keys_of_get {α : Type} {t : Tbl α} {k : Nat} {a : α} (h : tblGet t k = some a) : k ∈ tblKeys t :=
  (mem_keys ..).mpr (by rw [tblHas, h]; rfl)

/-! ## A recount (R72, R85) -/

/-- Under the invariant the test of R66 that follows the end of CALLED finds nothing. -/
theorem levelTest_enterMustering {s : State} (h : AlarmAnswered s) : levelTest (enterMustering s) = enterMustering s := by
  by_cases hd : AlarmDemands (enterMustering s)
  · obtain ⟨hlevel, halarm⟩ := hd
    obtain ⟨hkind, -⟩ := h hlevel halarm
    exact levelTest_of_real (.inr rfl) hkind
  · exact levelTest_of_not hd

theorem endCalled_of_answered {s : State} (h : AlarmAnswered s) : endCalled s = enterMustering s := by
  unfold endCalled
  rw [levelTest_enterMustering h]
  exact musterBlocks_eq (t := enterMustering s) rfl

theorem recount_of_answered {s : State} (h : AlarmAnswered s) : recount s = completeTest s := by
  unfold recount
  rw [completeTest_eq, endCalled_of_answered h]
  split <;> rfl

/-- What a recount leaves of the muster state, with its pages and its report (R72, R85). -/
theorem recountTaken_of {c : MscState} {s u : State} (hmsc : u.msc = c) (hbase : baseValid u.xu = baseValid s.xu) :
    RecountTaken c s (flush (completeTest u)) := by
  subst hmsc
  have hconf : AllConfirmed (flush (completeTest u)) u.msc.serial ↔ AllConfirmed u u.msc.serial := by
    have hreserve : (flush (completeTest u)).msc.reserve = u.msc.reserve := by
      rw [flush_msc, completeTest_msc]
      split <;> rfl
    exact allConfirmed_congr (s := u) (u := flush (completeTest u)) rfl rfl rfl hreserve _
  refine ⟨fun hne => ?_, fun hcalled _ => ⟨fun hall => ?_, fun hnot => ?_⟩⟩
  · rw [completeTest_of_not (fun hc => hne hc.1), flush_msc]
  · rw [completeTest_of_confirmed hcalled (hconf.mp hall)]
    exact ⟨rfl, pagesShown_flush (pagesShown_enterMustering u), reportTold_flush (reportAsked_announceMuster _)
      ((adds_enterMustering (Adds.refl u.xu)).baseValid.trans hbase)⟩
  · rw [completeTest_of_not (fun hc => hnot (hconf.mpr hc.2)), flush_msc]

/-! ## Shedding (R142) -/

theorem shedTests_lineRec (s : State) (x : Nat) :
    lineRec (shedTests s).lcs x = lineRec s.lcs x
      ∨ lineRec (shedTests s).lcs x = { lineRec s.lcs x with shed := true } ∧ shedCondition s x (lineRec s.lcs x) = true := by
  unfold lineRec tblGetD
  simp only [shedTests, tblGet_map]
  cases tblGet s.lcs.recs x with
  | none => exact .inl rfl
  | some r =>
    simp only [Option.map_some, Option.getD_some]
    by_cases h : shedCondition s x r = true
    · rw [if_pos h]; exact .inr ⟨rfl, h⟩
    · rw [if_neg h]; exact .inl rfl

/-- An essential station is never shed. -/
theorem shedCondition_of_essential {s : State} {x : Nat} {st : StationRec} (hst : tblGet s.sms.stations x = some st)
    (hess : st.essential = true) (r : LineRec) : shedCondition s x r = false := by
  simp [shedCondition, hst, excluded, hess]

theorem clearShed_lineRec (l : LcsState) (x : Nat) : lineRec (clearShed l) x = { lineRec l x with shed := false } := by
  unfold lineRec tblGetD
  simp only [clearShed, tblGet_map]
  cases tblGet l.recs x <;> rfl

/-! ## Pages under the reserve regime (R86, R87) -/

theorem mem_nonEssential {s : State} {x : Nat} {st : StationRec} (hst : tblGet s.sms.stations x = some st)
    (hess : st.essential = false) : x ∈ nonEssential s :=
  List.mem_map.mpr ⟨(x, st), List.mem_filter.mpr ⟨get_mem hst, by simp [hess]⟩, rfl⟩

theorem not_mem_nonEssential {s : State} (hsorted : tblSorted s.sms.stations = true) {x : Nat} {st : StationRec}
    (hst : tblGet s.sms.stations x = some st) (hess : st.essential = true) : x ∉ nonEssential s := by
  intro hmem
  obtain ⟨⟨y, q⟩, hentry, rfl⟩ := List.mem_map.mp hmem
  obtain ⟨hin, hq⟩ := List.mem_filter.mp hentry
  rw [tblGet_of_mem hsorted hin] at hst
  cases hst
  simp [hess] at hq

theorem candidate_of_excluded {s : State} {st : StationRec} (h : excluded s st = true) (x : Nat) :
    (candidate s x st).page = { body := .blank, musterSerial := 0 } := by
  unfold candidate
  rw [if_pos h]
  rfl

theorem pageShown_completeTest {s : State} {x : Nat} (h : PageShown s x) : PageShown (completeTest s) x := by
  rw [completeTest_eq]
  split
  · exact pagesShown_enterMustering s x
  · exact h

/-- A completion test that leaves the muster state leaves the pages. -/
theorem completeTest_of_same_state {s : State} (h : (completeTest s).msc.state = s.msc.state) : completeTest s = s := by
  refine completeTest_of_not fun hc => ?_
  rw [completeTest_msc, if_pos ((tallyComplete_iff s).mpr hc)] at h
  rw [hc.1] at h
  cases h

/-! ## The reserve regime begins (R86) -/

/-- The reserve regime holds from here on. -/
def withReserve (b : Bool) (s : State) : State :=
  { s with msc := { s.msc with reserveLevel := some b, reserve := b } }

/-- The regime begins, up to the recount (R86). -/
def reserveBegun (s : State) : State :=
  reportCause .reserve (shedTests (composeMarked (nonEssential (withReserve true s)) (withReserve true s)))

/-- The regime ends, up to the recount (R87). -/
def reserveEnded (s : State) : State :=
  reportCause .reserve (composeMarked (nonEssential s) { withReserve false s with lcs := clearShed s.lcs })

theorem alarmAnswered_withReserve {s u : State} (hsms : u.sms = s.sms) {b : Bool}
    (hmsc : u.msc = { s.msc with reserveLevel := some b, reserve := b }) (h : AlarmAnswered s) : AlarmAnswered u := by
  intro hlevel halarm
  rw [hmsc] at halarm ⊢
  exact h (hsms ▸ hlevel) halarm

theorem completeTest_blocks (s u : State) (h : { u with rsv := s.rsv, msc := s.msc, pco := s.pco, lcs := s.lcs, xu := s.xu } = s) :
    { completeTest u with rsv := s.rsv, msc := s.msc, pco := s.pco, lcs := s.lcs, xu := s.xu } = s := by
  have hback := congrArg (fun v : State => { v with rsv := s.rsv, msc := s.msc, pco := s.pco, lcs := s.lcs, xu := s.xu })
    (completeTest_frame u)
  exact hback.trans h

/-- The level of the RESERVE pin is recorded. -/
def withReserveLevel (b : Bool) (s : State) : State := { s with msc := { s.msc with reserveLevel := some b } }

theorem reserveBegun_blocks (s : State) :
    { reserveBegun s with rsv := s.rsv, msc := s.msc, pco := s.pco, lcs := s.lcs, xu := s.xu } = s := rfl

theorem reserveEnded_blocks (s : State) :
    { reserveEnded s with rsv := s.rsv, msc := s.msc, pco := s.pco, lcs := s.lcs, xu := s.xu } = s := rfl

theorem withReserveLevel_blocks {b : Bool} {s u : State}
    (h : { u with rsv := s.rsv, msc := s.msc, pco := s.pco, lcs := s.lcs, xu := s.xu } = s) :
    musterBlocks u (withReserveLevel b s) = u := by
  have hu := musterBlocks_eq h
  exact hu

theorem reserveBegin_eq {s : State} (h : AlarmAnswered s) :
    reserveBegin (withReserveLevel true s) = completeTest (reserveBegun s) := by
  have hanswered : AlarmAnswered (reserveBegun s) := alarmAnswered_withReserve rfl rfl h
  have hunfold : reserveBegin (withReserveLevel true s)
      = musterBlocks (recount (reserveBegun s)) (withReserveLevel true s) := rfl
  rw [hunfold, recount_of_answered hanswered]
  exact withReserveLevel_blocks (completeTest_blocks s _ (reserveBegun_blocks s))

theorem reserveFinish_eq {s : State} (h : AlarmAnswered s) :
    reserveFinish (withReserveLevel false s) = completeTest (reserveEnded s) := by
  have hanswered : AlarmAnswered (reserveEnded s) := alarmAnswered_withReserve rfl rfl h
  have hunfold : reserveFinish (withReserveLevel false s)
      = musterBlocks (recount (reserveEnded s)) (withReserveLevel false s) := rfl
  rw [hunfold, recount_of_answered hanswered]
  exact withReserveLevel_blocks (completeTest_blocks s _ (reserveEnded_blocks s))

theorem exec_reserveRise {s : State} (hphase : s.phase = .operating) (hanswered : AlarmAnswered s)
    (hpin : PinAt true s.msc.reservePin) (hlevel : s.msc.reserveLevel = some false) :
    exec .reserveQualifiedRise s = .next (flush (completeTest (reserveBegun s))) := by
  rw [← reserveBegin_eq hanswered]
  exact answer_takes _ hphase (by simp [hlevel, (pinHeld_iff ..).mpr hpin])

theorem exec_reserveInitial {s : State} (hphase : s.phase = .operating) (hanswered : AlarmAnswered s)
    (hpin : PinAt true s.msc.reservePin) (hlevel : s.msc.reserveLevel = none) :
    exec (.reserveInitialLevel true) s = .next (flush (completeTest (reserveBegun s))) := by
  rw [← reserveBegin_eq hanswered]
  exact answer_takes _ hphase (by simp [hlevel, (pinHeld_iff ..).mpr hpin])

theorem exec_reserveFall {s : State} (hphase : s.phase = .operating) (hanswered : AlarmAnswered s)
    (hpin : PinAt false s.msc.reservePin) (hlevel : s.msc.reserveLevel = some true) :
    exec .reserveQualifiedFall s = .next (flush (completeTest (reserveEnded s))) := by
  rw [← reserveFinish_eq hanswered]
  exact answer_takes _ hphase (by simp [hlevel, (pinHeld_iff ..).mpr hpin])

/-- Every field of the Muster Controller but the state and the called timer stands through the completion test (R72). -/
theorem completeTest_msc_frame (s : State) :
    { (completeTest s).msc with state := s.msc.state, calledTimer := s.msc.calledTimer } = s.msc := by
  rw [completeTest_msc]
  split <;> rfl

section Reserve

variable (s : State)

theorem adds_reserveBegun : Adds s.xu (reserveBegun s).xu :=
  adds_reportCause (s := shedTests (composeMarked (nonEssential (withReserve true s)) (withReserve true s)))
    (adds_composeMarked _ (s := withReserve true s) (Adds.refl _)) _

theorem adds_reserveEnded : Adds s.xu (reserveEnded s).xu :=
  adds_reportCause (s := composeMarked (nonEssential s) { withReserve false s with lcs := clearShed s.lcs })
    (adds_composeMarked _ (s := { withReserve false s with lcs := clearShed s.lcs }) (Adds.refl _)) _

theorem pageShown_reserveBegun {x : Nat} {st : StationRec} (hst : tblGet s.sms.stations x = some st)
    (hess : st.essential = false) : PageShown (reserveBegun s) x := by
  have hmarked := pageShown_marked (s := withReserve true s) (mem_nonEssential (s := withReserve true s) hst hess)
  exact pageShown_of_same hmarked rfl rfl rfl rfl rfl

theorem pageShown_reserveEnded {x : Nat} {st : StationRec} (hst : tblGet s.sms.stations x = some st)
    (hess : st.essential = false) : PageShown (reserveEnded s) x := by
  have hmarked := pageShown_marked (s := { withReserve false s with lcs := clearShed s.lcs })
    (mem_nonEssential (s := s) hst hess)
  exact pageShown_of_same hmarked rfl rfl rfl rfl rfl

theorem reportTold_reserve {u : State} (hadds : Adds s.xu u.xu) (hasked : ReportAsked 3 u.xu) :
    ReportTold 3 s (flush (completeTest u)) :=
  reportTold_flush (hasked.mono (adds_completeTest_self u).holds)
    ((adds_completeTest_self u).baseValid.trans hadds.baseValid)

theorem runState_reserve {u : State} (hadds : Adds s.xu u.xu) : (flush (completeTest u)).xu.runState = s.xu.runState :=
  (startReports_runState ..).trans ((adds_completeTest_self u).runState.trans hadds.runState)

/-- Outside the end of CALLED an essential station keeps its page when the regime changes (R86). -/
theorem pageRec_essential {u v : State} (hsorted : tblSorted u.sms.stations = true) {x : Nat} {st : StationRec}
    (hst : tblGet u.sms.stations x = some st) (hess : st.essential = true)
    (hpco : v.pco = (composeMarked (nonEssential u) u).pco) (hstate : (completeTest v).msc.state = v.msc.state) :
    pageRec (flush (completeTest v)).pco x = pageRec u.pco x := by
  have hsame := completeTest_of_same_state hstate
  rw [flush_pco, hsame, hpco, composeMarked_pageRec_unmarked u (not_mem_nonEssential hsorted hst hess)]

theorem flush_completeTest_frame {u : State}
    (h : { u with msc := s.msc, pco := s.pco, lcs := s.lcs, xu := s.xu } = s) :
    { flush (completeTest u) with msc := s.msc, pco := s.pco, lcs := s.lcs, xu := s.xu } = s := by
  have hflush : { flush (completeTest u) with msc := s.msc, pco := s.pco, lcs := s.lcs, xu := s.xu }
      = { u with msc := s.msc, pco := s.pco, lcs := s.lcs, xu := s.xu } := rfl
  exact hflush.trans h

theorem reserveBegun_frame : { reserveBegun s with msc := s.msc, pco := s.pco, lcs := s.lcs, xu := s.xu } = s := rfl

theorem reserveEnded_frame : { reserveEnded s with msc := s.msc, pco := s.pco, lcs := s.lcs, xu := s.xu } = s := rfl

end Reserve

/-- The regime holds (R86): what a rise, or an asserted first level, leaves. -/
theorem reserveBegun_leaves (s : State) :
    (flush (completeTest (reserveBegun s))).msc.reserve = true
      ∧ (flush (completeTest (reserveBegun s))).msc.reserveLevel = some true
      ∧ (∀ x st, tblGet s.sms.stations x = some st → st.essential = false →
          desiredPage (flush (completeTest (reserveBegun s))).pco x = some { body := .blank, musterSerial := 0 })
      ∧ (TablesCanonical s → ∀ x st, tblGet s.sms.stations x = some st → st.essential = true →
          lineRec (flush (completeTest (reserveBegun s))).lcs x = lineRec s.lcs x
            ∧ ((flush (completeTest (reserveBegun s))).msc.state = s.msc.state →
                pageRec (flush (completeTest (reserveBegun s))).pco x = pageRec s.pco x))
      ∧ RecountTaken { s.msc with reserve := true, reserveLevel := some true } s (flush (completeTest (reserveBegun s)))
      ∧ (flush (completeTest (reserveBegun s))).msc.kind = s.msc.kind
      ∧ (flush (completeTest (reserveBegun s))).msc.serial = s.msc.serial
      ∧ (flush (completeTest (reserveBegun s))).msc.map = s.msc.map
      ∧ (flush (completeTest (reserveBegun s))).xu.runState = s.xu.runState
      ∧ (∀ x, confirmedPage (flush (completeTest (reserveBegun s))) x = confirmedPage s x)
      ∧ ReportTold 3 s (flush (completeTest (reserveBegun s)))
      ∧ { flush (completeTest (reserveBegun s)) with msc := s.msc, pco := s.pco, lcs := s.lcs, xu := s.xu } = s := by
  have hadds := adds_reserveBegun s
  have hmsc := completeTest_msc_frame (reserveBegun s)
  have hlines : ∀ x, lineRec (flush (completeTest (reserveBegun s))).lcs x
      = lineRec (shedTests (composeMarked (nonEssential (withReserve true s)) (withReserve true s))).lcs x := fun _ => rfl
  refine ⟨(congrArg MscState.reserve hmsc :), (congrArg MscState.reserveLevel hmsc :), fun x st hst hess => ?_,
    fun hcanon x st hst hess => ⟨?_, fun hstate => ?_⟩, recountTaken_of rfl hadds.baseValid,
    (congrArg MscState.kind hmsc :), (congrArg MscState.serial hmsc :), (congrArg MscState.map hmsc :),
    runState_reserve s hadds, fun x => ?_, reportTold_reserve s hadds (reportAsked_reportCause .reserve _),
    flush_completeTest_frame s (reserveBegun_frame s)⟩
  · have hshown := pageShown_completeTest (pageShown_reserveBegun s hst hess)
    rw [flush_pco, hshown st hst, candidate_of_excluded]
    have hreserve : (completeTest (reserveBegun s)).msc.reserve = true := (congrArg MscState.reserve hmsc :)
    simp [excluded, hreserve, hess]
  · rw [hlines]
    obtain hsame | ⟨-, hshed⟩ := shedTests_lineRec (composeMarked (nonEssential (withReserve true s)) (withReserve true s)) x
    · exact hsame
    · rw [shedCondition_of_essential (s := composeMarked (nonEssential (withReserve true s)) (withReserve true s)) hst hess]
        at hshed
      cases hshed
  · exact pageRec_essential (u := withReserve true s) hcanon.2.2.1 hst hess rfl hstate
  · simp only [confirmedPage, hlines]
    obtain hsame | ⟨hshed, -⟩ := shedTests_lineRec (composeMarked (nonEssential (withReserve true s)) (withReserve true s)) x
    · rw [hsame]; rfl
    · rw [hshed]; rfl

/-- The regime has ended (R87). -/
theorem reserveEnded_leaves (s : State) :
    (flush (completeTest (reserveEnded s))).msc.reserve = false
      ∧ (flush (completeTest (reserveEnded s))).msc.reserveLevel = some false
      ∧ (∀ x st, tblGet s.sms.stations x = some st → st.essential = false →
          desiredPage (flush (completeTest (reserveEnded s))).pco x
            = some (candidate (flush (completeTest (reserveEnded s))) x st).page)
      ∧ (TablesCanonical s → ∀ x st, tblGet s.sms.stations x = some st → st.essential = true →
          (flush (completeTest (reserveEnded s))).msc.state = s.msc.state →
          pageRec (flush (completeTest (reserveEnded s))).pco x = pageRec s.pco x)
      ∧ (∀ x, (lineRec (flush (completeTest (reserveEnded s))).lcs x).shed = false
          ∧ lineStatus (flush (completeTest (reserveEnded s))) x = lineStatus s x)
      ∧ RecountTaken { s.msc with reserve := false, reserveLevel := some false } s (flush (completeTest (reserveEnded s)))
      ∧ (flush (completeTest (reserveEnded s))).msc.kind = s.msc.kind
      ∧ (flush (completeTest (reserveEnded s))).msc.serial = s.msc.serial
      ∧ (flush (completeTest (reserveEnded s))).msc.map = s.msc.map
      ∧ (flush (completeTest (reserveEnded s))).xu.runState = s.xu.runState
      ∧ (∀ x, confirmedPage (flush (completeTest (reserveEnded s))) x = confirmedPage s x)
      ∧ ReportTold 3 s (flush (completeTest (reserveEnded s)))
      ∧ { flush (completeTest (reserveEnded s)) with msc := s.msc, pco := s.pco, lcs := s.lcs, xu := s.xu } = s := by
  have hadds := adds_reserveEnded s
  have hmsc := completeTest_msc_frame (reserveEnded s)
  have hlines : ∀ x, lineRec (flush (completeTest (reserveEnded s))).lcs x = { lineRec s.lcs x with shed := false } :=
    fun x => clearShed_lineRec s.lcs x
  refine ⟨(congrArg MscState.reserve hmsc :), (congrArg MscState.reserveLevel hmsc :), fun x st hst hess => ?_,
    fun hcanon x st hst hess hstate => ?_, fun x => ⟨?_, ?_⟩, recountTaken_of rfl hadds.baseValid,
    (congrArg MscState.kind hmsc :), (congrArg MscState.serial hmsc :), (congrArg MscState.map hmsc :),
    runState_reserve s hadds, fun x => ?_, reportTold_reserve s hadds (reportAsked_reportCause .reserve _),
    flush_completeTest_frame s (reserveEnded_frame s)⟩
  · have hshown := pageShown_completeTest (pageShown_reserveEnded s hst hess)
    have hcand : candidate (flush (completeTest (reserveEnded s))) x st = candidate (completeTest (reserveEnded s)) x st :=
      candidate_congr rfl rfl rfl rfl rfl x st
    rw [flush_pco, hshown st hst, hcand]
  · exact pageRec_essential (u := { withReserve false s with lcs := clearShed s.lcs }) hcanon.2.2.1 hst hess rfl hstate
  · rw [hlines]
  · simp only [lineStatus, hlines]
    rfl
  · simp only [confirmedPage, hlines]

/-- Settles O16: the two changes of the regime, and the levels that are not taken. -/
theorem reserveRegime : Obligations.ReserveRegime := by
  unfold Obligations.ReserveRegime
  refine ⟨fun c s hphase hanswered hpin hc => ⟨_, ?_, reserveBegun_leaves s⟩,
    fun s hphase hanswered hpin hlevel => ⟨_, exec_reserveFall hphase hanswered hpin hlevel, reserveEnded_leaves s⟩,
    fun s hphase hpin hlevel => answer_takes _ hphase (by simp [hlevel, (pinHeld_iff ..).mpr hpin]), fun s _ => ?_⟩
  · obtain ⟨rfl, hlevel⟩ | ⟨rfl, hlevel⟩ := hc
    · exact exec_reserveRise hphase hanswered hpin hlevel
    · exact exec_reserveInitial hphase hanswered hpin hlevel
  · refine ⟨fun hpin => ?_, fun hpin => ?_, fun level hpin => ?_⟩
    · simp [exec, execReserveQualifiedRise, answer, pinHeld_false _ _ hpin]
    · simp [exec, execReserveQualifiedFall, answer, pinHeld_false _ _ hpin]
    · simp [exec, execReserveInitialLevel, answer, pinHeld_false _ _ hpin]

end Sys2Proof.Machine

/-! PROOFS. Rotations and interjections (R110 to R122): the walk, what is shown at a step boundary, and the two countdowns. -/

namespace Sys2Proof.Machine

open Sys2Proof.Safety

/-! ## The walk (R111) -/

section Walk

variable {steps : List RotStep} {i : Nat} (fuel : Nat) (loops : List Nat)

theorem walk_of_empty (h : steps.getD i .empty = .empty) :
    walk steps (fuel + 1) i loops = walk steps fuel (nextIndex i) loops := by
  rw [walk, h]

theorem walk_of_loop {target count : Nat} (h : steps.getD i .empty = .loop target count) :
    walk steps (fuel + 1) i loops =
      if 0 < loops.getD i 0 then walk steps fuel target (loops.set i (loops.getD i 0 - 1))
      else walk steps fuel (nextIndex i) (loops.set i count) := by
  rw [walk, h]

theorem walk_of_dwell {d : Nat} (h : stepDwell (steps.getD i .empty) = some d) :
    walk steps (fuel + 1) i loops = (i, loops) ∧ dwellOf steps i = d * 25000000 := by
  refine ⟨?_, by rw [dwellOf, h]; rfl⟩
  rw [walk]
  cases hs : steps.getD i .empty with
  | empty => rw [hs] at h; cases h
  | loop target count => rw [hs] at h; cases h
  | programme e | landmarks e | notice k e => rfl

end Walk

/-! ## What is shown (R118, R120) -/

theorem getD_set_self (l : List Bool) (i : Nat) : (l.set i false).getD i false = false := by
  rw [List.getD_eq_getElem?_getD, List.getElem?_set_self']
  cases l[i]? <;> rfl

/-- Showing an interjection, on a rotation state with the minutes of `r` (R118, R120). -/
theorem shownAfresh_showInterj (s : State) {r p : RotState} (hlast : p.lastShown = r.lastShown) (i : Nat) :
    ShownAfresh s r (showInterj s.pco.interjections (voyageMinute s.clk) i p) i := by
  refine ⟨rfl, getD_set_self p.due i, by rw [← hlast]; rfl, fun j hj => ?_⟩
  simp only [showInterj, hj]
  rfl

theorem interjBoundary_due (t : Tbl InterjRec) (now : Nat) {r : RotState} {i : Nat} (h : lowestDue r = some i) :
    interjBoundary t now r = showInterj t now i r := by
  rw [interjBoundary, h]

theorem interjBoundary_none (t : Tbl InterjRec) (now : Nat) {r : RotState} (h : lowestDue r = none) :
    interjBoundary t now r = leaveInterj r := by
  rw [interjBoundary, h]

theorem leaveInterj_none {r : RotState} (h : r.resume = none) :
    leaveInterj r = { r with position := .default, countdown := none } := by
  rw [leaveInterj, h]

theorem leaveInterj_some {r : RotState} {n c : Nat} (h : r.resume = some (n, c)) :
    leaveInterj r = { r with position := .step n, countdown := some c, resume := none } := by
  rw [leaveInterj, h]

theorem returned_leaveInterj (r : RotState) : Returned r.resume (leaveInterj r) := by
  cases h : r.resume with
  | none => rw [leaveInterj_none h]; exact ⟨h, fun _ => ⟨rfl, rfl⟩, by simp⟩
  | some p =>
    obtain ⟨n, c⟩ := p
    rw [leaveInterj_some h]
    refine ⟨rfl, by simp, fun a b hab => ?_⟩
    cases hab
    exact ⟨rfl, rfl⟩

section Boundary

variable (rotations : Tbl RotationRec) (t : Tbl InterjRec) (now : Nat) {r : RotState} {n m : Nat} {loops : List Nat}

theorem stepBoundary_none (hwalk : walk (rotSteps rotations r.rotation) walkFuel (nextIndex n) r.loops = (m, loops))
    (h : lowestDue r = none) :
    stepBoundary rotations t now n r =
      { r with position := .step m, countdown := some (dwellOf (rotSteps rotations r.rotation) m), loops } := by
  simp only [stepBoundary, hwalk, h]

theorem stepBoundary_due (hwalk : walk (rotSteps rotations r.rotation) walkFuel (nextIndex n) r.loops = (m, loops)) {i : Nat}
    (h : lowestDue r = some i) :
    stepBoundary rotations t now n r =
      showInterj t now i { r with loops, resume := some (m, dwellOf (rotSteps rotations r.rotation) m) } := by
  simp only [stepBoundary, hwalk, h]

theorem defaultShow_due {i : Nat} (hpos : r.position = .default) (h : lowestDue r = some i) :
    defaultShow t now r = showInterj t now i r := by
  simp only [defaultShow, hpos, h]

theorem defaultShow_none (h : lowestDue r = none) : defaultShow t now r = r := by
  unfold defaultShow
  split
  · simp only [h]
  · rfl

theorem defaultShow_elsewhere (hpos : r.position ≠ .default) : defaultShow t now r = r := by
  unfold defaultShow
  split
  next h => exact absurd h hpos
  next => rfl

end Boundary

/-! ## The two countdowns (R112, R118) -/

section Countdowns

variable {x n i : Nat} {r : RotState} {s : State}

theorem exec_stepExpiry (hphase : s.phase = .operating) (hstandby : s.msc.state = .standby)
    (hr : tblGet s.pco.rots x = some r) (hpos : r.position = .step n) (hzero : r.countdown = some 0) :
    exec (.stepCountdownExpiry x) s
      = .next (flush (moveRot x (stepBoundary s.pco.rotations s.pco.interjections (voyageMinute s.clk) n r) s)) := by
  have hexpired : expiredStep s x = some (r, n) := by
    simp only [expiredStep, hr, hpos, hstandby, hzero, and_self, if_true]
  simp only [exec, execStepCountdownExpiry, hexpired]
  exact answer_takes _ hphase rfl

theorem exec_interjExpiry (hphase : s.phase = .operating) (hstandby : s.msc.state = .standby)
    (hr : tblGet s.pco.rots x = some r) (hpos : r.position = .interj i) (hzero : r.countdown = some 0) :
    exec (.interjectionCountdownExpiry x) s
      = .next (flush (moveRot x (interjBoundary s.pco.interjections (voyageMinute s.clk) r) s)) := by
  have hexpired : expiredInterj s x = some r := by
    simp only [expiredInterj, hr, hpos, hstandby, hzero, and_self, if_true]
  simp only [exec, execInterjectionCountdownExpiry, hexpired]
  exact answer_takes _ hphase rfl

/-- A station's rotation state is put, and the station shows the page of its new position (R95, R110). -/
theorem moveRot_leaves (x : Nat) (q : RotState) (s : State) :
    tblGet (flush (moveRot x q s)).pco.rots x = some q
      ∧ (∀ y, y ≠ x → tblGet (flush (moveRot x q s)).pco.rots y = tblGet s.pco.rots y)
      ∧ (∀ st, tblGet s.sms.stations x = some st →
          desiredPage (flush (moveRot x q s)).pco x = some (candidate (flush (moveRot x q s)) x st).page)
      ∧ { flush (moveRot x q s) with pco := s.pco, xu := s.xu } = s := by
  have hrots : (flush (moveRot x q s)).pco.rots = tblPut s.pco.rots x q := rfl
  have hmarked : PageShown (moveRot x q s) x :=
    pageShown_marked (s := { s with pco := { s.pco with rots := tblPut s.pco.rots x q } }) (List.mem_singleton_self x)
  refine ⟨by rw [hrots, tblGet_put_self], fun y hy => by rw [hrots, tblGet_put_ne _ _ hy], fun st hst => ?_, rfl⟩
  have hcand : candidate (flush (moveRot x q s)) x st = candidate (moveRot x q s) x st :=
    candidate_congr rfl rfl rfl rfl rfl x st
  rw [hcand]
  exact hmarked st hst

end Countdowns

/-- Settles O22: the two countdowns put the state of their step boundary, and the walk is as its equations say. -/
theorem rotationBoundaries : Obligations.RotationBoundaries := by
  unfold Obligations.RotationBoundaries
  refine ⟨fun x n m r steps loops s hphase hstandby hr hpos hzero hsteps hwalk => ?_,
    fun steps fuel i loops => ⟨walk_of_empty fuel loops, fun target count => walk_of_loop fuel loops, fun d hd => ?_⟩,
    fun x i r s hphase hstandby hr hpos hzero => ?_⟩
  · subst hsteps
    obtain ⟨hput, hother, hpage, hframe⟩ :=
      moveRot_leaves x (stepBoundary s.pco.rotations s.pco.interjections (voyageMinute s.clk) n r) s
    refine ⟨_, _, exec_stepExpiry hphase hstandby hr hpos hzero, hput, ?_⟩
    cases hdue : lowestDue r with
    | none =>
      rw [stepBoundary_none _ _ _ hwalk hdue] at hother hpage hframe ⊢
      exact ⟨rfl, rfl, fun _ => ⟨rfl, rfl⟩, by simp, hother, hpage, hframe⟩
    | some i =>
      rw [stepBoundary_due _ _ _ hwalk hdue] at hother hpage hframe ⊢
      refine ⟨rfl, rfl, by simp, fun k hk => ?_, hother, hpage, hframe⟩
      cases hk
      exact ⟨rfl, rfl, rfl, shownAfresh_showInterj s rfl i⟩
  · refine walk_of_dwell fuel loops ?_
    obtain h | h | ⟨k, h⟩ := hd <;> rw [h] <;> rfl
  · obtain ⟨hput, hother, hpage, hframe⟩ :=
      moveRot_leaves x (interjBoundary s.pco.interjections (voyageMinute s.clk) r) s
    refine ⟨_, _, exec_interjExpiry hphase hstandby hr hpos hzero, hput, ?_⟩
    cases hdue : lowestDue r with
    | none =>
      rw [interjBoundary_none _ _ hdue] at hother hpage hframe ⊢
      exact ⟨fun _ h => leaveInterj_none h, fun m d _ h => leaveInterj_some h, by simp, hother, hpage, hframe⟩
    | some k =>
      rw [interjBoundary_due _ _ hdue] at hother hpage hframe ⊢
      refine ⟨by simp, by simp, fun j hj => ?_, hother, hpage, hframe⟩
      cases hj
      exact ⟨rfl, rfl, rfl, shownAfresh_showInterj s rfl k⟩

end Sys2Proof.Machine

/-! PROOFS. The muster timers (R72, R75, R122, R155): the end of CALLED, and the return to STANDBY. -/

namespace Sys2Proof.Machine

open Sys2Proof.Safety

/-! ## The end of CALLED by its timer (R72) -/

theorem calledTimer_ends {s : State} (hphase : s.phase = .operating) (hanswered : AlarmAnswered s)
    (hstate : s.msc.state = .called) (hzero : s.msc.calledTimer = some 0) :
    exec .calledTimerExpiry s = .next (flush (enterMustering s)) := by
  rw [← endCalled_of_answered hanswered]
  exact answer_takes _ hphase (by simp [hstate, hzero])

theorem enterMustering_leaves (s : State) :
    (flush (enterMustering s)).msc = { s.msc with state := .mustering, calledTimer := none }
      ∧ PagesShown (flush (enterMustering s)) ∧ ReportTold 2 s (flush (enterMustering s))
      ∧ SameRegisters s.xu (flush (enterMustering s)).xu
      ∧ { flush (enterMustering s) with msc := s.msc, pco := s.pco, xu := s.xu } = s :=
  ⟨rfl, pagesShown_flush (pagesShown_enterMustering s),
    reportTold_flush (reportAsked_announceMuster _) (adds_enterMustering (Adds.refl s.xu)).baseValid,
    sameRegisters_of_held ((flush_held _).trans (enterMustering_held s)), rfl⟩

/-! ## Attention at the return (R155) -/

theorem standbyAttention_lineRec (l : LcsState) (x : Nat) :
    lineRec (standbyAttention l) x = onDoor doorStandby (lineRec l x) := by
  unfold lineRec tblGetD
  simp only [standbyAttention, tblGet_map]
  cases tblGet l.recs x <;> rfl

theorem anyPendingService_of_rec {l : LcsState} {x : Nat} {d : DoorRec} (hdoor : (lineRec l x).door = some d)
    (hpending : 0 < pendingService d) : anyPendingService l = true := by
  unfold lineRec tblGetD at hdoor
  cases hr : tblGet l.recs x with
  | none => simp [hr, emptyLineRec] at hdoor
  | some r =>
    simp only [hr, Option.getD_some] at hdoor
    exact List.any_eq_true.mpr ⟨(x, r), get_mem hr, by simp [hdoor, hpending]⟩

/-! ## Rotations at the return (R122) -/

theorem resumeRot_default (rotations : Tbl RotationRec) (t : Tbl InterjRec) (now : Nat) {r : RotState}
    (h : r.position = .default) : resumeRot rotations t now r = defaultShow t now r := by
  simp only [resumeRot, h]

theorem resumeRot_step (rotations : Tbl RotationRec) (t : Tbl InterjRec) (now : Nat) {r : RotState} {n : Nat}
    (h : r.position = .step n) :
    resumeRot rotations t now r =
      match lowestDue r with
      | some i => showInterj t now i { r with resume := some (n, r.countdown.getD 0) }
      | none => if r.countdown = some 0 then stepBoundary rotations t now n r else r := by
  simp only [resumeRot, h] <;> rfl

theorem resumeRot_interj (rotations : Tbl RotationRec) (t : Tbl InterjRec) (now : Nat) {r : RotState} {k : Nat}
    (h : r.position = .interj k) :
    resumeRot rotations t now r = if r.countdown = some 0 then interjBoundary t now r else r := by
  simp only [resumeRot, h]

/-- A stopped rotation goes on as R122 says. -/
def RotResumed (s : State) (r q : RotState) : Prop :=
  (∀ i, lowestDue r = some i → r.countdown = some 0 ∨ (∀ k, r.position ≠ .interj k) → ShownAfresh s r q i)
    ∧ (∀ n, r.position = .step n →
        (∀ i, lowestDue r = some i → q.resume = some (n, r.countdown.getD 0) ∧ q.loops = r.loops)
        ∧ (lowestDue r = none → r.countdown ≠ some 0 → q = r)
        ∧ (lowestDue r = none → r.countdown = some 0 → ∀ m steps loops, steps = rotSteps s.pco.rotations r.rotation →
            walk steps walkFuel (if 7 ≤ n then 0 else n + 1) r.loops = (m, loops) →
            q = { r with position := .step m, countdown := some (dwellOf steps m), loops }))
    ∧ (r.position = .default → (lowestDue r = none → q = r) ∧ ∀ i, lowestDue r = some i → q.resume = r.resume)
    ∧ ∀ k, r.position = .interj k →
        (r.countdown ≠ some 0 → q = r)
        ∧ (r.countdown = some 0 → (∀ i, lowestDue r = some i → q.resume = r.resume)
            ∧ (lowestDue r = none → Returned r.resume q))

theorem resumeRot_resumed (s : State) (r : RotState) :
    RotResumed s r (resumeRot s.pco.rotations s.pco.interjections (voyageMinute s.clk) r) := by
  cases hpos : r.position with
  | default =>
    rw [resumeRot_default _ _ _ hpos]
    refine ⟨fun i hi _ => ?_, by simp [hpos], fun _ => ⟨fun h => defaultShow_none _ _ h, fun i hi => ?_⟩, by simp [hpos]⟩
    · rw [defaultShow_due _ _ hpos hi]; exact shownAfresh_showInterj s rfl i
    · rw [defaultShow_due _ _ hpos hi]; rfl
  | step n =>
    rw [resumeRot_step _ _ _ hpos]
    refine ⟨fun i hi _ => ?_, fun k hk => ⟨fun i hi => ?_, fun hnone hcount => ?_, fun hnone hcount m steps loops hsteps hwalk => ?_⟩,
      by simp [hpos], by simp [hpos]⟩
    · simp only [hi]; exact shownAfresh_showInterj s rfl i
    · simp only [hi]; rw [hpos] at hk; cases hk; exact ⟨rfl, rfl⟩
    · simp only [hnone, if_neg hcount]
    · rw [hpos] at hk; cases hk
      subst hsteps
      simp only [hnone, if_pos hcount]
      exact stepBoundary_none _ _ _ hwalk hnone
  | interj k =>
    rw [resumeRot_interj _ _ _ hpos]
    refine ⟨fun i hi hor => ?_, by simp [hpos], by simp [hpos], fun _ _ => ⟨fun hcount => if_neg hcount, fun hcount => ⟨fun i hi => ?_,
      fun hnone => ?_⟩⟩⟩
    · have hcount : r.countdown = some 0 := hor.elim id fun h => absurd hpos (h k)
      rw [if_pos hcount, interjBoundary_due _ _ hi]
      exact shownAfresh_showInterj s rfl i
    · rw [if_pos hcount, interjBoundary_due _ _ hi]; rfl
    · rw [if_pos hcount, interjBoundary_none _ _ hnone]
      exact returned_leaveInterj r

/-! ## The return (R75, R122, R155) -/

/-- The part back in STANDBY with its claims served, its attention raised and its rotations gone on. -/
def standbyBack (s : State) : State :=
  let back := raiseStandbyAttention (claimOp { s with msc := standbyMsc s.msc })
  { back with pco := resumeRots back }

/-- The return, with its pages and its report (R76, R95). -/
def standbyTold (s : State) : State := announceMuster (markMoved s.pco.rots (standbyBack s))

theorem standbyBack_frame (s : State) :
    { standbyBack s with rsv := s.rsv, msc := s.msc, pco := s.pco, lcs := s.lcs, xu := s.xu } = s := rfl

theorem standbyTold_told (s : State) :
    { standbyTold s with pco := (standbyBack s).pco, xu := (standbyBack s).xu } = standbyBack s := rfl

theorem standbyTold_pco (s : State) : { (standbyTold s).pco with pages := s.pco.pages } =
    { (standbyBack s).pco with pages := s.pco.pages } := rfl

theorem standbyTold_blocks (s : State) :
    { standbyTold s with rsv := s.rsv, msc := s.msc, pco := s.pco, lcs := s.lcs, xu := s.xu } = s := by
  have h := congrArg (fun u : State => { u with rsv := s.rsv, msc := s.msc, pco := s.pco, lcs := s.lcs, xu := s.xu })
    (standbyTold_told s)
  exact h.trans (standbyBack_frame s)

theorem standbyTold_sms (s : State) : (standbyTold s).sms = s.sms := (congrArg State.sms (standbyTold_blocks s) :)
theorem standbyTold_pgu (s : State) : (standbyTold s).pgu = s.pgu := (congrArg State.pgu (standbyTold_blocks s) :)

theorem standbyTold_msc (s : State) : (standbyTold s).msc = standbyMsc s.msc := (congrArg State.msc (standbyTold_told s) :)

theorem standbyTold_active (s : State) : (standbyTold s).pco.active = s.pco.active :=
  (congrArg PcoState.active (standbyTold_pco s) :)

theorem standbyTold_interjections (s : State) : (standbyTold s).pco.interjections = s.pco.interjections :=
  (congrArg PcoState.interjections (standbyTold_pco s) :)

theorem standbyTold_notices (s : State) : (standbyTold s).pco.notices = s.pco.notices :=
  (congrArg PcoState.notices (standbyTold_pco s) :)

theorem returnToStandby_eq {s : State} (hanswered : AlarmAnswered s) (hstate : s.msc.state = .standingDown) :
    returnToStandby s = standbyTold s := by
  have hnot : ¬AlarmDemands (standbyTold s) := by
    rintro ⟨hlevel, halarm⟩
    rw [standbyTold_sms] at hlevel
    rw [standbyTold_msc] at halarm
    exact not_alarmDemands hanswered (.inr (.inl hstate)) ⟨hlevel, halarm⟩
  have hunfold : returnToStandby s = musterBlocks (levelTest (standbyTold s)) s := rfl
  rw [hunfold, levelTest_of_not hnot]
  exact musterBlocks_eq (standbyTold_blocks s)

theorem exec_holdExpiry {s : State} (hphase : s.phase = .operating) (hanswered : AlarmAnswered s)
    (hstate : s.msc.state = .standingDown) (hzero : s.msc.holdTimer = some 0) :
    exec .standDownHoldExpiry s = .next (flush (standbyTold s)) := by
  rw [← returnToStandby_eq hanswered hstate]
  exact answer_takes _ hphase (by simp [hstate, hzero])

section Return

variable (s : State)

theorem adds_standbyBack : Adds s.xu (standbyBack s).xu :=
  adds_raiseStandbyAttention (s := claimOp { s with msc := standbyMsc s.msc })
    (adds_claimOp (s := { s with msc := standbyMsc s.msc }) (Adds.refl _))

theorem adds_standbyTold : Adds s.xu (standbyTold s).xu := adds_announceMuster (adds_markMoved (adds_standbyBack s) _)

theorem adds_told_of_back : Adds (standbyBack s).xu (standbyTold s).xu :=
  adds_announceMuster (adds_markMoved (Adds.refl _) _)

theorem desiredClaims_standby (t : State) (hmsc : t.msc.state = .standby) (hsms : t.sms = s.sms) (hpgu : t.pgu = s.pgu)
    (hactive : t.pco.active = s.pco.active) (hinterj : t.pco.interjections = s.pco.interjections)
    (hnotices : t.pco.notices = s.pco.notices) :
    desiredClaims t = desiredClaims { s with msc := standbyMsc s.msc } := by
  simp only [desiredClaims, hmsc, standbyMsc, if_true, hsms, hpgu, interjClaims, hactive, hinterj, hnotices]

theorem standbyTold_claims :
    desiredClaims (flush (standbyTold s)) = desiredClaims { s with msc := standbyMsc s.msc } :=
  desiredClaims_standby s (flush (standbyTold s)) (by rw [flush_msc, standbyTold_msc]; rfl) (standbyTold_sms s)
    (standbyTold_pgu s) (standbyTold_active s) (standbyTold_interjections s) (standbyTold_notices s)

theorem standbyTold_rsv : (flush (standbyTold s)).rsv = claimRsv (desiredClaims (flush (standbyTold s))) s.rsv := by
  rw [standbyTold_claims]
  rfl

theorem standbyTold_claimWait :
    (flush (standbyTold s)).xu.counters.claimWait
      = waitCount (newlyWaiting (desiredClaims (flush (standbyTold s))) s.rsv) s.xu.counters.claimWait := by
  rw [standbyTold_claims]
  have hcounts : otherCounts (flush (standbyTold s)).xu = otherCounts (claimOp { s with msc := standbyMsc s.msc }).xu := by
    rw [otherCounts_flush, standbyTold, otherCounts_announceMuster, markMoved, otherCounts_composeMarked]
    simp only [standbyBack, raiseStandbyAttention]
    split
    · exact otherCounts_causeDue ..
    · rfl
  rw [claimWait_of_counts hcounts]
  exact claimOp_claimWait _

theorem standbyTold_attention (h : ∃ x d, (lineRec s.lcs x).door = some d ∧ 0 < pendingService d) :
    CauseTold 1 s (flush (standbyTold s)) := by
  obtain ⟨x, d, hdoor, hpending⟩ := h
  have hany : anyPendingService (claimOp { s with msc := standbyMsc s.msc }).lcs = true := anyPendingService_of_rec hdoor hpending
  have hheld : CauseHeld 1 (standbyBack s).xu := by
    simp only [standbyBack, raiseStandbyAttention, hany, if_true]
    exact causeHeld_causeDue .attention _
  exact causeTold_flush (hheld.mono (adds_told_of_back s).holds) (adds_standbyTold s).baseValid

theorem standbyTold_recs (x : Nat) :
    lineRec (flush (standbyTold s)).lcs x = onDoor doorStandby (lineRec s.lcs x) := standbyAttention_lineRec s.lcs x

theorem standbyTold_rots (x : Nat) :
    tblGet (flush (standbyTold s)).pco.rots x
      = (tblGet s.pco.rots x).map (resumeRot s.pco.rotations s.pco.interjections (voyageMinute s.clk)) :=
  tblGet_map (fun _ r => resumeRot s.pco.rotations s.pco.interjections (voyageMinute s.clk) r) s.pco.rots x

theorem standbyTold_frame :
    { flush (standbyTold s) with rsv := s.rsv, msc := s.msc, pco := s.pco, lcs := s.lcs, xu := s.xu } = s := by
  have hflush : { flush (standbyTold s) with rsv := s.rsv, msc := s.msc, pco := s.pco, lcs := s.lcs, xu := s.xu }
      = { standbyTold s with rsv := s.rsv, msc := s.msc, pco := s.pco, lcs := s.lcs, xu := s.xu } := rfl
  exact hflush.trans (standbyTold_blocks s)

end Return

/-- Settles O17: the end of CALLED is `enterMustering`, the return is one claim operation with attention and rotations. -/
theorem musterTimersExpire : Obligations.MusterTimersExpire := by
  unfold Obligations.MusterTimersExpire
  refine ⟨fun s hphase hanswered hstate hzero =>
      ⟨_, calledTimer_ends hphase hanswered hstate hzero, enterMustering_leaves s⟩,
    fun s hphase hanswered hheld hstate hzero => ⟨_, exec_holdExpiry hphase hanswered hstate hzero, ?_⟩⟩
  have hfit := slotsFit_of_held hheld
  have hrsv := standbyTold_rsv s
  have hrecs := standbyTold_recs s
  refine ⟨rfl, onlyClaims_of hrsv hfit, claimsPlaced_of hrsv hfit, claimsServed_of hrsv (standbyTold_claimWait s), rfl,
    fun x d hd => ?_, standbyTold_attention s, fun x => ?_, rfl, pagesShown_flush (pagesShown_announceMuster _),
    reportTold_flush (reportAsked_announceMuster _) (adds_standbyTold s).baseValid, fun x r hr => ?_, standbyTold_frame s⟩
  · rw [hrecs, onDoor, hd]
    rfl
  · simp only [confirmedPage, hrecs]
    rfl
  · refine ⟨_, ?_, resumeRot_resumed s r⟩
    rw [standbyTold_rots, hr]
    rfl

end Sys2Proof.Machine

/-! PROOFS. Pages (R90 to R107): which page a station's candidate is, and what a notice does to the records. -/

namespace Sys2Proof.Machine

open Sys2Proof.Safety

/-! ## The step of R96 that applies -/

section Candidates

variable {s : State} {x : Nat} {st : StationRec}

theorem lit_iff : Lit s st ↔ excluded s st = false := by
  simp only [Lit, excluded]
  cases s.msc.reserve <;> cases st.essential <;> simp

theorem candidate_of_not_lit (h : ¬Lit s st) : candidate s x st = normalPage .blank [] [] false := by
  rw [lit_iff, Bool.not_eq_false] at h
  simp only [candidate, h, if_true]

theorem candidate_cabin_standby (h : Lit s st) (hkind : st.kind = .cabin) (hstate : s.msc.state = .standby) :
    candidate s x st = composeDoor s.sms st := by
  simp only [candidate, lit_iff.mp h, hkind, hstate, Bool.false_eq_true, if_false, if_true]

theorem candidate_cabin_muster (h : Lit s st) (hkind : st.kind = .cabin) (hstate : s.msc.state ≠ .standby) :
    candidate s x st = composeDoorMuster s.sms s.rsv.slots s.msc x st := by
  simp only [candidate, lit_iff.mp h, hkind, hstate, Bool.false_eq_true, if_false]

theorem candidate_screen_standby (h : Lit s st) (hkind : st.kind ≠ .cabin) (hstate : s.msc.state = .standby) :
    candidate s x st = composeScreen s x st := by
  unfold candidate
  rw [lit_iff.mp h]
  cases hk : st.kind with
  | cabin => exact absurd hk hkind
  | waypoint | lobby => simp only [hstate, Bool.false_eq_true, if_false, if_true]

theorem candidate_screen_muster (h : Lit s st) (hkind : st.kind ≠ .cabin) (hstate : s.msc.state ≠ .standby) :
    candidate s x st = composeScreenMuster s.sms s.rsv.slots s.msc x st := by
  unfold candidate
  rw [lit_iff.mp h]
  cases hk : st.kind with
  | cabin => exact absurd hk hkind
  | waypoint | lobby => simp only [hstate, Bool.false_eq_true, if_false]

/-! ## What the rotation position shows (R96 steps 5 to 7) -/

theorem shownAt_cases (s : State) (x : Nat) :
    tblGet s.pco.rots x = none ∧ shownAt s x = .default
      ∨ ∃ r, tblGet s.pco.rots x = some r ∧ shownAt s x = r.position
          ∧ ∀ n, stepAt s x n = ((tblGet s.pco.rotations r.rotation).map fun q => q.steps.getD n .empty).getD .empty := by
  unfold shownAt stepAt
  cases tblGet s.pco.rots x with
  | none => exact .inl ⟨rfl, rfl⟩
  | some r =>
    refine .inr ⟨r, rfl, rfl, fun n => ?_⟩
    simp only [rotSteps]
    cases tblGet s.pco.rotations r.rotation <;> rfl

theorem positionShows_default (h : shownAt s x = .default) : positionShows s.pco x = .programme := by
  obtain ⟨hr, -⟩ | ⟨r, hr, hpos, -⟩ := shownAt_cases s x
  · simp only [positionShows, hr]
  · simp only [positionShows, hr, ← hpos, h]

theorem positionShows_interj {k : Nat} {j : InterjRec} (h : shownAt s x = .interj k)
    (hj : tblGet s.pco.interjections k = some j) : positionShows s.pco x = .notice j.notice := by
  obtain ⟨-, hpos⟩ | ⟨r, hr, hpos, -⟩ := shownAt_cases s x
  · rw [h] at hpos; cases hpos
  · simp only [positionShows, hr, ← hpos, h, hj]

theorem positionShows_step {n : Nat} (h : shownAt s x = .step n) :
    positionShows s.pco x = match stepAt s x n with
      | .notice i _ => .notice i
      | .landmarks _ => .landmarks
      | _ => .programme := by
  obtain ⟨-, hpos⟩ | ⟨r, hr, hpos, hstep⟩ := shownAt_cases s x
  · rw [h] at hpos; cases hpos
  · simp only [positionShows, hr, ← hpos, h, hstep] <;> rfl

theorem positionShows_of_names {i : Nat} (h : NamesNotice s x i) : positionShows s.pco x = .notice i := by
  obtain ⟨k, j, hpos, hj, rfl⟩ | ⟨n, d, hpos, hstep⟩ := h
  · exact positionShows_interj hpos hj
  · rw [positionShows_step hpos, hstep]

theorem positionShows_of_landmarks (h : OnLandmarks s x) : positionShows s.pco x = .landmarks := by
  obtain ⟨n, d, hpos, hstep⟩ := h
  rw [positionShows_step hpos, hstep]

theorem composeScreen_of_names {i : Nat} {n : NoticeRec} (h : NamesNotice s x i) (hn : tblGet s.pco.notices i = some n) :
    composeScreen s x st = composeNotice s.sms s.rsv.slots st i n := by
  simp only [composeScreen, positionShows_of_names h, hn]

theorem composeScreen_of_landmarks (h : OnLandmarks s x) (hkind : st.kind = .waypoint) :
    composeScreen s x st = composeLandmarks s.sms s.rsv.slots st := by
  simp only [composeScreen, positionShows_of_landmarks h, hkind]

theorem composeScreen_of_programme (h : OnProgramme s x st) : composeScreen s x st = composeProgramme s x st := by
  obtain h | ⟨n, d, hpos, hstep⟩ | ⟨hkind, h⟩ := h
  · simp only [composeScreen, positionShows_default h]
  · have hshows : positionShows s.pco x = .programme := by rw [positionShows_step hpos, hstep]
    simp only [composeScreen, hshows]
  · simp only [composeScreen, positionShows_of_landmarks h, hkind]

theorem composeProgramme_waypoint (h : st.kind = .waypoint) :
    composeProgramme s x st = composeWay s.sms s.rsv.slots (tblGetD s.pgu.lists x []) st := by
  simp only [composeProgramme, h]

theorem composeProgramme_lobby (h : st.kind = .lobby) :
    composeProgramme s x st = composeLobby s.pgu (tblGetD s.pgu.lists x []) := by
  simp only [composeProgramme, h]

theorem composeNotice_page (m : SmsState) (slots : List Slot) (i : Nat) (n : NoticeRec) :
    bodyKind (composeNotice m slots st i n).page.body = .notice ∧ (composeNotice m slots st i n).page.musterSerial = 0 := by
  unfold composeNotice
  split <;> exact ⟨rfl, rfl⟩

theorem composeProgramme_serial (s : State) (x : Nat) (st : StationRec) :
    (composeProgramme s x st).page.musterSerial = 0 := by
  unfold composeProgramme
  dsimp only
  split <;> rfl

/-- Outside muster every page carries the muster serial 0 (R97). -/
theorem composeScreen_serial (s : State) (x : Nat) (st : StationRec) : (composeScreen s x st).page.musterSerial = 0 := by
  unfold composeScreen
  split
  · split
    · exact (composeNotice_page ..).2
    · exact composeProgramme_serial s x st
  · split
    · rfl
    · exact composeProgramme_serial s x st
  · exact composeProgramme_serial s x st

theorem composeDoorMuster_page (m : SmsState) (slots : List Slot) (c : MscState) (x : Nat) (st : StationRec) :
    bodyKind (composeDoorMuster m slots c x st).page.body = .doorMuster
      ∧ (composeDoorMuster m slots c x st).page.musterSerial = c.serial := by
  unfold composeDoorMuster
  dsimp only
  split
  · split <;> exact ⟨rfl, rfl⟩
  · exact ⟨rfl, rfl⟩

end Candidates

/-! ## One composition (R42, R91) -/

theorem bumpUnlisted (s : State) (x : Nat) :
    (recordFault .unlistedExit (some x) s.clk.second 1 s.xu).counters
      = { s.xu.counters with unlistedExit := min 65535 (s.xu.counters.unlistedExit + 1) } := by
  have hcounters : ∀ (c : Cause) (y : XuState), (causeDue c y).counters = y.counters := fun c y => by
    unfold causeDue; split <;> rfl
  simp only [recordFault, faultAtOnce, Bool.false_eq_true, if_false, hcounters, bumpCounter, satAdd_eq]

theorem composeMarked_one_counters {s : State} {x : Nat} {st : StationRec} (hst : tblGet s.sms.stations x = some st) :
    (composeMarked [x] s).xu.counters =
      if (candidate s x st).unlisted then { s.xu.counters with unlistedExit := min 65535 (s.xu.counters.unlistedExit + 1) }
      else s.xu.counters := by
  simp only [composeMarked, List.foldl_cons, List.foldl_nil, composeOne, hst]
  split
  · exact bumpUnlisted s x
  · rfl

theorem candidate_muster {s : State} {x : Nat} {st : StationRec} (hlit : Lit s st) (hstate : s.msc.state ≠ .standby) :
    (candidate s x st).page.musterSerial = s.msc.serial
      ∧ bodyKind (candidate s x st).page.body = if st.kind = .cabin then .doorMuster else .screenMuster := by
  by_cases hkind : st.kind = .cabin
  · rw [candidate_cabin_muster hlit hkind hstate, if_pos hkind]
    obtain ⟨hbody, hserial⟩ := composeDoorMuster_page s.sms s.rsv.slots s.msc x st
    exact ⟨hserial, hbody⟩
  · rw [candidate_screen_muster hlit hkind hstate, if_neg hkind]
    exact ⟨rfl, rfl⟩

theorem candidate_standby_serial {s : State} {x : Nat} {st : StationRec} (hlit : Lit s st) (hstate : s.msc.state = .standby) :
    (candidate s x st).page.musterSerial = 0 := by
  by_cases hkind : st.kind = .cabin
  · rw [candidate_cabin_standby hlit hkind hstate]
    rfl
  · rw [candidate_screen_standby hlit hkind hstate]
    exact composeScreen_serial s x st

theorem candidate_kind {s : State} {x : Nat} {st : StationRec} (hlit : Lit s st) (hstate : s.msc.state = .standby)
    (hkind : st.kind ≠ .cabin) :
    (∀ i n, NamesNotice s x i → tblGet s.pco.notices i = some n → bodyKind (candidate s x st).page.body = .notice)
      ∧ (st.kind = .waypoint → OnLandmarks s x → bodyKind (candidate s x st).page.body = .wayLandmarks)
      ∧ (OnProgramme s x st →
          bodyKind (candidate s x st).page.body = if st.kind = .waypoint then .wayProgramme else .lobbyProgramme) := by
  rw [candidate_screen_standby hlit hkind hstate]
  refine ⟨fun i n hnames hn => ?_, fun hway hlands => ?_, fun hprog => ?_⟩
  · rw [composeScreen_of_names hnames hn]
    exact (composeNotice_page ..).1
  · rw [composeScreen_of_landmarks hlands hway]
    rfl
  · rw [composeScreen_of_programme hprog]
    cases hk : st.kind with
    | cabin => exact absurd hk hkind
    | waypoint => rw [composeProgramme_waypoint hk]; rfl
    | lobby => rw [composeProgramme_lobby hk]; rfl

/-- Settles O27: the records by `composeMarked_pageRec`, the kinds by the step of R96 that applies. -/
theorem compositionTaken : Obligations.CompositionTaken := by
  unfold Obligations.CompositionTaken
  refine ⟨fun marks s => ⟨_, rfl, rfl, fun x hx => ?_, fun x st c hx hst hc => ?_, fun x st hmarks hst => ?_⟩,
    fun s x st page hpage => ?_⟩
  · obtain hx | hx := hx
    · exact composeMarked_pageRec_unmarked s hx
    · exact composeMarked_pageRec_unconfigured marks hx
  · subst hc
    rw [composeMarked_pageRec_marked hst hx]
    exact ⟨rfl, rfl, rfl, fun h => if_pos h, fun h => if_neg h⟩
  · subst hmarks
    exact composeMarked_one_counters hst
  · subst hpage
    refine ⟨fun hdark => ?_, fun hlit hstate => ?_, fun hlit hstate =>
      ⟨candidate_standby_serial hlit hstate, fun hkind => ?_, fun hkind => candidate_kind hlit hstate hkind⟩⟩
    · rw [candidate_of_not_lit hdark]
      rfl
    · obtain ⟨hserial, hbody⟩ := candidate_muster (x := x) hlit hstate
      refine ⟨hserial, ?_, hbody⟩
      rw [isMusterPage, hserial, hbody]
      split <;> simp
    · rw [candidate_cabin_standby hlit hkind hstate]
      rfl

end Sys2Proof.Machine

/-! PROOFS. The bodies of the pages, with their draw and source sets (R98 to R107). -/

namespace Sys2Proof.Machine

open Sys2Proof.Safety

/-- Case 6 of R40 was met at a candidate exactly where one of its drawn arrows meets it (R42, R93). -/
def UnlistedDrawn (m : SmsState) (slots : List Slot) (st : StationRec) (c : Candidate) : Prop :=
  c.unlisted = true ↔ ∃ p ∈ c.draws, (arrowFor m slots st p).unlisted = true

section Bodies

variable (m : SmsState) (slots : List Slot) (st : StationRec)

theorem unlistedDrawn_nothing (page : Page) (sources : List Source) :
    UnlistedDrawn m slots st { page, draws := [], sources, unlisted := false } := by
  simp [UnlistedDrawn]

theorem unlistedDrawn_one (page : Page) (p : Pair) (sources : List Source) :
    UnlistedDrawn m slots st { page, draws := [p], sources, unlisted := (arrowFor m slots st p).unlisted } := by
  simp [UnlistedDrawn]

theorem unlistedDrawn_composeNotice (i : Nat) (n : NoticeRec) : UnlistedDrawn m slots st (composeNotice m slots st i n) := by
  unfold composeNotice
  split
  · exact unlistedDrawn_nothing ..
  · exact unlistedDrawn_one ..

theorem unlistedDrawn_composeDoorMuster (c : MscState) (x : Nat) :
    UnlistedDrawn m slots st (composeDoorMuster m slots c x st) := by
  unfold composeDoorMuster
  dsimp only
  split
  · split
    · exact unlistedDrawn_nothing ..
    · exact unlistedDrawn_one ..
  · exact unlistedDrawn_nothing ..

/-- The lines of a page that each draw one pair, with what each meets. -/
theorem unlistedDrawn_lines {α : Type} (page : Page) (sources : List Source) {lines : List (α × Pair × Bool)}
    (h : ∀ l ∈ lines, l.2.2 = (arrowFor m slots st l.2.1).unlisted) :
    UnlistedDrawn m slots st
      { page, draws := lines.map fun l => l.2.1, sources, unlisted := lines.any fun l => l.2.2 } := by
  simp only [UnlistedDrawn, List.any_eq_true, List.mem_map, exists_exists_and_eq_and]
  exact exists_congr fun l => and_congr_right fun hl => by rw [h l hl]

theorem landLine_unlisted {i : Nat} {l : LandLine × Pair × Bool} (h : landLine m slots st i = some l) :
    l.2.2 = (arrowFor m slots st l.2.1).unlisted := by
  obtain ⟨r, -, rfl⟩ := Option.map_eq_some_iff.mp h
  rfl

theorem musterLine_unlisted {k : Nat} {l : MusterLine × Pair × Bool} (h : musterLine m slots st k = some l) :
    l.2.2 = (arrowFor m slots st l.2.1).unlisted := by
  obtain ⟨r, -, rfl⟩ := Option.map_eq_some_iff.mp h
  rfl

theorem unlistedDrawn_composeLandmarks : UnlistedDrawn m slots st (composeLandmarks m slots st) := by
  refine unlistedDrawn_lines m slots st _ _ fun l hl => ?_
  obtain ⟨i, -, hi⟩ := List.mem_filterMap.mp hl
  exact landLine_unlisted m slots st hi

theorem unlistedDrawn_composeScreenMuster (c : MscState) (x : Nat) :
    UnlistedDrawn m slots st (composeScreenMuster m slots c x st) := by
  refine unlistedDrawn_lines m slots st _ _ fun l hl => ?_
  obtain ⟨k, -, hk⟩ := List.mem_filterMap.mp hl
  exact musterLine_unlisted m slots st hk

theorem unlistedDrawn_composeWay (list : List ListLine) : UnlistedDrawn m slots st (composeWay m slots list st) := by
  simp only [UnlistedDrawn, composeWay, normalPage, List.any_map, List.any_eq_true, List.mem_filterMap,
    Option.map_eq_some_iff, Function.comp_apply]
  constructor
  · rintro ⟨l, hl, hun⟩
    cases hroute : l.route with
    | none => simp [wayLine, hroute] at hun
    | some v => exact ⟨_, ⟨l, hl, v, hroute, rfl⟩, by simpa [wayLine, hroute] using hun⟩
  · rintro ⟨p, ⟨l, hl, v, hroute, rfl⟩, hun⟩
    exact ⟨l, hl, by simpa [wayLine, hroute] using hun⟩

theorem unlistedDrawn_composeProgramme (s : State) (x : Nat) :
    UnlistedDrawn s.sms s.rsv.slots st (composeProgramme s x st) := by
  unfold composeProgramme
  dsimp only
  split
  · exact unlistedDrawn_composeWay ..
  · exact unlistedDrawn_nothing ..

theorem unlistedDrawn_composeScreen (s : State) (x : Nat) : UnlistedDrawn s.sms s.rsv.slots st (composeScreen s x st) := by
  unfold composeScreen
  split
  · split
    · exact unlistedDrawn_composeNotice ..
    · exact unlistedDrawn_composeProgramme ..
  · split
    · exact unlistedDrawn_composeLandmarks ..
    · exact unlistedDrawn_composeProgramme ..
  · exact unlistedDrawn_composeProgramme ..

theorem unlistedDrawn_candidate (s : State) (x : Nat) : UnlistedDrawn s.sms s.rsv.slots st (candidate s x st) := by
  by_cases hlit : Lit s st
  case neg => rw [candidate_of_not_lit hlit]; exact unlistedDrawn_nothing ..
  case pos =>
    by_cases hkind : st.kind = .cabin <;> by_cases hstate : s.msc.state = .standby
    · rw [candidate_cabin_standby hlit hkind hstate]; exact unlistedDrawn_nothing ..
    · rw [candidate_cabin_muster hlit hkind hstate]; exact unlistedDrawn_composeDoorMuster ..
    · rw [candidate_screen_standby hlit hkind hstate]; exact unlistedDrawn_composeScreen ..
    · rw [candidate_screen_muster hlit hkind hstate]; exact unlistedDrawn_composeScreenMuster ..

/-! ## The lines (R101, R102, R105) -/

theorem deckAt_eq (n : Nat) : (match tblGet m.nodes n with | some r => r.deck | none => 0) = deckAt m n := by
  unfold deckAt
  cases tblGet m.nodes n <;> rfl

/-- The line of a landmark on a WAY_LANDMARKS page (R102). -/
def landLineOf (r : LandmarkRec) : LandLine :=
  { label := r.label, deck := deckAt m r.node
    arrow := (arrowFor m slots st { node := r.node, regime := .normal }).arrow
    minutes := (arrowFor m slots st { node := r.node, regime := .normal }).minutes }

/-- The line of a muster station on a SCREEN_MUSTER page (R105). -/
def musterLineOf (e : Nat × MusterRec) : MusterLine :=
  { index := e.1, label := e.2.label, deck := deckAt m e.2.node
    arrow := (arrowFor m slots st { node := e.2.node, regime := .muster }).arrow
    minutes := (arrowFor m slots st { node := e.2.node, regime := .muster }).minutes }

theorem landLine_eq (i : Nat) :
    landLine m slots st i = (tblGet m.landmarks i).map fun r =>
      (landLineOf m slots st r, { node := r.node, regime := .normal },
        (arrowFor m slots st { node := r.node, regime := .normal }).unlisted) := by
  unfold landLine landLineOf
  refine congrArg (Option.map · _) (funext fun r => ?_)
  simp only [← deckAt_eq] <;> rfl

theorem musterLine_eq (k : Nat) :
    musterLine m slots st k = (tblGet m.musters k).map fun r =>
      (musterLineOf m slots st (k, r), { node := r.node, regime := .muster },
        (arrowFor m slots st { node := r.node, regime := .muster }).unlisted) := by
  unfold musterLine musterLineOf
  refine congrArg (Option.map · _) (funext fun r => ?_)
  simp only [← deckAt_eq] <;> rfl

theorem composeLandmarks_eq (lands : List LandmarkRec) (h : lands = st.landmarks.filterMap (tblGet m.landmarks)) :
    (composeLandmarks m slots st).draws = lands.map (fun r => { node := r.node, regime := .normal })
      ∧ (composeLandmarks m slots st).sources
          = st.landmarks.map Source.landmark ++ lands.map (fun r => Source.node r.node)
      ∧ (composeLandmarks m slots st).page.body = .wayLandmarks (lands.map (landLineOf m slots st)) := by
  subst h
  simp only [composeLandmarks, normalPage, funext (landLine_eq m slots st), List.map_filterMap, Option.map_map,
    Function.comp_def, and_self]

theorem composeScreenMuster_of_screen {c : MscState} {x : Nat} {shown : List Nat} (hmap : mapAt c x = some (.screen shown))
    (lines : List (Nat × MusterRec)) (h : lines = shown.filterMap fun k => (tblGet m.musters k).map fun r => (k, r)) :
    (composeScreenMuster m slots c x st).draws = lines.map (fun e => { node := e.2.node, regime := .muster })
      ∧ (composeScreenMuster m slots c x st).sources
          = shown.map Source.musterStation ++ lines.map (fun e => Source.node e.2.node)
      ∧ (composeScreenMuster m slots c x st).page.body
          = .screenMuster (lines.map (musterLineOf m slots st)) (decide (c.kind = .drill)) := by
  subst h
  simp only [composeScreenMuster, hmap, funext (musterLine_eq m slots st), List.map_filterMap, Option.map_map,
    Function.comp_def, and_self]

theorem composeScreenMuster_of_none {c : MscState} {x : Nat} (hmap : ∀ shown, mapAt c x ≠ some (.screen shown)) :
    (composeScreenMuster m slots c x st).draws = [] ∧ (composeScreenMuster m slots c x st).sources = []
      ∧ (composeScreenMuster m slots c x st).page.body = .screenMuster [] (decide (c.kind = .drill)) := by
  cases h : mapAt c x with
  | none => simp only [composeScreenMuster, h, List.filterMap_nil, List.map_nil, List.append_nil, and_self]
  | some e =>
    cases e with
    | screen l => exact absurd h (hmap l)
    | cabin k redirected => simp only [composeScreenMuster, h, List.filterMap_nil, List.map_nil, List.append_nil, and_self]

theorem composeDoorMuster_of_cabin {c : MscState} {x k : Nat} {r : MusterRec} {redirected : Bool}
    (hmap : mapAt c x = some (.cabin (some k) redirected)) (hr : tblGet m.musters k = some r) :
    (composeDoorMuster m slots c x st).draws = [{ node := r.node, regime := .muster }]
      ∧ (composeDoorMuster m slots c x st).sources = [.musterStation k]
      ∧ (composeDoorMuster m slots c x st).page.body = .doorMuster st.label
          (some (k, r.label, (arrowFor m slots st { node := r.node, regime := .muster }).arrow,
            (arrowFor m slots st { node := r.node, regime := .muster }).minutes))
          (decide (c.kind = .drill)) redirected := by
  simp only [composeDoorMuster, hmap, hr, and_self]

theorem composeDoorMuster_of_crew {c : MscState} {x : Nat} (hmap : ∀ k redirected, mapAt c x ≠ some (.cabin (some k) redirected)) :
    (composeDoorMuster m slots c x st).draws = [] ∧ (composeDoorMuster m slots c x st).sources = []
      ∧ (composeDoorMuster m slots c x st).page.body = .doorMuster st.label none (decide (c.kind = .drill)) false := by
  unfold composeDoorMuster
  dsimp only
  split
  next k redirected h => exact absurd h (hmap k redirected)
  next => exact ⟨rfl, rfl, rfl⟩

theorem composeWay_body (list : List ListLine) :
    (composeWay m slots list st).page.body = .wayProgramme (list.map fun l =>
      { title := l.title, venueLabel := l.venueLabel, deck := l.deck, startTime := l.startTime
        mark := markCode l.mark, countdown := l.countdown, cancelled := l.cancelled, icon := categoryCode l.icon
        route := l.route.map fun v =>
          ((arrowFor m slots st { node := v, regime := .normal }).arrow,
            (arrowFor m slots st { node := v, regime := .normal }).minutes) }) := by
  simp only [composeWay, normalPage, List.map_map, Function.comp_def, wayLine, Option.map_map]

theorem composeNotice_none {i : Nat} {n : NoticeRec} (h : n.dest = none) :
    composeNotice m slots st i n = normalPage (.notice n.lines none) [] [.notice i] false := by
  simp only [composeNotice, h]

theorem composeNotice_some {i d : Nat} {n : NoticeRec} (h : n.dest = some d) :
    composeNotice m slots st i n =
      normalPage (.notice n.lines (some ((arrowFor m slots st { node := d, regime := .normal }).arrow,
          (arrowFor m slots st { node := d, regime := .normal }).minutes)))
        [{ node := d, regime := .normal }] [.notice i] (arrowFor m slots st { node := d, regime := .normal }).unlisted := by
  simp only [composeNotice, h]

theorem composeNotice_sources (i : Nat) (n : NoticeRec) : (composeNotice m slots st i n).sources = [.notice i] := by
  unfold composeNotice
  split <;> rfl

theorem composeDoor_body :
    (composeDoor m st).page.body =
      .doorStandard st.label st.assigned (((tblGet m.musters st.assigned).map MusterRec.label).getD []) := by
  unfold composeDoor
  cases tblGet m.musters st.assigned <;> rfl

end Bodies

/-- Settles O28: the candidate is the composition of the step of R96 that applies, and each composition is as its body says. -/
theorem pageBodies : Obligations.PageBodies := by
  unfold Obligations.PageBodies
  rintro s x st c rfl
  refine ⟨unlistedDrawn_candidate st s x, fun hdark => ?_, fun hlit hstate => ⟨fun hkind => ?_, fun list hlist hprog => ?_,
    fun lands hlands hkind hon => ?_, fun i n hkind hnames hn => ?_⟩, fun hlit hstate => ⟨fun hkind => ?_, fun hkind => ?_⟩⟩
  · rw [candidate_of_not_lit hdark]
    exact ⟨rfl, rfl⟩
  · rw [candidate_cabin_standby hlit hkind hstate]
    exact ⟨rfl, rfl, composeDoor_body s.sms st⟩
  · subst hlist
    refine ⟨fun hkind => ?_, fun hkind => ?_⟩
    · rw [candidate_screen_standby hlit (by simp [hkind]) hstate, composeScreen_of_programme hprog,
        composeProgramme_waypoint hkind]
      exact ⟨rfl, rfl, composeWay_body ..⟩
    · rw [candidate_screen_standby hlit (by simp [hkind]) hstate, composeScreen_of_programme hprog,
        composeProgramme_lobby hkind]
      exact ⟨rfl, rfl, rfl⟩
  · rw [candidate_screen_standby hlit (by simp [hkind]) hstate, composeScreen_of_landmarks hon hkind]
    exact composeLandmarks_eq s.sms s.rsv.slots st lands hlands
  · rw [candidate_screen_standby hlit hkind hstate, composeScreen_of_names hnames hn]
    refine ⟨composeNotice_sources .., fun hdest => ?_, fun d hdest => ?_⟩
    · rw [composeNotice_none _ _ _ hdest]
      exact ⟨rfl, rfl⟩
    · rw [composeNotice_some _ _ _ hdest]
      exact ⟨rfl, rfl⟩
  · rw [candidate_cabin_muster hlit hkind hstate]
    exact ⟨fun k r redirected hmap hr => composeDoorMuster_of_cabin _ _ _ hmap hr, fun hmap => composeDoorMuster_of_crew _ _ _ hmap⟩
  · rw [candidate_screen_muster hlit hkind hstate]
    exact ⟨fun shown lines hmap hlines => composeScreenMuster_of_screen _ _ _ hmap lines hlines,
      fun hmap => composeScreenMuster_of_none _ _ _ hmap⟩

end Sys2Proof.Machine

/-! PROOFS. Structures as bytes (R107, R191, R192, R197): a structure is a row of segments, and each field is read from the
segment that stands at its offset. -/

namespace Sys2Proof.Machine

open Sys2Proof.Safety

/-! ## Segments -/

/-- The bytes `seg` stand at an offset of `bs`. -/
def SegAt (bs : List Byte) (off : Nat) (seg : List Byte) : Prop := ∀ i, i < seg.length → byteAt bs (off + i) = byteAt seg i

theorem byteAt_append_left {a b : List Byte} {i : Nat} (h : i < a.length) : byteAt (a ++ b) i = byteAt a i :=
  List.getD_append _ _ _ _ h

theorem byteAt_append_right {a b : List Byte} (i : Nat) : byteAt (a ++ b) (a.length + i) = byteAt b i := by
  rw [byteAt, List.getD_append_right _ _ _ _ (Nat.le_add_right ..), Nat.add_sub_cancel_left]
  rfl

theorem segAt_self (bs : List Byte) : SegAt bs 0 bs := fun i _ => by rw [Nat.zero_add]

theorem segAt_of_eq {bs seg : List Byte} (h : bs = seg) : SegAt bs 0 seg := h ▸ segAt_self bs

theorem segAt_append {bs a b : List Byte} {off : Nat} :
    SegAt bs off (a ++ b) ↔ SegAt bs off a ∧ SegAt bs (off + a.length) b := by
  constructor
  · refine fun h => ⟨fun i hi => ?_, fun i hi => ?_⟩
    · rw [h i (by rw [List.length_append]; omega), byteAt_append_left hi]
    · rw [Nat.add_assoc, h (a.length + i) (by rw [List.length_append]; omega), byteAt_append_right]
  · rintro ⟨ha, hb⟩ i hi
    by_cases hlt : i < a.length
    · rw [ha i hlt, byteAt_append_left hlt]
    · obtain ⟨j, rfl⟩ := Nat.exists_eq_add_of_le (Nat.le_of_not_lt hlt)
      rw [List.length_append] at hi
      rw [← Nat.add_assoc, hb j (by omega), byteAt_append_right]

/-- In a row of segments of one length each stands at its multiple of that length. -/
theorem segAt_flatMap {α : Type} {bs : List Byte} {f : α → List Byte} {n : Nat} (hf : ∀ a, (f a).length = n) {l : List α}
    {off : Nat} (h : SegAt bs off (l.flatMap f)) {i : Nat} {a : α} (ha : l[i]? = some a) : SegAt bs (off + n * i) (f a) := by
  induction l generalizing off i with
  | nil => cases ha
  | cons b rest ih =>
    rw [List.flatMap_cons, segAt_append, hf] at h
    obtain ⟨hhead, hrest⟩ := h
    cases i with
    | zero => cases ha; exact hhead
    | succ j =>
      have hj := ih hrest ha
      rwa [Nat.add_assoc, ← Nat.mul_one n, Nat.mul_assoc, Nat.one_mul, ← Nat.mul_add, Nat.add_comm 1] at hj

theorem flatMap_length {α : Type} {f : α → List Byte} {n : Nat} (hf : ∀ a, (f a).length = n) (l : List α) :
    (l.flatMap f).length = n * l.length := by
  rw [List.length_flatMap, funext hf, List.map_const', List.sum_replicate, smul_eq_mul, Nat.mul_comm]

/-! ## Fields that were written (R191, R192) -/

@[simp] theorem w8_length (n : Nat) : (w8 n).length = 1 := rfl
@[simp] theorem w16_length (n : Nat) : (w16 n).length = 2 := rfl
@[simp] theorem w32_length (n : Nat) : (w32 n).length = 4 := rfl
@[simp] theorem wZero_length (n : Nat) : (wZero n).length = n := List.length_replicate
@[simp] theorem wInt16_length (i : Int) : (wInt16 i).length = 2 := rfl
@[simp] theorem markByte_length (k : Nat) (b : Bool) : (markByte k b).length = 1 := rfl

@[simp] theorem wText_length (t : Text) (n : Nat) : (wText t n).length = n := by
  simp [wText]

@[simp] theorem arrowBytes_length (a : Option (Arrow × Option Nat)) : (arrowBytes a).length = 2 := by
  obtain _ | ⟨a, _ | n⟩ := a <;> rfl

section Fields

variable {bs : List Byte} {off n : Nat}

theorem u8_of_seg (h : SegAt bs off (w8 n)) : u8 bs off = n % 256 := by
  have h0 := h 0 (by simp)
  rw [Nat.add_zero] at h0
  rw [u8, h0]
  exact BitVec.toNat_ofNat ..

theorem u16_of_seg (h : SegAt bs off (w16 n)) : u16 bs off = n % 65536 := by
  have h0 := h 0 (by simp)
  have h1 := h 1 (by simp)
  rw [Nat.add_zero] at h0
  rw [u16, u8, u8, h0, h1]
  show n % 256 + 256 * (n / 256 % 256) = n % 65536
  omega

theorem u32_of_seg (h : SegAt bs off (w32 n)) : u32 bs off = n % 4294967296 := by
  obtain ⟨hlow, hhigh⟩ := segAt_append.mp h
  have hlow := u16_of_seg hlow
  have hhigh := u16_of_seg hhigh
  rw [w16_length] at hhigh
  rw [u32, hlow, hhigh]
  omega

theorem zeroBytes_of_seg (h : SegAt bs off (wZero n)) : zeroBytes bs off n = true := by
  refine List.all_eq_true.mpr fun i hi => ?_
  have hlt := List.mem_range.mp hi
  rw [h i (by simpa using hlt), beq_iff_eq, byteAt, wZero, List.getD_eq_getElem?_getD, List.getElem?_replicate, if_pos hlt]
  rfl

theorem u8_of_zero (h : SegAt bs off (wZero 1)) : u8 bs off = 0 := u8_of_seg (n := 0) h

theorem textAt_of_seg {t : Text} (h : SegAt bs off (wText t n)) : TextAt bs off n t := by
  intro i hi
  rw [h i (by simpa using hi), byteAt, byteAt, List.getD_eq_getElem?_getD, List.getD_eq_getElem?_getD, wText,
    List.getElem?_take, if_pos hi, List.getElem?_append]
  split
  · rfl
  next hlt =>
    rw [List.getElem?_replicate, List.getElem?_eq_none (Nat.le_of_not_lt hlt)]
    split <;> rfl

theorem arrowCode_lt (a : Arrow) : arrowCode a < 256 := by cases a <;> decide

theorem arrowAt_of_seg {a : Option (Arrow × Option Nat)} (h : SegAt bs off (arrowBytes a)) : ArrowAt bs off a := by
  obtain _ | ⟨a, _ | m⟩ := a
  · obtain ⟨h0, h1⟩ := segAt_append.mp h
    exact ⟨u8_of_seg h0, u8_of_seg h1⟩
  · obtain ⟨h0, h1⟩ := segAt_append.mp h
    exact ⟨(u8_of_seg h0).trans (Nat.mod_eq_of_lt (arrowCode_lt a)), u8_of_seg h1⟩
  · obtain ⟨h0, h1⟩ := segAt_append.mp h
    exact ⟨(u8_of_seg h0).trans (Nat.mod_eq_of_lt (arrowCode_lt a)), u8_of_seg h1⟩

theorem u8_of_markByte {k : Nat} {b : Bool} (h : SegAt bs off (markByte k b)) :
    u8 bs off = (k + if b then 4 else 0) % 256 := by
  rw [u8_of_seg h]
  cases b <;> rfl

end Fields

/-! ## The lines of a page body (R197) -/

@[simp] theorem wayLineBytes_length (l : WayLine) : (wayLineBytes l).length = 56 := by simp [wayLineBytes]
@[simp] theorem landLineBytes_length (l : LandLine) : (landLineBytes l).length = 20 := by simp [landLineBytes]
@[simp] theorem lobbyLineBytes_length (l : LobbyLine) : (lobbyLineBytes l).length = 23 := by simp [lobbyLineBytes]
@[simp] theorem musterLineBytes_length (l : MusterLine) : (musterLineBytes l).length = 20 := by simp [musterLineBytes]

section Lines

variable {bs : List Byte} {o : Nat}

theorem wayLine_of_seg {l : WayLine} (h : SegAt bs o (wayLineBytes l)) :
    TextAt bs o 32 l.title ∧ TextAt bs (o + 32) 16 l.venueLabel ∧ u8 bs (o + 48) = l.deck.getD 0 % 256
      ∧ u16 bs (o + 49) = l.startTime % 65536 ∧ u8 bs (o + 51) = (l.mark + if l.cancelled then 4 else 0) % 256
      ∧ u8 bs (o + 52) = l.countdown.getD 0 % 256 ∧ u8 bs (o + 53) = l.icon % 256 ∧ ArrowAt bs (o + 54) l.route := by
  simp only [wayLineBytes, segAt_append, List.length_append, wText_length, w8_length, w16_length, markByte_length,
    Nat.reduceAdd] at h
  obtain ⟨⟨⟨⟨⟨⟨⟨htitle, hvenue⟩, hdeck⟩, hstart⟩, hmark⟩, hcount⟩, hicon⟩, hroute⟩ := h
  exact ⟨textAt_of_seg htitle, textAt_of_seg hvenue, u8_of_seg hdeck, u16_of_seg hstart, u8_of_markByte hmark,
    u8_of_seg hcount, u8_of_seg hicon, arrowAt_of_seg hroute⟩

theorem landLine_of_seg {l : LandLine} (h : SegAt bs o (landLineBytes l)) :
    TextAt bs o 16 l.label ∧ u8 bs (o + 16) = l.deck % 256 ∧ ArrowAt bs (o + 17) (some (l.arrow, l.minutes))
      ∧ u8 bs (o + 19) = 0 := by
  simp only [landLineBytes, segAt_append, List.length_append, wText_length, w8_length, arrowBytes_length, Nat.reduceAdd] at h
  obtain ⟨⟨⟨hlabel, hdeck⟩, harrow⟩, hzero⟩ := h
  exact ⟨textAt_of_seg hlabel, u8_of_seg hdeck, arrowAt_of_seg harrow, u8_of_zero hzero⟩

theorem lobbyLine_of_seg {l : LobbyLine} (h : SegAt bs o (lobbyLineBytes l)) :
    TextAt bs o 11 l.title ∧ TextAt bs (o + 11) 6 l.venueLabel ∧ u8 bs (o + 17) = l.deck.getD 0 % 256
      ∧ u16 bs (o + 18) = l.startTime % 65536 ∧ u8 bs (o + 20) = (l.mark + if l.cancelled then 4 else 0) % 256
      ∧ u8 bs (o + 21) = l.countdown.getD 0 % 256 ∧ u8 bs (o + 22) = l.icon % 256 := by
  simp only [lobbyLineBytes, segAt_append, List.length_append, wText_length, w8_length, w16_length, markByte_length,
    Nat.reduceAdd] at h
  obtain ⟨⟨⟨⟨⟨⟨htitle, hvenue⟩, hdeck⟩, hstart⟩, hmark⟩, hcount⟩, hicon⟩ := h
  exact ⟨textAt_of_seg htitle, textAt_of_seg hvenue, u8_of_seg hdeck, u16_of_seg hstart, u8_of_markByte hmark,
    u8_of_seg hcount, u8_of_seg hicon⟩

theorem musterLine_of_seg {l : MusterLine} (h : SegAt bs o (musterLineBytes l)) :
    u8 bs o = l.index % 256 ∧ u8 bs (o + 1) = l.deck % 256 ∧ ArrowAt bs (o + 2) (some (l.arrow, l.minutes))
      ∧ TextAt bs (o + 4) 16 l.label := by
  simp only [musterLineBytes, segAt_append, List.length_append, w8_length, arrowBytes_length, Nat.reduceAdd] at h
  obtain ⟨⟨⟨hindex, hdeck⟩, harrow⟩, hlabel⟩ := h
  exact ⟨u8_of_seg hindex, u8_of_seg hdeck, arrowAt_of_seg harrow, textAt_of_seg hlabel⟩

end Lines

/-! ## The page bodies (R197) -/

section Bodies

variable {bs : List Byte}

theorem doorStandard_bytes {label stationLabel : Text} {k : Nat} (hbs : bs = bodyBytes (.doorStandard label k stationLabel)) :
    bs.length = 25 ∧ TextAt bs 0 8 label ∧ u8 bs 8 = k % 256 ∧ TextAt bs 9 16 stationLabel := by
  have hlen : bs.length = 25 := by rw [hbs]; simp [bodyBytes]
  have h := segAt_of_eq hbs
  simp only [bodyBytes, segAt_append, List.length_append, wText_length, w8_length, Nat.zero_add, Nat.reduceAdd] at h
  obtain ⟨⟨hlabel, hk⟩, hstation⟩ := h
  exact ⟨hlen, textAt_of_seg hlabel, u8_of_seg hk, textAt_of_seg hstation⟩

theorem doorMuster_bytes {label stationLabel : Text} {k : Nat} {a : Arrow} {n : Option Nat} {drill redirected : Bool}
    (hbs : bs = bodyBytes (.doorMuster label (some (k, stationLabel, a, n)) drill redirected)) :
    bs.length = 30 ∧ TextAt bs 0 8 label ∧ u8 bs 8 = 0
      ∧ u8 bs 9 = (if drill then 1 else 0) + (if redirected then 2 else 0) ∧ u8 bs 10 = k % 256
      ∧ ArrowAt bs 11 (some (a, n)) ∧ u8 bs 13 = 0 ∧ TextAt bs 14 16 stationLabel := by
  have hlen : bs.length = 30 := by rw [hbs]; simp [bodyBytes]
  have h := segAt_of_eq hbs
  simp only [bodyBytes, segAt_append, List.length_append, wText_length, w8_length, arrowBytes_length, wZero_length,
    Nat.zero_add, Nat.reduceAdd] at h
  obtain ⟨⟨⟨⟨⟨⟨hlabel, hform⟩, hflags⟩, hk⟩, harrow⟩, hzero⟩, hstation⟩ := h
  refine ⟨hlen, textAt_of_seg hlabel, u8_of_seg hform, ?_, u8_of_seg hk, arrowAt_of_seg harrow, u8_of_zero hzero,
    textAt_of_seg hstation⟩
  rw [u8_of_seg hflags]
  cases drill <;> cases redirected <;> rfl

theorem doorCrew_bytes {label : Text} {drill redirected : Bool} (hbs : bs = bodyBytes (.doorMuster label none drill redirected)) :
    bs.length = 30 ∧ TextAt bs 0 8 label ∧ u8 bs 8 = 1 ∧ u8 bs 9 = (if drill then 1 else 0) ∧ u8 bs 10 = 255
      ∧ ArrowAt bs 11 none ∧ zeroBytes bs 13 17 = true := by
  have hlen : bs.length = 30 := by rw [hbs]; simp [bodyBytes]
  have hzeros : wZero 1 ++ wZero 16 = wZero 17 := rfl
  have h := segAt_of_eq hbs
  simp only [bodyBytes, List.append_assoc, hzeros] at h
  simp only [segAt_append, wText_length, w8_length, arrowBytes_length, Nat.zero_add, Nat.reduceAdd] at h
  obtain ⟨hlabel, hform, hflags, hk, harrow, hzero⟩ := h
  refine ⟨hlen, textAt_of_seg hlabel, u8_of_seg hform, ?_, u8_of_seg hk, arrowAt_of_seg harrow, zeroBytes_of_seg hzero⟩
  rw [u8_of_seg hflags]
  cases drill <;> rfl

theorem wayProgramme_bytes {lines : List WayLine} (hbs : bs = bodyBytes (.wayProgramme lines)) :
    bs.length = 2 + 56 * lines.length ∧ u8 bs 0 = lines.length % 256 ∧ u8 bs 1 = 0
      ∧ ∀ i l o, lines[i]? = some l → o = 2 + 56 * i →
          TextAt bs o 32 l.title ∧ TextAt bs (o + 32) 16 l.venueLabel ∧ u8 bs (o + 48) = l.deck.getD 0 % 256
          ∧ u16 bs (o + 49) = l.startTime % 65536 ∧ u8 bs (o + 51) = (l.mark + if l.cancelled then 4 else 0) % 256
          ∧ u8 bs (o + 52) = l.countdown.getD 0 % 256 ∧ u8 bs (o + 53) = l.icon % 256 ∧ ArrowAt bs (o + 54) l.route := by
  have hlen : bs.length = 2 + 56 * lines.length := by
    rw [hbs, bodyBytes, List.length_append, flatMap_length wayLineBytes_length]; rfl
  have h := segAt_of_eq hbs
  simp only [bodyBytes, segAt_append, List.length_append, w8_length, wZero_length, Nat.zero_add, Nat.reduceAdd] at h
  obtain ⟨⟨hcount, hzero⟩, hlines⟩ := h
  refine ⟨hlen, u8_of_seg hcount, u8_of_zero hzero, fun i l o hl ho => ?_⟩
  subst ho
  exact wayLine_of_seg (segAt_flatMap wayLineBytes_length hlines hl)

theorem wayLandmarks_bytes {lines : List LandLine} (hbs : bs = bodyBytes (.wayLandmarks lines)) :
    bs.length = 2 + 20 * lines.length ∧ u8 bs 0 = lines.length % 256 ∧ u8 bs 1 = 0
      ∧ ∀ i l o, lines[i]? = some l → o = 2 + 20 * i →
          TextAt bs o 16 l.label ∧ u8 bs (o + 16) = l.deck % 256 ∧ ArrowAt bs (o + 17) (some (l.arrow, l.minutes))
          ∧ u8 bs (o + 19) = 0 := by
  have hlen : bs.length = 2 + 20 * lines.length := by
    rw [hbs, bodyBytes, List.length_append, flatMap_length landLineBytes_length]; rfl
  have h := segAt_of_eq hbs
  simp only [bodyBytes, segAt_append, List.length_append, w8_length, wZero_length, Nat.zero_add, Nat.reduceAdd] at h
  obtain ⟨⟨hcount, hzero⟩, hlines⟩ := h
  refine ⟨hlen, u8_of_seg hcount, u8_of_zero hzero, fun i l o hl ho => ?_⟩
  subst ho
  exact landLine_of_seg (segAt_flatMap landLineBytes_length hlines hl)

theorem lobbyProgramme_bytes {time day : Nat} {lines : List LobbyLine} (hbs : bs = bodyBytes (.lobbyProgramme time day lines)) :
    bs.length = 6 + 23 * lines.length ∧ u16 bs 0 = time % 65536 ∧ u16 bs 2 = day % 65536
      ∧ u8 bs 4 = lines.length % 256 ∧ u8 bs 5 = 0
      ∧ ∀ i l o, lines[i]? = some l → o = 6 + 23 * i →
          TextAt bs o 11 l.title ∧ TextAt bs (o + 11) 6 l.venueLabel ∧ u8 bs (o + 17) = l.deck.getD 0 % 256
          ∧ u16 bs (o + 18) = l.startTime % 65536 ∧ u8 bs (o + 20) = (l.mark + if l.cancelled then 4 else 0) % 256
          ∧ u8 bs (o + 21) = l.countdown.getD 0 % 256 ∧ u8 bs (o + 22) = l.icon % 256 := by
  have hlen : bs.length = 6 + 23 * lines.length := by
    rw [hbs, bodyBytes, List.length_append, flatMap_length lobbyLineBytes_length]; rfl
  have h := segAt_of_eq hbs
  simp only [bodyBytes, segAt_append, List.length_append, w8_length, w16_length, wZero_length, Nat.zero_add,
    Nat.reduceAdd] at h
  obtain ⟨⟨⟨⟨htime, hday⟩, hcount⟩, hzero⟩, hlines⟩ := h
  refine ⟨hlen, u16_of_seg htime, u16_of_seg hday, u8_of_seg hcount, u8_of_zero hzero, fun i l o hl ho => ?_⟩
  subst ho
  exact lobbyLine_of_seg (segAt_flatMap lobbyLineBytes_length hlines hl)

theorem notice_bytes {lines : List Text} {dest : Option (Arrow × Option Nat)} (hbs : bs = bodyBytes (.notice lines dest))
    (hfour : lines.length = 4) :
    bs.length = 164 ∧ (∀ i l, lines[i]? = some l → TextAt bs (40 * i) 40 l) ∧ ArrowAt bs 160 dest
      ∧ zeroBytes bs 162 2 = true := by
  have htexts : (lines.flatMap fun t => wText t 40).length = 160 := by
    rw [flatMap_length (fun t => wText_length t 40), hfour]
  have hlen : bs.length = 164 := by
    rw [hbs, bodyBytes, List.length_append, List.length_append, htexts, arrowBytes_length, wZero_length]
  have h := segAt_of_eq hbs
  simp only [bodyBytes, segAt_append, List.length_append, htexts, arrowBytes_length, Nat.zero_add, Nat.reduceAdd] at h
  obtain ⟨⟨hlines, harrow⟩, hzero⟩ := h
  refine ⟨hlen, fun i l hl => ?_, arrowAt_of_seg harrow, zeroBytes_of_seg hzero⟩
  have hline := segAt_flatMap (fun t => wText_length t 40) hlines hl
  rw [Nat.zero_add] at hline
  exact textAt_of_seg hline

theorem screenMuster_bytes {lines : List MusterLine} {drill : Bool} (hbs : bs = bodyBytes (.screenMuster lines drill)) :
    bs.length = 4 + 20 * lines.length ∧ u8 bs 0 = (if lines = [] then 1 else 0) ∧ u8 bs 1 = (if drill then 1 else 0)
      ∧ u8 bs 2 = lines.length % 256 ∧ u8 bs 3 = 0
      ∧ ∀ i l o, lines[i]? = some l → o = 4 + 20 * i →
          u8 bs o = l.index % 256 ∧ u8 bs (o + 1) = l.deck % 256 ∧ ArrowAt bs (o + 2) (some (l.arrow, l.minutes))
          ∧ TextAt bs (o + 4) 16 l.label := by
  have hlen : bs.length = 4 + 20 * lines.length := by
    rw [hbs, bodyBytes, List.length_append, flatMap_length musterLineBytes_length]; rfl
  have h := segAt_of_eq hbs
  simp only [bodyBytes, segAt_append, List.length_append, w8_length, wZero_length, Nat.zero_add, Nat.reduceAdd] at h
  obtain ⟨⟨⟨⟨hform, hdrill⟩, hcount⟩, hzero⟩, hlines⟩ := h
  refine ⟨hlen, ?_, ?_, u8_of_seg hcount, u8_of_zero hzero, fun i l o hl ho => ?_⟩
  · rw [u8_of_seg hform]; split <;> rfl
  · rw [u8_of_seg hdrill]; cases drill <;> rfl
  · subst ho
    exact musterLine_of_seg (segAt_flatMap musterLineBytes_length hlines hl)

end Bodies

/-- Settles O37: each body is a row of segments. -/
theorem pageBodyBytes : Obligations.PageBodyBytes := by
  unfold Obligations.PageBodyBytes
  exact ⟨rfl, fun _ _ _ _ h => doorStandard_bytes h, fun _ _ _ _ _ _ _ _ h => doorMuster_bytes h,
    fun _ _ _ _ h => doorCrew_bytes h, fun _ _ h => wayProgramme_bytes h, fun _ _ h => wayLandmarks_bytes h,
    fun _ _ _ _ h => lobbyProgramme_bytes h, fun _ _ _ h => notice_bytes h, fun _ _ _ h => screenMuster_bytes h,
    by decide, by decide, by decide⟩

end Sys2Proof.Machine

/-! PROOFS. What stands on a line (R124 to R127, R196): frames and their CRC, the levels of DIR and TXD, and the judgement of
an answer. -/

namespace Sys2Proof.Machine

open Sys2Proof.Safety

/-! ## Frames and their CRC (R125) -/

theorem crc16_append (bs : List Byte) (b : Byte) : crc16 (bs ++ [b]) = crcByte (crc16 bs) b := by
  simp [crc16]

theorem crcBit_eq (c : Word16) : crcBit c = (c <<< 1) ^^^ (if c.getLsbD 15 then 0x1021#16 else 0) := by
  have hmsb : c.msb = c.getLsbD 15 := BitVec.msb_eq_getLsbD_last c
  rw [crcBit, hmsb]
  split
  · rfl
  · exact (BitVec.xor_zero (x := c <<< 1)).symm

/-- The bytes of a frame that its CRC covers (R125). -/
def coveredBytes (address kind : Nat) (payload : List Byte) : List Byte :=
  w8 address ++ w8 kind ++ w8 payload.length ++ payload

theorem frameBytes_eq (address kind : Nat) (payload : List Byte) :
    frameBytes address kind payload
      = w8 0xD3 ++ coveredBytes address kind payload ++ w16 (crc16 (coveredBytes address kind payload)).toNat := rfl

theorem coveredBytes_length (address kind : Nat) (payload : List Byte) :
    (coveredBytes address kind payload).length = 3 + payload.length := by
  simp only [coveredBytes, List.length_append, w8_length]

theorem frameBytes_covered (address kind : Nat) (payload : List Byte) :
    ((frameBytes address kind payload).drop 1).take (3 + payload.length) = coveredBytes address kind payload := by
  have hdrop : (frameBytes address kind payload).drop 1
      = coveredBytes address kind payload ++ w16 (crc16 (coveredBytes address kind payload)).toNat := rfl
  rw [hdrop]
  exact List.take_left' (coveredBytes_length ..)

theorem frameBytes_layout {address kind : Nat} {payload bs : List Byte} (hbs : bs = frameBytes address kind payload)
    (haddress : address < 256) (hkind : kind < 256) (hlen : payload.length < 256) :
    bs.length = payload.length + 6 ∧ u8 bs 0 = 0xD3 ∧ u8 bs 1 = address ∧ u8 bs 2 = kind ∧ u8 bs 3 = payload.length
      ∧ (∀ k, k < payload.length → byteAt bs (4 + k) = byteAt payload k)
      ∧ u16 bs (4 + payload.length) = (crc16 ((bs.drop 1).take (3 + payload.length))).toNat := by
  have hcovered : (bs.drop 1).take (3 + payload.length) = coveredBytes address kind payload :=
    hbs ▸ frameBytes_covered address kind payload
  have hlength : bs.length = payload.length + 6 := by
    rw [hbs, frameBytes_eq]
    simp only [List.length_append, coveredBytes_length, w8_length, w16_length]
    omega
  have h := segAt_of_eq (hbs.trans (frameBytes_eq ..))
  rw [segAt_append] at h
  obtain ⟨hfront, hcrc⟩ := h
  simp only [coveredBytes, segAt_append, List.length_append, w8_length, Nat.zero_add, Nat.reduceAdd] at hfront
  obtain ⟨hstart, ⟨⟨haddr, hk⟩, hl⟩, hpayload⟩ := hfront
  simp only [List.length_append, coveredBytes_length, w8_length, Nat.zero_add, ← Nat.add_assoc, Nat.reduceAdd] at hcrc
  refine ⟨hlength, u8_of_seg hstart, ?_, ?_, ?_, hpayload, ?_⟩
  · rw [u8_of_seg haddr, Nat.mod_eq_of_lt haddress]
  · rw [u8_of_seg hk, Nat.mod_eq_of_lt hkind]
  · rw [u8_of_seg hl, Nat.mod_eq_of_lt hlen]
  · rw [u16_of_seg hcrc, hcovered, Nat.mod_eq_of_lt (BitVec.isLt _)]

/-! ## The frames of a transaction (R127, R196) -/

theorem pageKindCode_lt (k : PageKind) : pageKindCode k < 256 := by cases k <;> decide

theorem headPayload_layout {p : SentPage} {bs : List Byte}
    (hbs : bs = w16 p.serial.toNat ++ w8 (pageKindCode (bodyKind p.page.body)) ++ w8 (blockCount p.page.body)
      ++ w8 (flagNat p.full) ++ w16 p.page.musterSerial.toNat) :
    bs.length = 7 ∧ u16 bs 0 = p.serial.toNat ∧ u8 bs 2 = pageKindCode (bodyKind p.page.body)
      ∧ u8 bs 3 = blockCount p.page.body % 256 ∧ u8 bs 4 = (if p.full then 1 else 0)
      ∧ u16 bs 5 = p.page.musterSerial.toNat := by
  have h := segAt_of_eq hbs
  simp only [segAt_append, List.length_append, w8_length, w16_length, Nat.zero_add, Nat.reduceAdd] at h
  obtain ⟨⟨⟨⟨hserial, hkind⟩, hcount⟩, hfull⟩, hmuster⟩ := h
  refine ⟨hbs ▸ rfl, ?_, ?_, u8_of_seg hcount, ?_, ?_⟩
  · rw [u16_of_seg hserial, Nat.mod_eq_of_lt p.serial.isLt]
  · rw [u8_of_seg hkind, Nat.mod_eq_of_lt (pageKindCode_lt _)]
  · rw [u8_of_seg hfull]; cases p.full <;> rfl
  · rw [u16_of_seg hmuster, Nat.mod_eq_of_lt p.page.musterSerial.isLt]

theorem headFrame_payload (x : Nat) (p : SentPage) :
    ∃ payload, headFrame x p = frameBytes (addressOf x) 0x02 payload ∧ payload.length = 7
      ∧ u16 payload 0 = p.serial.toNat ∧ u8 payload 2 = pageKindCode (bodyKind p.page.body)
      ∧ u8 payload 3 = blockCount p.page.body % 256 ∧ u8 payload 4 = (if p.full then 1 else 0)
      ∧ u16 payload 5 = p.page.musterSerial.toNat := ⟨_, rfl, headPayload_layout rfl⟩

theorem byteAt_drop (bs : List Byte) (n i : Nat) : byteAt (bs.drop n) i = byteAt bs (n + i) := by
  simp [byteAt, List.getD_eq_getElem?_getD]

theorem blockFrame_payload (x : Nat) (p : SentPage) {k : Nat} (hk : k < 256) :
    ∃ payload, blockFrame x p k = frameBytes (addressOf x) 0x03 payload
      ∧ payload.length = 49 ∧ u8 payload 0 = k
      ∧ ∀ i, i < 48 → byteAt payload (1 + i) = byteAt (bodyBytes p.page.body) (48 * (k - 1) + i) := by
  refine ⟨w8 k ++ blockBytes p.page.body k, rfl, by simp [blockBytes], ?_⟩
  obtain ⟨hindex, hbytes⟩ := segAt_append.mp (segAt_self (w8 k ++ blockBytes p.page.body k))
  rw [w8_length, Nat.zero_add] at hbytes
  refine ⟨(u8_of_seg hindex).trans (Nat.mod_eq_of_lt hk), fun i hi => ?_⟩
  rw [textAt_of_seg hbytes i hi, byteAt_drop]

theorem blockCount_bounds (b : Body) :
    (bodyBytes b).length ≤ 48 * blockCount b ∧ 48 * blockCount b < (bodyBytes b).length + 48 := by
  unfold blockCount
  omega

/-! ## The levels of DIR and TXD (R124, log 49) -/

theorem dirHigh_iff (t : Txn) : dirHigh t = true ↔ 75000 < t.left ∧ t.left ≤ 250 * (txnFrame t).length + 75000 := by
  rw [← framePeriods_eq]
  simp only [dirHigh, Bool.and_eq_true, decide_eq_true_eq]
  exact Iff.rfl

theorem byteLevels_length (b : Byte) : (byteLevels b).length = 10 := by simp [byteLevels]

theorem byteLevels_bits (b : Byte) (d : Bool) :
    (byteLevels b).getD 0 d = false ∧ (∀ j, j < 8 → (byteLevels b).getD (j + 1) d = b.getLsbD j)
      ∧ (byteLevels b).getD 9 d = true := by
  refine ⟨rfl, fun j hj => ?_, rfl⟩
  obtain rfl | rfl | rfl | rfl | rfl | rfl | rfl | rfl : j = 0 ∨ j = 1 ∨ j = 2 ∨ j = 3 ∨ j = 4 ∨ j = 5 ∨ j = 6 ∨ j = 7 := by
    omega
  all_goals rfl

/-- In a row of lists of one length the element at a place is that of the list it falls in. -/
theorem getD_flatMap {α β : Type} {f : α → List β} {n : Nat} (hf : ∀ a, (f a).length = n) (l : List α) (d : β) {q r : Nat}
    (hr : r < n) {a : α} (ha : l[q]? = some a) : (l.flatMap f).getD (n * q + r) d = (f a).getD r d := by
  induction l generalizing q with
  | nil => cases ha
  | cons b rest ih =>
    rw [List.flatMap_cons]
    cases q with
    | zero =>
      cases ha
      rw [Nat.mul_zero, Nat.zero_add]
      exact List.getD_append _ _ _ _ (by rw [hf]; exact hr)
    | succ k =>
      rw [List.getD_append_right _ _ _ _ (by rw [hf, Nat.mul_succ]; omega), hf,
        show n * (k + 1) + r - n = n * k + r by rw [Nat.mul_succ]; omega]
      exact ih ha

/-- While the frame is sent TXD stands at bit `since / 25` of it, ten bits to a byte. -/
theorem txdLevel_of_sending {l : LineCtl} {t : Txn} {since : Nat} (ht : l.txn = some t) (hdir : dirLevel l = true)
    (hsince : since = 250 * (txnFrame t).length + 75000 - t.left) (j : Nat) (hj : j = since % 250 / 25) :
    txdLevel l = (byteLevels (byteAt (txnFrame t) (since / 250))).getD j true := by
  have hhigh : dirHigh t = true := by simpa [dirLevel, ht] using hdir
  obtain ⟨hafter, hbefore⟩ := (dirHigh_iff t).mp hhigh
  have hbyte : since / 250 < (txnFrame t).length := by omega
  have hget : (txnFrame t)[since / 250]? = some (byteAt (txnFrame t) (since / 250)) := by
    rw [byteAt, List.getD_eq_getElem?_getD, List.getElem?_eq_getElem hbyte]
    rfl
  have hplace : (framePeriods t - t.left) / bitPeriods = 10 * (since / 250) + j := by
    rw [framePeriods_eq, ← hsince, show bitPeriods = 25 from rfl]
    omega
  simp only [txdLevel, ht, hhigh, if_true]
  rw [hplace]
  exact getD_flatMap byteLevels_length _ _ (by omega) hget

theorem txdLevel_levels {l : LineCtl} {t : Txn} {since : Nat} (ht : l.txn = some t) (hdir : dirLevel l = true)
    (hsince : since = 250 * (txnFrame t).length + 75000 - t.left) :
    (since % 250 < 25 → txdLevel l = false)
      ∧ (∀ j, j < 8 → 25 * (j + 1) ≤ since % 250 → since % 250 < 25 * (j + 2) →
          txdLevel l = (byteAt (txnFrame t) (since / 250)).getLsbD j)
      ∧ (225 ≤ since % 250 → txdLevel l = true) := by
  obtain ⟨hstart, hdata, hstop⟩ := byteLevels_bits (byteAt (txnFrame t) (since / 250)) true
  refine ⟨fun h => ?_, fun j hj hlow hhigh => ?_, fun h => ?_⟩
  · rw [txdLevel_of_sending ht hdir hsince 0 (by omega), hstart]
  · rw [txdLevel_of_sending ht hdir hsince (j + 1) (by omega), hdata j hj]
  · rw [txdLevel_of_sending ht hdir hsince 9 (by omega), hstop]

theorem txdLevel_idle {l : LineCtl} (h : dirLevel l = false) : txdLevel l = true := by
  unfold txdLevel
  cases ht : l.txn with
  | none => rfl
  | some t =>
    have hlow : dirHigh t = false := by simpa [dirLevel, ht] using h
    simp only [hlow, Bool.false_eq_true, if_false]

/-! ## The judgement of an answer (R126, R127, R129 to R131) -/

/-- The start byte, the address and the CRC of an answer are right (R126). -/
def AnswerSound (bs : List Byte) (address : Nat) : Prop :=
  u8 bs 0 = 0xD3 ∧ u8 bs 1 = address ∧ u16 bs (4 + u8 bs 3) = (crc16 ((bs.drop 1).take (3 + u8 bs 3))).toNat

theorem validAnswer_iff (bs : List Byte) (address kind n : Nat) :
    ValidAnswer bs address kind n ↔ AnswerSound bs address ∧ u8 bs 2 = kind ∧ answerWhole bs n = true := by
  simp only [ValidAnswer, AnswerSound, answerWhole, Bool.and_eq_true, beq_iff_eq]
  constructor
  · rintro ⟨hlen, hstart, haddr, hkind, hn, hcrc⟩
    rw [hn]
    exact ⟨⟨hstart, haddr, hcrc⟩, hkind, rfl, hlen⟩
  · rintro ⟨⟨hstart, haddr, hcrc⟩, hkind, hn, hlen⟩
    rw [hn] at hcrc
    exact ⟨hlen, hstart, haddr, hkind, hn, hcrc⟩

theorem classifyAnswer_eq (poll : Bool) (address : Nat) (bs : List Byte) [Decidable (AnswerSound bs address)] :
    classifyAnswer poll address bs =
      if ¬AnswerSound bs address then .discarded
      else if u8 bs 2 = 0x81 then
        if poll && answerWhole bs 5 then
          .state (byteAt bs 4) (BitVec.ofNat 16 (u16 bs 5)) (byteAt bs 7) (byteAt bs 8)
        else .discarded
      else if u8 bs 2 = 0x82 then if !poll && answerWhole bs 0 then .taken else .discarded
      else if u8 bs 2 = 0x83 then if !poll && answerWhole bs 0 then .heldOff else .discarded
      else .discarded := by
  have hsound : (u8 bs 0 == 0xD3 && u8 bs 1 == address
      && decide (u16 bs (4 + u8 bs 3) = (crc16 ((bs.drop 1).take (3 + u8 bs 3))).toNat)) = decide (AnswerSound bs address) := by
    rw [Bool.eq_iff_iff, decide_eq_true_iff (p := AnswerSound bs address)]
    simp only [Bool.and_eq_true, beq_iff_eq, decide_eq_true_eq, AnswerSound, and_assoc]
  unfold classifyAnswer
  dsimp only
  rw [hsound]
  simp only [Bool.not_eq_true', decide_eq_false_iff_not]

theorem classifyAnswer_iff (poll : Bool) (address : Nat) (bs : List Byte) :
    (∀ flags serial service assist, classifyAnswer poll address bs = .state flags serial service assist ↔
        poll = true ∧ ValidAnswer bs address 0x81 5 ∧ flags = byteAt bs 4 ∧ serial = BitVec.ofNat 16 (u16 bs 5)
          ∧ service = byteAt bs 7 ∧ assist = byteAt bs 8)
      ∧ (classifyAnswer poll address bs = .taken ↔ poll = false ∧ ValidAnswer bs address 0x82 0)
      ∧ (classifyAnswer poll address bs = .heldOff ↔ poll = false ∧ ValidAnswer bs address 0x83 0) := by
  classical
  simp only [validAnswer_iff, classifyAnswer_eq]
  by_cases hsound : AnswerSound bs address
  case neg => simp [hsound]
  case pos =>
    simp only [hsound, not_true, if_false, true_and]
    by_cases h81 : u8 bs 2 = 0x81
    · simp only [h81, if_true, true_and]
      refine ⟨fun flags serial service assist => ?_, ?_, ?_⟩
      · cases poll <;> cases answerWhole bs 5 <;> simp
        exact and_congr eq_comm (and_congr eq_comm (and_congr eq_comm eq_comm))
      · cases poll <;> cases answerWhole bs 5 <;> simp
      · cases poll <;> cases answerWhole bs 5 <;> simp
    · by_cases h82 : u8 bs 2 = 0x82
      · cases poll <;> cases answerWhole bs 0 <;> simp [h82]
      · by_cases h83 : u8 bs 2 = 0x83
        · cases poll <;> cases answerWhole bs 0 <;> simp [h83]
        · simp [h81, h82, h83]

/-! ## The bytes of an answer (R126) -/

/-- An answer that its length byte does not end yet, nor one of its earlier bytes. -/
def AnswerOpen (bs : List Byte) : Prop := bs.length < 4 ∨ bs.length < u8 bs 3 + 6

theorem answerOpen_of_append {got more : List Byte} (h : AnswerOpen (got ++ more)) : AnswerOpen got := by
  by_cases hlen : got.length < 4
  · exact .inl hlen
  · have hlong : got.length ≤ (got ++ more).length := by rw [List.length_append]; omega
    have hbyte : u8 (got ++ more) 3 = u8 got 3 := by rw [u8, u8, byteAt_append_left (by omega)]
    refine .inr ?_
    rw [AnswerOpen, hbyte] at h
    omega

theorem answerEnds_of_open {bs : List Byte} (h : AnswerOpen bs) : answerEnds bs = false := by
  simp only [answerEnds, Bool.and_eq_false_iff, decide_eq_false_iff_not]
  obtain h | h := h <;> omega

/-- Bytes that do not end the answer are taken one after another. -/
theorem takeAnswer_open {body rest : List (Nat × Byte)} {got : List Byte} (hgap : ∀ e ∈ body, e.1 < 750)
    (hopen : AnswerOpen (got ++ body.map Prod.snd)) :
    takeAnswer got (body ++ rest) = takeAnswer (got ++ body.map Prod.snd) rest := by
  induction body generalizing got with
  | nil => simp
  | cons e more ih =>
    obtain ⟨gap, b⟩ := e
    have hassoc : got ++ ((gap, b) :: more).map Prod.snd = (got ++ [b]) ++ more.map Prod.snd := by simp
    rw [hassoc] at hopen ⊢
    have hshort : ¬idlePeriods ≤ gap := by
      have hlt := hgap (gap, b) (List.mem_cons_self ..)
      rw [show idlePeriods = 750 from rfl]
      exact Nat.not_le.mpr hlt
    rw [List.cons_append, takeAnswer, if_neg hshort, answerEnds_of_open (answerOpen_of_append hopen)]
    exact ih (fun e he => hgap e (List.mem_cons_of_mem _ he)) hopen

theorem takeAnswer_whole {body rest : List (Nat × Byte)} {got : List Byte} (hgap : ∀ e ∈ body, e.1 < 750)
    (hgot : got.length < 4) (hlong : 4 ≤ (got ++ body.map Prod.snd).length)
    (hends : (got ++ body.map Prod.snd).length = u8 (got ++ body.map Prod.snd) 3 + 6) :
    takeAnswer got (body ++ rest) = got ++ body.map Prod.snd := by
  obtain rfl | ⟨init, ⟨gap, b⟩, rfl⟩ := body.eq_nil_or_concat
  · simp at hlong; omega
  · simp only [List.concat_eq_append, List.map_append, List.map_cons, List.map_nil, ← List.append_assoc] at hlong hends ⊢
    have hopen : AnswerOpen (got ++ init.map Prod.snd) := by
      by_cases hlen : (got ++ init.map Prod.snd).length < 4
      · exact .inl hlen
      · have hbyte : u8 (got ++ init.map Prod.snd ++ [b]) 3 = u8 (got ++ init.map Prod.snd) 3 := by
          rw [u8, u8, byteAt_append_left (by omega)]
        refine .inr ?_
        rw [hbyte, List.length_append, List.length_singleton] at hends
        omega
    have hinit : ∀ e ∈ init, e.1 < 750 := fun e he => hgap e (by simp [he])
    have hshort : ¬idlePeriods ≤ gap := by
      have hlt := hgap (gap, b) (by simp)
      rw [show idlePeriods = 750 from rfl]
      exact Nat.not_le.mpr hlt
    have hend : answerEnds (got ++ init.map Prod.snd ++ [b]) = true := by
      simp only [answerEnds, Bool.and_eq_true, decide_eq_true_eq]
      exact ⟨hlong, hends⟩
    rw [List.append_assoc, takeAnswer_open hinit hopen, List.singleton_append, takeAnswer, if_neg hshort, hend]
    rfl

theorem answerIn_none {received : List (Nat × Byte)} (h : ∀ e ∈ received, e.2 ≠ 0xD3#8) : answerIn received = none := by
  have hdrop : received.dropWhile (fun e => e.2 != 0xD3#8) = [] :=
    List.dropWhile_eq_nil_iff.mpr fun e he => by simpa using h e he
  simp only [answerIn, hdrop]

theorem answerIn_start {before rest : List (Nat × Byte)} {gap : Nat} (h : ∀ e ∈ before, e.2 ≠ 0xD3#8) :
    answerIn (before ++ (gap, 0xD3#8) :: rest) = some (takeAnswer [0xD3#8] rest) := by
  have hdrop : (before ++ (gap, 0xD3#8) :: rest).dropWhile (fun e => e.2 != 0xD3#8) = (gap, 0xD3#8) :: rest := by
    rw [List.dropWhile_append_of_pos (fun e he => by simpa using h e he)]
    rfl
  simp only [answerIn, hdrop]

theorem answerIn_bytes {before body rest : List (Nat × Byte)} {gap : Nat} {bs : List Byte} (hbefore : ∀ e ∈ before, e.2 ≠ 0xD3#8)
    (hbody : ∀ e ∈ body, e.1 < 750) (hbs : bs = 0xD3#8 :: body.map Prod.snd) :
    (4 ≤ bs.length → bs.length = u8 bs 3 + 6 → answerIn (before ++ (gap, 0xD3#8) :: (body ++ rest)) = some bs)
      ∧ (bs.length < 4 ∨ bs.length < u8 bs 3 + 6 →
          answerIn (before ++ (gap, 0xD3#8) :: body) = some bs
          ∧ ∀ pause b, 750 ≤ pause → answerIn (before ++ (gap, 0xD3#8) :: (body ++ (pause, b) :: rest)) = some bs) := by
  subst hbs
  refine ⟨fun hlong hends => ?_, fun hopen => ⟨?_, fun pause b hpause => ?_⟩⟩
  · rw [answerIn_start hbefore]
    exact congrArg some (takeAnswer_whole (got := [0xD3#8]) hbody (by decide) hlong hends)
  · rw [answerIn_start hbefore]
    have htaken := takeAnswer_open (rest := []) (got := [0xD3#8]) hbody hopen
    rw [List.append_nil] at htaken
    rw [htaken]
    rfl
  · rw [answerIn_start hbefore, takeAnswer_open (got := [0xD3#8]) hbody hopen, takeAnswer,
      if_pos (show idlePeriods ≤ pause from hpause)]
    rfl

theorem receivedCommand_bytes (line : Nat) (t : Txn) (received : List (Nat × Byte)) :
    (answerIn received = none → receivedCommand line t received = .replyWindowTimeout line)
      ∧ ∀ bs, answerIn received = some bs →
          (∀ f a b c, classifyAnswer t.transfer.isNone (addressOf t.station) bs = .state f a b c →
            receivedCommand line t received = .stateAnswer line f a b c)
          ∧ (classifyAnswer t.transfer.isNone (addressOf t.station) bs = .taken →
              (∀ p, t.transfer = some (p, 0) → receivedCommand line t received = .takenToPageHead line)
              ∧ ∀ p k, t.transfer = some (p, k + 1) → receivedCommand line t received = .takenToPageBlock line)
          ∧ (classifyAnswer t.transfer.isNone (addressOf t.station) bs = .heldOff →
              receivedCommand line t received = .heldOff line)
          ∧ (classifyAnswer t.transfer.isNone (addressOf t.station) bs = .discarded →
              receivedCommand line t received = .answerDiscarded line) := by
  refine ⟨fun h => by simp only [receivedCommand, h], fun bs h => ?_⟩
  have hcommand : receivedCommand line t received = answerCommand line t bs := by simp only [receivedCommand, h]
  rw [hcommand]
  refine ⟨fun f a b c hc => ?_, fun hc => ⟨fun p hp => ?_, fun p k hp => ?_⟩, fun hc => ?_, fun hc => ?_⟩
  · simp only [answerCommand, hc]
  · simp only [answerCommand, hc]; rw [hp] <;> rfl
  · simp only [answerCommand, hc]; rw [hp] <;> rfl
  · simp only [answerCommand, hc]
  · simp only [answerCommand, hc]

/-- Settles O36. -/
theorem framesOnTheLine : Obligations.FramesOnTheLine := by
  unfold Obligations.FramesOnTheLine
  refine ⟨fun address kind payload bs => frameBytes_layout, ⟨rfl, crc16_append, fun c b => rfl, crcBit_eq, by decide +kernel⟩,
    fun x p => ⟨rfl, headFrame_payload x p, fun k _ hk => blockFrame_payload x p hk, blockCount_bounds p.page.body⟩,
    fun t => ⟨fun h => ?_, fun p h => ?_, fun p k h => ?_, framePeriods_eq t, ?_⟩,
    fun l => ⟨fun h => ?_, fun t ht => ?_, txdLevel_idle, fun t since ht hdir hsince => txdLevel_levels ht hdir hsince⟩,
    classifyAnswer_iff, fun received => answerIn_none, fun before body rest gap bs => answerIn_bytes,
    receivedCommand_bytes⟩
  · simp only [txnFrame, h]
  · simp only [txnFrame, h]
  · simp only [txnFrame, h]
  · rw [startNextFrame, framePeriods_eq, show idlePeriods = 750 from rfl, Nat.add_assoc]
  · simp only [dirLevel, h, Option.any_none]
  · rw [← dirHigh_iff]
    simp only [dirLevel, ht, Option.any_some]

end Sys2Proof.Machine

/-! PROOFS. Turns (R139 to R141, R149): which station a turn goes to, and what it carries. -/

namespace Sys2Proof.Machine

open Sys2Proof.Safety

/-! ## The first of a list in ascending order -/

section Ascending

variable {α : Type} {f : α → Nat} {l : List α}

/-- A list that rises strictly by a measure. -/
def Ascending (f : α → Nat) (l : List α) : Prop := l.Pairwise fun x y => f x < f y

theorem ascending_eq (h : Ascending f l) {x y : α} (hx : x ∈ l) (hy : y ∈ l) (hxy : f x = f y) : x = y := by
  induction l with
  | nil => cases hx
  | cons z rest ih =>
    obtain ⟨hz, hrest⟩ := List.pairwise_cons.mp h
    obtain rfl | hx' := List.mem_cons.mp hx
    · obtain rfl | hy' := List.mem_cons.mp hy
      · rfl
      · exact absurd hxy (Nat.ne_of_lt (hz y hy'))
    · obtain rfl | hy' := List.mem_cons.mp hy
      · exact absurd hxy (Nat.ne_of_gt (hz x hx'))
      · exact ih hrest hx' hy'

theorem find?_least (h : Ascending f l) {p : α → Bool} {x : α} (hx : l.find? p = some x) :
    x ∈ l ∧ p x = true ∧ ∀ y ∈ l, p y = true → f x ≤ f y := by
  induction l with
  | nil => cases hx
  | cons z rest ih =>
    obtain ⟨hz, hrest⟩ := List.pairwise_cons.mp h
    rw [List.find?_cons] at hx
    cases hp : p z with
    | true =>
      rw [hp] at hx
      cases hx
      refine ⟨List.mem_cons_self .., hp, fun y hy _ => ?_⟩
      obtain rfl | hy := List.mem_cons.mp hy
      · exact Nat.le_refl _
      · exact Nat.le_of_lt (hz y hy)
    | false =>
      rw [hp] at hx
      obtain ⟨hmem, hpx, hleast⟩ := ih hrest hx
      refine ⟨List.mem_cons_of_mem _ hmem, hpx, fun y hy hpy => ?_⟩
      obtain rfl | hy := List.mem_cons.mp hy
      · rw [hp] at hpy; cases hpy
      · exact hleast y hy hpy

theorem find?_eq_some_iff_least (h : Ascending f l) {p : α → Bool} {x : α} :
    l.find? p = some x ↔ x ∈ l ∧ p x = true ∧ ∀ y ∈ l, p y = true → f x ≤ f y := by
  refine ⟨find?_least h, fun ⟨hx, hpx, hleast⟩ => ?_⟩
  cases hfind : l.find? p with
  | none => exact absurd hpx (by simpa using List.find?_eq_none.mp hfind x hx)
  | some z =>
    obtain ⟨hz, hpz, hzleast⟩ := find?_least h hfind
    rw [ascending_eq h hz hx (Nat.le_antisymm (hzleast x hx hpx) (hleast z hz hpz))]

theorem Ascending.filter (h : Ascending f l) (p : α → Bool) : Ascending f (l.filter p) := List.Pairwise.filter p h

theorem head?_least (h : Ascending f l) {x : α} (hx : l.head? = some x) : x ∈ l ∧ ∀ y ∈ l, f x ≤ f y := by
  obtain ⟨rest, rfl⟩ := List.head?_eq_some_iff.mp hx
  obtain ⟨hz, -⟩ := List.pairwise_cons.mp h
  refine ⟨List.mem_cons_self .., fun y hy => ?_⟩
  obtain rfl | hy := List.mem_cons.mp hy
  · exact Nat.le_refl _
  · exact Nat.le_of_lt (hz y hy)

end Ascending

/-! ## The stations of a line (R9) -/

theorem mem_lineStations (s : State) (n x : Nat) :
    x ∈ lineStations s n ↔ tblHas s.sms.stations x = true ∧ x / 62 = n := by
  simp only [lineStations, allStations, List.mem_filter, mem_keys, decide_eq_true_eq]
  exact Iff.rfl

theorem addressOf_eq (x : Nat) : addressOf x = x % 62 + 1 := rfl

/-- A line's stations stand in address order. -/
theorem lineStations_ascending {s : State} (h : tblSorted s.sms.stations = true) (n : Nat) :
    Ascending addressOf (lineStations s n) := by
  have hkeys : (allStations s).Pairwise (· < ·) := by
    rw [tblSorted, decide_eq_true_eq] at h
    exact h
  refine (List.Pairwise.filter _ hkeys).imp_of_mem fun {x y} hx hy hlt => ?_
  obtain ⟨-, hx⟩ := (mem_lineStations s n x).mp hx
  obtain ⟨-, hy⟩ := (mem_lineStations s n y).mp hy
  rw [addressOf_eq, addressOf_eq]
  omega

theorem musterWaiting_iff (s : State) (x : Nat) :
    musterWaiting s x = true ↔
      tblHas s.sms.stations x = true ∧ lineStatus s x ≠ .lost ∧ (lineRec s.lcs x).shed = false
        ∧ (∃ p, desiredPage s.pco x = some p ∧ (bodyKind p.body = .doorMuster ∨ bodyKind p.body = .screenMuster)
            ∧ p.musterSerial = s.msc.serial)
        ∧ desiredSerial s.pco x ≠ (lineRec s.lcs x).confSerial := by
  have hdesires : desiresMuster s x = true ↔ ∃ p, desiredPage s.pco x = some p
      ∧ (bodyKind p.body = .doorMuster ∨ bodyKind p.body = .screenMuster) ∧ p.musterSerial = s.msc.serial := by
    unfold desiresMuster
    cases desiredPage s.pco x with
    | none => simp
    | some p => simp [isMusterPage]
  simp only [musterWaiting, Bool.and_eq_true, decide_eq_true_eq, Bool.not_eq_true', hdesires, and_assoc]

/-! ## The next station of a cycle (R140) -/

theorem includedIn_iff (s : State) (count x : Nat) :
    includedIn s count x = true ↔ (lineRec s.lcs x).shed = false ∧ (lineStatus s x = .lost → count = 0) := by
  simp only [includedIn, Bool.and_eq_true, Bool.not_eq_true', Bool.or_eq_true, decide_eq_true_eq]
  refine and_congr_right fun _ => ?_
  by_cases h : lineStatus s x = .lost <;> simp [h]

theorem cycleNext_some {s : State} (h : tblSorted s.sms.stations = true) (n count position x : Nat) :
    cycleNext s n count position = some x ↔
      (x ∈ lineStations s n ∧ (lineRec s.lcs x).shed = false ∧ (lineStatus s x = .lost → count = 0)
          ∧ position < addressOf x)
        ∧ ∀ y ∈ lineStations s n, (lineRec s.lcs y).shed = false → (lineStatus s y = .lost → count = 0) →
            position < addressOf y → addressOf x ≤ addressOf y := by
  rw [cycleNext, find?_eq_some_iff_least (lineStations_ascending h n)]
  simp only [Bool.and_eq_true, includedIn_iff, decide_eq_true_eq, and_imp, and_assoc]

theorem cycleNext_none (s : State) (n count position : Nat) :
    cycleNext s n count position = none ↔
      ∀ y ∈ lineStations s n, (lineRec s.lcs y).shed = false → (lineStatus s y = .lost → count = 0) →
        addressOf y ≤ position := by
  rw [cycleNext, List.find?_eq_none]
  simp only [Bool.and_eq_true, includedIn_iff, decide_eq_true_eq, not_and, Nat.not_lt, and_imp]

/-! ## The choice of a turn (R139) -/

theorem lineAt_setLine_self {n : Nat} {l : LcsState} (h : n < l.lines.length) (c : LineCtl) : lineAt (setLine n c l) n = c := by
  simp [lineAt, setLine, h]

theorem lineAt_setLine_ne {n k : Nat} (h : k ≠ n) (c : LineCtl) (l : LcsState) : lineAt (setLine n c l) k = lineAt l k := by
  simp [lineAt, setLine, Ne.symm h]

theorem nextAbove_spec {position : Nat} {l : List Nat} (h : Ascending addressOf l) {x : Nat}
    (hx : nextAbove position l = some x) :
    x ∈ l ∧ (∀ y ∈ l, position < addressOf y → position < addressOf x ∧ addressOf x ≤ addressOf y)
      ∧ ((∀ y ∈ l, addressOf y ≤ position) → ∀ y ∈ l, addressOf x ≤ addressOf y) := by
  unfold nextAbove at hx
  split at hx
  next z hfind =>
    cases hx
    obtain ⟨hmem, habove, hleast⟩ := find?_least h hfind
    rw [decide_eq_true_eq] at habove
    refine ⟨hmem, fun y hy hpy => ⟨habove, hleast y hy (by simpa using hpy)⟩, fun hall => ?_⟩
    exact absurd habove (Nat.not_lt.mpr (hall _ hmem))
  next hfind =>
    obtain ⟨hmem, hleast⟩ := head?_least h hx
    refine ⟨hmem, fun y hy hpy => ?_, fun _ => hleast⟩
    have hnone := List.find?_eq_none.mp hfind y hy
    simp [hpy] at hnone

theorem nextAbove_none {position : Nat} {l : List Nat} : nextAbove position l = none ↔ l = [] := by
  unfold nextAbove
  split
  next z hfind => simp [List.ne_nil_of_mem (List.mem_of_find?_eq_some hfind)]
  next => exact List.head?_eq_none_iff

theorem turnChoice_muster {s : State} {n : Nat} (hsorted : tblSorted s.sms.stations = true) (l : LineCtl)
    (hany : ∃ y ∈ lineStations s n, musterWaiting s y = true) :
    ∃ x ∈ lineStations s n, musterWaiting s x = true
      ∧ turnChoice s n l = { station := some x, line := { l with musterPos := addressOf x } }
      ∧ (∀ y ∈ lineStations s n, musterWaiting s y = true → l.musterPos < addressOf y →
          l.musterPos < addressOf x ∧ addressOf x ≤ addressOf y)
      ∧ ((∀ y ∈ lineStations s n, musterWaiting s y = true → addressOf y ≤ l.musterPos) →
          ∀ y ∈ lineStations s n, musterWaiting s y = true → addressOf x ≤ addressOf y) := by
  cases hnext : nextAbove l.musterPos ((lineStations s n).filter (musterWaiting s)) with
  | none =>
    obtain ⟨y, hy, hw⟩ := hany
    have hempty := nextAbove_none.mp hnext
    exact absurd hw (List.filter_eq_nil_iff.mp hempty y hy)
  | some x =>
    obtain ⟨hmem, habove, hleast⟩ := nextAbove_spec ((lineStations_ascending hsorted n).filter _) hnext
    simp only [List.mem_filter, and_imp] at hmem habove hleast
    obtain ⟨hx, hw⟩ := hmem
    exact ⟨x, hx, hw, by simp only [turnChoice, hnext], habove, hleast⟩

theorem turnChoice_cycle {s : State} {n : Nat} (l : LineCtl) (hnone : ∀ y ∈ lineStations s n, musterWaiting s y = false) :
    turnChoice s n l = cycleChoice s n l := by
  have hempty : (lineStations s n).filter (musterWaiting s) = [] :=
    List.filter_eq_nil_iff.mpr fun y hy => by simp [hnone y hy]
  simp only [turnChoice, hempty]
  rfl

section Cycle

variable {s : State} {n : Nat} {l : LineCtl}

theorem cycleChoice_some {x : Nat} (h : cycleNext s n l.cycleCount l.cyclePos = some x) :
    cycleChoice s n l = { station := some x, line := { l with cyclePos := addressOf x } } := by
  simp only [cycleChoice, h]

theorem cycleChoice_silent (h : cycleNext s n l.cycleCount l.cyclePos = none) (hpos : l.cyclePos = 0) :
    cycleChoice s n l = { station := none, line := { l with silence := some 125000 } } := by
  simp only [cycleChoice, h, if_pos hpos]
  rfl

theorem cycleChoice_fresh {x : Nat} (h : cycleNext s n l.cycleCount l.cyclePos = none) (hpos : l.cyclePos ≠ 0)
    (hx : cycleNext s n ((l.cycleCount + 1) % 8) 0 = some x) :
    cycleChoice s n l =
      { station := some x, line := { l with cycleCount := (l.cycleCount + 1) % 8, cyclePos := addressOf x } } := by
  simp only [cycleChoice, h, if_neg hpos, nextCycle, hx]

theorem cycleChoice_fresh_silent (h : cycleNext s n l.cycleCount l.cyclePos = none) (hpos : l.cyclePos ≠ 0)
    (hx : cycleNext s n ((l.cycleCount + 1) % 8) 0 = none) :
    cycleChoice s n l =
      { station := none, line := { l with cycleCount := (l.cycleCount + 1) % 8, cyclePos := 0, silence := some 125000 } } := by
  simp only [cycleChoice, h, if_neg hpos, nextCycle, hx]
  rfl

end Cycle

theorem exec_turn {n : Nat} {s : State} (hphase : s.phase = .operating) (hn : n < s.lcs.lines.length)
    (hready : turnReady (lineAt s.lcs n) = true) : exec (.turn n) s = .next (flush (takeTurn n s)) :=
  answer_takes _ hphase (by simp [hn, hready])

theorem takeTurn_line {n : Nat} {s : State} (hn : n < s.lcs.lines.length) {c : TurnChoice}
    (hc : turnChoice s n (lineAt s.lcs n) = c) :
    lineAt (flush (takeTurn n s)).lcs n = { c.line with txn := c.station.map (turnTxn s) } := by
  subst hc
  exact lineAt_setLine_self hn _

/-- Settles O29. -/
theorem turnOrder : Obligations.TurnOrder := by
  unfold Obligations.TurnOrder
  refine ⟨fun n s hphase hcanon hn hready => ⟨_, exec_turn hphase hn hready, rfl, rfl, fun k hk => lineAt_setLine_ne hk _ _,
      fun hany => ?_, fun hnone => ⟨fun x hx => ?_, fun hend hpos => ?_, fun hend hpos => ?_⟩⟩,
    musterWaiting_iff, mem_lineStations, addressOf_eq,
    fun s n count position hsorted => ⟨cycleNext_some hsorted n count position, cycleNext_none s n count position⟩⟩
  · obtain ⟨x, hx, hw, hchoice, habove, hleast⟩ := turnChoice_muster hcanon.2.2.1 (lineAt s.lcs n) hany
    exact ⟨x, hx, hw, takeTurn_line hn hchoice, habove, hleast⟩
  · exact takeTurn_line hn ((turnChoice_cycle _ hnone).trans (cycleChoice_some hx))
  · exact takeTurn_line hn ((turnChoice_cycle _ hnone).trans (cycleChoice_silent hend hpos))
  · cases hnext : cycleNext s n (((lineAt s.lcs n).cycleCount + 1) % 8) 0 with
    | some x =>
      rw [takeTurn_line hn ((turnChoice_cycle _ hnone).trans (cycleChoice_fresh hend hpos hnext))]
      refine ⟨rfl, fun y hy => ?_, by simp⟩
      cases hy
      exact ⟨rfl, rfl⟩
    | none =>
      rw [takeTurn_line hn ((turnChoice_cycle _ hnone).trans (cycleChoice_fresh_silent hend hpos hnext))]
      exact ⟨rfl, by simp, fun _ => ⟨rfl, rfl, rfl⟩⟩

/-! ## What a turn carries (R130, R141, R149) -/

theorem doorAllows_iff (musterPage : Bool) (d : DoorRec) :
    doorAllows musterPage d = true ↔ musterPage = true ∨ d.refresh = none ∨ d.afterMuster = true := by
  simp [doorAllows, or_assoc]

theorem desiresMuster_of_page {s : State} {x : Nat} {page : Page} (h : desiredPage s.pco x = some page) :
    desiresMuster s x = isMusterPage s.msc.serial page := by
  simp only [desiresMuster, h]

theorem carriesTransfer_iff {s : State} {x : Nat} {st : StationRec} {page : Page} (hpage : desiredPage s.pco x = some page) :
    carriesTransfer s x st = true ↔
      desiredSerial s.pco x ≠ (lineRec s.lcs x).confSerial
        ∧ (∀ w, (lineRec s.lcs x).waiting = some w → desiredSerial s.pco x ≠ w.serial)
        ∧ lineStatus s x ≠ .lost
        ∧ (st.kind = .cabin → ∀ d, (lineRec s.lcs x).door = some d →
            isMusterPage s.msc.serial page = true ∨ d.refresh = none ∨ d.afterMuster = true) := by
  have hwaiting : (match (lineRec s.lcs x).waiting with
      | some w => decide (desiredSerial s.pco x ≠ w.serial)
      | none => true) = true ↔ ∀ w, (lineRec s.lcs x).waiting = some w → desiredSerial s.pco x ≠ w.serial := by
    cases (lineRec s.lcs x).waiting <;> simp
  have hdoor : doorAllows (isMusterPage s.msc.serial page) ((lineRec s.lcs x).door.getD freshDoor) = true ↔
      ∀ d, (lineRec s.lcs x).door = some d →
        isMusterPage s.msc.serial page = true ∨ d.refresh = none ∨ d.afterMuster = true := by
    cases (lineRec s.lcs x).door with
    | none => simp [doorAllows_iff, freshDoor]
    | some d => simp [doorAllows_iff]
  unfold carriesTransfer
  simp only [hpage, desiresMuster_of_page hpage, Option.isSome_some, Bool.true_and, Bool.and_eq_true, decide_eq_true_eq, and_assoc]
  refine and_congr_right fun _ => and_congr hwaiting (and_congr_right fun _ => ?_)
  cases hk : st.kind with
  | cabin => simp [hdoor]
  | waypoint | lobby => simp

theorem turnTxn_of_page {s : State} {x : Nat} {st : StationRec} {page : Page} (hst : tblGet s.sms.stations x = some st)
    (hpage : desiredPage s.pco x = some page) :
    (turnTxn s x).transfer =
      if carriesTransfer s x st then some ({ serial := desiredSerial s.pco x, page, full := fullFlag s x st }, 0) else none := by
  simp only [turnTxn, hst, hpage]
  split <;> rfl

theorem turnTxn_of_no_page {s : State} {x : Nat} (hpage : desiredPage s.pco x = none) : (turnTxn s x).transfer = none := by
  unfold turnTxn
  rw [hpage]
  split
  · next h => cases h
  · rfl

theorem fullFlag_screen {s : State} {x : Nat} {st : StationRec} (h : st.kind ≠ .cabin) : fullFlag s x st = false := by
  unfold fullFlag
  cases hk : st.kind with
  | cabin => exact absurd hk h
  | waypoint | lobby => rfl

theorem fullFlag_cabin {s : State} {x : Nat} {st : StationRec} {page : Page} {d : DoorRec} (hkind : st.kind = .cabin)
    (hpage : desiredPage s.pco x = some page) (hd : (lineRec s.lcs x).door = some d) :
    fullFlag s x st = true ↔
      isMusterPage s.msc.serial page = true ∨ s.sms.settings.fullRefreshPeriod - 1 ≤ d.fullCount := by
  simp [fullFlag, hkind, desiresMuster_of_page hpage, hd, doorFull]

/-- Settles O30. -/
theorem turnCarries : Obligations.TurnCarries := by
  unfold Obligations.TurnCarries
  intro s x st hst
  cases hpage : desiredPage s.pco x with
  | none =>
    rw [turnTxn_of_no_page hpage]
    simp
  | some page =>
    rw [turnTxn_of_page hst hpage]
    refine ⟨?_, fun p k hp => ?_⟩
    · rw [Option.isSome_ite, carriesTransfer_iff hpage]
      exact ⟨fun h => ⟨page, rfl, h⟩, fun ⟨q, hq, h⟩ => by cases hq; exact h⟩
    · split at hp
      · cases hp
        exact ⟨rfl, rfl, rfl, fullFlag_screen, fun d hkind hd => fullFlag_cabin hkind hpage hd⟩
      · cases hp

end Sys2Proof.Machine

/-! PROOFS. Effective muster stations and the map (R80 to R83), the ordered view and the lists (R52, R58 to R61). -/

namespace Sys2Proof.Machine

open Sys2Proof.Safety

/-! ## The class of a muster station (R80) -/

section Classes

variable {musters : Tbl MusterRec} {slots : List Slot} {n k : Nat}

theorem stationClass_absent (h : tblGet musters k = none) : stationClass musters slots n k = .out := by
  simp only [stationClass, h]

theorem stationClass_closed {r : MusterRec} (h : tblGet musters k = some r) (hopen : r.isOpen = false) :
    stationClass musters slots n k = .out := by
  simp only [stationClass, h, hopen, Bool.not_false, if_true]

theorem stationClass_unknown {r : MusterRec} (h : tblGet musters k = some r) (hopen : r.isOpen = true)
    (hv : vectorOf slots { node := r.node, regime := .muster } = none) : stationClass musters slots n k = .unknown := by
  simp only [stationClass, h, hopen, hv, Bool.not_true, Bool.false_eq_true, if_false]

theorem stationClass_vector {r : MusterRec} {v : RouteVec} (h : tblGet musters k = some r) (hopen : r.isOpen = true)
    (hv : vectorOf slots { node := r.node, regime := .muster } = some v) :
    stationClass musters slots n k = if (hopOf v n).dist = 65535 then .out else .reachable (hopOf v n).dist := by
  simp only [stationClass, h, hopen, hv, Bool.not_true, Bool.false_eq_true, if_false]

/-- A muster station that is not OUT has a record. -/
theorem mem_keys_of_class (h : stationClass musters slots n k ≠ .out) : k ∈ tblKeys musters := by
  cases hr : tblGet musters k with
  | none => exact absurd (stationClass_absent hr) h
  | some r => exact mem_keys_of_get hr

end Classes

/-! ## The nearest station, and the first UNKNOWN one (R81, R82) -/

section Nearest

variable {musters : Tbl MusterRec} {slots : List Slot} {n : Nat}

/-- The best REACHABLE station among the entries seen so far. -/
def BestOf (musters : Tbl MusterRec) (slots : List Slot) (n : Nat) (seen : List Nat) : Option (Nat × Nat) → Prop
  | none => ∀ j ∈ seen, ∀ e, stationClass musters slots n j ≠ .reachable e
  | some (k, d) => k ∈ seen ∧ stationClass musters slots n k = .reachable d
      ∧ ∀ j ∈ seen, ∀ e, stationClass musters slots n j = .reachable e → d < e ∨ d = e ∧ k ≤ j

theorem bestOf_step {seen : List Nat} {best : Option (Nat × Nat)} (h : BestOf musters slots n seen best) (e : Nat × MusterRec)
    (hlater : ∀ j ∈ seen, j < e.1) : BestOf musters slots n (seen ++ [e.1]) (nearerStation musters slots n best e) := by
  unfold nearerStation
  cases hclass : stationClass musters slots n e.1 with
  | reachable d =>
    cases best with
    | none =>
      refine ⟨by simp, hclass, fun j hj f hf => ?_⟩
      obtain hj | hj := List.mem_append.mp hj
      · exact absurd hf (h j hj f)
      · obtain rfl := List.mem_singleton.mp hj
        rw [hclass] at hf
        cases hf
        exact .inr ⟨rfl, Nat.le_refl _⟩
    | some b =>
      obtain ⟨k, c⟩ := b
      obtain ⟨hk, hck, hleast⟩ := h
      dsimp only
      split
      next hlt =>
        refine ⟨by simp, hclass, fun j hj f hf => ?_⟩
        obtain hj | hj := List.mem_append.mp hj
        · have := hleast j hj f hf
          omega
        · obtain rfl := List.mem_singleton.mp hj
          rw [hclass] at hf
          cases hf
          exact .inr ⟨rfl, Nat.le_refl _⟩
      next hge =>
        refine ⟨List.mem_append_left _ hk, hck, fun j hj f hf => ?_⟩
        obtain hj | hj := List.mem_append.mp hj
        · exact hleast j hj f hf
        · obtain rfl := List.mem_singleton.mp hj
          rw [hclass] at hf
          cases hf
          have := hlater k hk
          omega
  | unknown | out =>
    have hother : ∀ f, stationClass musters slots n e.1 ≠ .reachable f := fun f hf => by rw [hclass] at hf; cases hf
    cases best with
    | none =>
      intro j hj f hf
      obtain hj | hj := List.mem_append.mp hj
      · exact h j hj f hf
      · obtain rfl := List.mem_singleton.mp hj
        exact hother f hf
    | some b =>
      obtain ⟨k, c⟩ := b
      obtain ⟨hk, hck, hleast⟩ := h
      refine ⟨List.mem_append_left _ hk, hck, fun j hj f hf => ?_⟩
      obtain hj | hj := List.mem_append.mp hj
      · exact hleast j hj f hf
      · obtain rfl := List.mem_singleton.mp hj
        exact absurd hf (hother f)

theorem bestOf_fold {rest : Tbl MusterRec} {seen : List Nat} {best : Option (Nat × Nat)} (h : BestOf musters slots n seen best)
    (hsorted : (seen ++ rest.map Prod.fst).Pairwise (· < ·)) :
    BestOf musters slots n (seen ++ rest.map Prod.fst) (rest.foldl (nearerStation musters slots n) best) := by
  induction rest generalizing seen best with
  | nil => simpa using h
  | cons e more ih =>
    rw [List.map_cons, ← List.singleton_append, ← List.append_assoc] at hsorted ⊢
    have hlater : ∀ j ∈ seen, j < e.1 := fun j hj =>
      (List.pairwise_append.mp (List.pairwise_append.mp hsorted).1).2.2 j hj e.1 (by simp)
    exact ih (bestOf_step h e hlater) hsorted

theorem bestOf_all (h : tblSorted musters = true) :
    BestOf musters slots n (tblKeys musters) (musters.foldl (nearerStation musters slots n) none) := by
  rw [tblSorted, decide_eq_true_eq] at h
  exact bestOf_fold (rest := musters) (seen := []) (fun _ hj => by cases hj) h

theorem nearestStation_of_nearest (h : tblSorted musters = true) {k : Nat} (hk : Nearest musters slots n k) :
    nearestStation musters slots n = some k := by
  obtain ⟨d, hd, hleast⟩ := hk
  have hkey : k ∈ tblKeys musters := mem_keys_of_class (by rw [hd]; simp)
  have hbest := bestOf_all (slots := slots) (n := n) h
  unfold nearestStation
  cases hfold : musters.foldl (nearerStation musters slots n) none with
  | none =>
    rw [hfold] at hbest
    exact absurd hd (hbest k hkey d)
  | some b =>
    obtain ⟨j, e⟩ := b
    rw [hfold] at hbest
    obtain ⟨-, he, hbestleast⟩ := hbest
    have h1 := hleast j e he
    have h2 := hbestleast k hkey d hd
    exact congrArg some (show j = k by omega)

theorem nearestStation_none (h : ∀ j e, stationClass musters slots n j ≠ .reachable e) :
    nearestStation musters slots n = none := by
  have hfold : ∀ l : Tbl MusterRec, l.foldl (nearerStation musters slots n) none = none := by
    intro l
    induction l with
    | nil => rfl
    | cons e rest ih =>
      have hstep : nearerStation musters slots n none e = none := by
        unfold nearerStation
        split
        next d hd => exact absurd hd (h e.1 d)
        next => rfl
      rw [List.foldl_cons, hstep, ih]
  rw [nearestStation, hfold]
  rfl

theorem ascending_of_sorted {α : Type} {t : Tbl α} (h : tblSorted t = true) : Ascending Prod.fst t := by
  rw [tblSorted, decide_eq_true_eq, tblKeys] at h
  exact List.pairwise_map.mp h

theorem firstUnknown_of (h : tblSorted musters = true) {k : Nat} (hk : FirstUnknown musters slots n k) :
    firstUnknown musters slots n = some k := by
  obtain ⟨-, hclass, hleast⟩ := hk
  obtain ⟨r, hr⟩ : ∃ r, tblGet musters k = some r := by
    cases hr : tblGet musters k with
    | none => rw [stationClass_absent hr] at hclass; cases hclass
    | some r => exact ⟨r, rfl⟩
  have hfind := (find?_eq_some_iff_least (ascending_of_sorted h)
    (p := fun e => decide (stationClass musters slots n e.1 = .unknown)) (x := (k, r))).mpr
    ⟨get_mem hr, by simpa using hclass, fun e _ he => hleast e.1 (by simpa using he)⟩
  rw [firstUnknown, hfind]
  rfl

theorem firstUnknown_none (h : ∀ k, OutAt musters slots n k) : firstUnknown musters slots n = none := by
  have hfind : musters.find? (fun e => decide (stationClass musters slots n e.1 = .unknown)) = none :=
    List.find?_eq_none.mpr fun e _ => by
      have hout : stationClass musters slots n e.1 = .out := h e.1
      simp [hout]
  rw [firstUnknown, hfind]
  rfl

theorem not_reachable_of_out (h : ∀ k, OutAt musters slots n k) (j e : Nat) : stationClass musters slots n j ≠ .reachable e := by
  intro hj
  have hout : stationClass musters slots n j = .out := h j
  rw [hout] at hj
  cases hj

end Nearest

/-! ## Effective stations (R81, R82, R83) -/

section Effective

variable {musters : Tbl MusterRec} {slots : List Slot} {st : StationRec}

theorem effectiveStation_assigned (h : ¬OutAt musters slots st.node st.assigned) :
    effectiveStation musters slots st = (some st.assigned, false) := by
  have hclass : stationClass musters slots st.node st.assigned ≠ .out := h
  simp [effectiveStation, hclass]

theorem effectiveStation_alternate (h : OutAt musters slots st.node st.assigned) {r : MusterRec} {a : Nat}
    (hr : tblGet musters st.assigned = some r) (ha : r.alternate = some a) (hin : ¬OutAt musters slots st.node a) :
    effectiveStation musters slots st = (some a, true) := by
  have hclass : stationClass musters slots st.node st.assigned = .out := h
  have hother : stationClass musters slots st.node a ≠ .out := hin
  simp [effectiveStation, hclass, hr, ha, Option.filter, hother]

/-- With the assigned station and its alternate OUT, cases 3 to 5 of R81. -/
theorem effectiveStation_elsewhere (h : OutAt musters slots st.node st.assigned)
    (hnone : ∀ r a, tblGet musters st.assigned = some r → r.alternate = some a → OutAt musters slots st.node a) :
    effectiveStation musters slots st =
      match nearestStation musters slots st.node with
      | some k => (some k, true)
      | none => match firstUnknown musters slots st.node with
        | some k => (some k, true)
        | none => (none, false) := by
  have hclass : stationClass musters slots st.node st.assigned = .out := h
  have hfilter : ((tblGet musters st.assigned).bind MusterRec.alternate).filter
      (fun a => !decide (stationClass musters slots st.node a = .out)) = none := by
    cases hr : tblGet musters st.assigned with
    | none => rfl
    | some r =>
      cases ha : r.alternate with
      | none => simp [ha]
      | some a =>
        have hout : stationClass musters slots st.node a = .out := hnone r a hr ha
        simp [ha, Option.filter, hout]
  simp only [effectiveStation, hclass, hfilter, decide_true, Bool.not_true, Bool.false_eq_true, if_false] <;> rfl

theorem shownStations_served (h : ∃ k ∈ st.served, ¬OutAt musters slots st.node k) :
    shownStations musters slots st
      = st.served.filter fun k => decide (stationClass musters slots st.node k ≠ .out) := by
  obtain ⟨k, hk, hin⟩ := h
  have hne : st.served.filter (fun k => decide (stationClass musters slots st.node k ≠ .out)) ≠ [] :=
    List.ne_nil_of_mem (List.mem_filter.mpr ⟨hk, decide_eq_true hin⟩)
  unfold shownStations
  split
  next hnil => exact absurd hnil hne
  next => rfl

theorem shownStations_elsewhere (h : ∀ k ∈ st.served, OutAt musters slots st.node k) :
    shownStations musters slots st =
      match nearestStation musters slots st.node with
      | some k => [k]
      | none => (firstUnknown musters slots st.node).toList := by
  have hnil : st.served.filter (fun k => decide (stationClass musters slots st.node k ≠ .out)) = [] :=
    List.filter_eq_nil_iff.mpr fun k hk => by
      have hout : stationClass musters slots st.node k = .out := h k hk
      simp [hout]
  simp only [shownStations, hnil] <;> rfl

end Effective

/-- Settles O18. -/
theorem effectiveStations : Obligations.EffectiveStations := by
  unfold Obligations.EffectiveStations
  refine ⟨fun musters slots n k => ⟨stationClass_absent, fun r hr => ⟨stationClass_closed hr, stationClass_unknown hr,
      fun v hopen hv => ⟨fun hfar => ?_, fun hnear => ?_⟩⟩⟩,
    fun musters slots st hsorted => ⟨effectiveStation_assigned, fun hout => ⟨fun r a => effectiveStation_alternate hout,
      fun hnone => ⟨fun k hk => ?_, fun hall => ?_⟩⟩, fun hsome shown hshown => ?_, fun hall => ⟨fun k hk => ?_, fun hout => ?_⟩⟩,
    fun m slots x => ⟨fun hx => ?_, fun st hst => ⟨fun hkind => ?_, fun hkind => ?_⟩⟩⟩
  · exact (stationClass_vector hr hopen hv).trans (if_pos hfar)
  · exact (stationClass_vector hr hopen hv).trans (if_neg hnear)
  · rw [effectiveStation_elsewhere hout hnone]
    obtain hk | hk := hk
    · rw [nearestStation_of_nearest hsorted hk]
    · rw [nearestStation_none hk.1, firstUnknown_of hsorted hk]
  · rw [effectiveStation_elsewhere hout hnone, nearestStation_none (not_reachable_of_out hall), firstUnknown_none hall]
  · subst hshown
    rw [shownStations_served hsome]
    exact ⟨List.filter_sublist, fun k => by simp only [List.mem_filter, decide_eq_true_eq]; exact Iff.rfl⟩
  · rw [shownStations_elsewhere hall]
    obtain hk | hk := hk
    · rw [nearestStation_of_nearest hsorted hk]
    · rw [nearestStation_none hk.1, firstUnknown_of hsorted hk]
      rfl
  · rw [shownStations_elsewhere hall, nearestStation_none (not_reachable_of_out hout), firstUnknown_none hout]
    rfl
  · rw [freshMap, tblGet_map, hx]
    rfl
  · rw [freshMap, tblGet_map, hst]
    simp only [Option.map_some, mapEntry, hkind]
  · rw [freshMap, tblGet_map, hst]
    cases hk : st.kind with
    | cabin => exact absurd hk hkind
    | waypoint | lobby => simp only [Option.map_some, mapEntry, hk]

/-! ## The ordered view (R52) -/

theorem viewBefore_iff (a b : Nat × ProgRec) :
    viewBefore a b = true ↔ a.2.start < b.2.start ∨ a.2.start = b.2.start ∧ a.1 < b.1 := by
  simp [viewBefore]

theorem mem_viewInsert (a e : Nat × ProgRec) (l : List (Nat × ProgRec)) : e ∈ viewInsert a l ↔ e = a ∨ e ∈ l := by
  induction l with
  | nil => simp [viewInsert]
  | cons b rest ih =>
    unfold viewInsert
    split
    · simp
    · rw [List.mem_cons, ih, List.mem_cons]
      tauto

theorem mem_viewSort (l : Tbl ProgRec) (e : Nat × ProgRec) : e ∈ l.foldr viewInsert [] ↔ e ∈ l := by
  induction l with
  | nil => rfl
  | cons a rest ih => rw [List.foldr_cons, mem_viewInsert, ih, List.mem_cons]

/-- Entries of different indices put in their place stand in the order of R52. -/
theorem viewInsert_ordered {a : Nat × ProgRec} {l : List (Nat × ProgRec)} (hne : ∀ e ∈ l, e.1 ≠ a.1)
    (h : l.Pairwise fun x y => viewBefore x y = true) : (viewInsert a l).Pairwise fun x y => viewBefore x y = true := by
  induction l with
  | nil => simp [viewInsert]
  | cons b rest ih =>
    obtain ⟨hb, hrest⟩ := List.pairwise_cons.mp h
    unfold viewInsert
    split
    next hab =>
      refine List.pairwise_cons.mpr ⟨fun e he => ?_, h⟩
      obtain rfl | he := List.mem_cons.mp he
      · exact hab
      · have hbe := hb e he
        rw [viewBefore_iff] at hab hbe ⊢
        omega
    next hab =>
      refine List.pairwise_cons.mpr ⟨fun e he => ?_, ih (fun e he => hne e (List.mem_cons_of_mem _ he)) hrest⟩
      obtain rfl | he := (mem_viewInsert ..).mp he
      · have hdiff := hne b (List.mem_cons_self ..)
        rw [viewBefore_iff] at hab ⊢
        omega
      · exact hb e he

theorem viewSort_ordered {t : Tbl ProgRec} (h : tblSorted t = true) :
    (t.foldr viewInsert []).Pairwise fun x y => viewBefore x y = true := by
  induction t with
  | nil => exact List.Pairwise.nil
  | cons a rest ih =>
    obtain ⟨hlt, hrest⟩ := (sorted_cons a rest).mp h
    refine viewInsert_ordered (fun e he => ?_) (ih hrest)
    have hkey : e.1 ∈ tblKeys rest := List.mem_map.mpr ⟨e, (mem_viewSort rest e).mp he, rfl⟩
    exact Nat.ne_of_gt (hlt e.1 hkey)

theorem mem_orderedView {t : Tbl ProgRec} (i : Nat) : i ∈ orderedView t ↔ tblHas t i = true := by
  rw [← mem_keys, orderedView, tblKeys, List.mem_map, List.mem_map]
  exact exists_congr fun e => and_congr_left' (mem_viewSort t e)

theorem orderedView_ordered {t : Tbl ProgRec} (h : tblSorted t = true) :
    (orderedView t).Pairwise fun i j => ∀ a b, tblGet t i = some a → tblGet t j = some b →
      a.start < b.start ∨ a.start = b.start ∧ i < j := by
  refine List.pairwise_map.mpr ((viewSort_ordered h).imp_of_mem fun {x y} hx hy hxy a b ha hb => ?_)
  obtain ⟨i, e⟩ := x
  obtain ⟨j, f⟩ := y
  rw [tblGet_of_mem h ((mem_viewSort t _).mp hx)] at ha
  rw [tblGet_of_mem h ((mem_viewSort t _).mp hy)] at hb
  cases ha
  cases hb
  exact (viewBefore_iff ..).mp hxy

/-! ## The lists (R58 to R61) -/

section Lists

variable (nodes : Tbl NodeRec) (programme : Tbl ProgRec) (states : Tbl EntryState) (offset : Int) (now : Nat) (st : StationRec)

/-- The line of an entry in a station's list, if it qualifies (R58 to R61). -/
def lineOfEntry (i : Nat) : Option ListLine :=
  match tblGet programme i, tblGet states i with
  | some e, some state =>
    if (if st.kind = .waypoint then wayQualifies st e state else lobbyQualifies st e state) then
      some (listLine nodes offset now (decide (st.kind = .waypoint)) i e state)
    else none
  | _, _ => none

theorem screenList_eq (view : List Nat) :
    screenList nodes programme states view offset now st
      = (view.filterMap (lineOfEntry nodes programme states offset now st)).take (if st.kind = .waypoint then 3 else 8) := by
  unfold screenList lineOfEntry
  simp only [decide_eq_true_eq] <;> rfl

theorem qualifies_eq {i : Nat} {e : ProgRec} {q : EntryState} (he : tblGet programme i = some e) (hq : tblGet states i = some q) :
    qualifies programme states st i = if st.kind = .waypoint then wayQualifies st e q else lobbyQualifies st e q := by
  rw [Bool.eq_iff_iff]
  simp only [qualifies, he, hq, wayQualifies, lobbyQualifies, eligible]
  by_cases hkind : st.kind = .waypoint
  · simp [hkind, Option.isSome_iff_ne_none, and_assoc]
  · simp [hkind, or_assoc]

theorem lineOfEntry_some {i : Nat} {e : ProgRec} {q : EntryState} (he : tblGet programme i = some e)
    (hq : tblGet states i = some q) (hqual : qualifies programme states st i = true) :
    lineOfEntry nodes programme states offset now st i
      = some (listLine nodes offset now (decide (st.kind = .waypoint)) i e q) := by
  rw [qualifies_eq _ _ _ he hq] at hqual
  simp only [lineOfEntry, he, hq, hqual, if_true]

theorem lineOfEntry_none {i : Nat} (hqual : qualifies programme states st i = false) :
    lineOfEntry nodes programme states offset now st i = none := by
  unfold lineOfEntry
  split
  next e q he hq =>
    rw [qualifies_eq _ _ _ he hq] at hqual
    rw [hqual]
    rfl
  next => rfl

theorem qualifies_record {i : Nat} (h : qualifies programme states st i = true) :
    ∃ e q, tblGet programme i = some e ∧ tblGet states i = some q := by
  unfold qualifies at h
  split at h
  next e q he hq => exact ⟨e, q, he, hq⟩
  next => cases h

theorem lineOfEntry_entries (view : List Nat) :
    (view.filterMap (lineOfEntry nodes programme states offset now st)).map ListLine.entry
      = view.filter (qualifies programme states st) := by
  induction view with
  | nil => rfl
  | cons i rest ih =>
    cases hqual : qualifies programme states st i with
    | false =>
      rw [List.filterMap_cons_none (lineOfEntry_none _ _ _ _ _ _ hqual), List.filter_cons_of_neg (by simp [hqual]), ih]
    | true =>
      obtain ⟨e, q, he, hq⟩ := qualifies_record _ _ _ hqual
      rw [List.filterMap_cons_some (lineOfEntry_some _ _ _ _ _ _ he hq hqual), List.filter_cons_of_pos hqual,
        List.map_cons, ih]
      rfl

theorem listLine_fields (i : Nat) (e : ProgRec) (q : EntryState) (way : Bool) (l : ListLine)
    (hl : l = listLine nodes offset now way i e q) :
    l.title = e.title ∧ l.venueLabel = e.venueLabel ∧ l.mark = q ∧ l.cancelled = e.cancelled
      ∧ l.icon = e.category ∧ l.startTime = ((e.start + offset) % 1440).toNat
      ∧ (e.venue = none → l.deck = none ∧ l.route = none)
      ∧ (∀ v, e.venue = some v → l.deck = (tblGet nodes v).map NodeRec.deck
          ∧ l.route = if way = true ∧ e.cancelled = false then some v else none)
      ∧ l.countdown = if q = .soon then some (e.start - now) else none := by
  subst hl
  refine ⟨rfl, rfl, rfl, rfl, rfl, rfl, fun hv => ?_, fun v hv => ?_, rfl⟩
  · simp [listLine, hv]
  · cases way <;> cases hc : e.cancelled <;> simp [listLine, hv, hc]

end Lists

/-- Settles O21. -/
theorem programmeLists : Obligations.ProgrammeLists := by
  unfold Obligations.ProgrammeLists
  refine ⟨fun t hsorted => ⟨mem_orderedView, orderedView_ordered hsorted⟩,
    fun nodes programme states view offset now st list hlist => ?_⟩
  rw [screenList_eq] at hlist
  subst hlist
  refine ⟨by rw [List.map_take, lineOfEntry_entries], fun l hl => ?_⟩
  obtain ⟨i, -, hi⟩ := List.mem_filterMap.mp (List.mem_of_mem_take hl)
  cases hqual : qualifies programme states st i with
  | false => rw [lineOfEntry_none _ _ _ _ _ _ hqual] at hi; cases hi
  | true =>
    obtain ⟨e, q, he, hq⟩ := qualifies_record _ _ _ hqual
    rw [lineOfEntry_some _ _ _ _ _ _ he hq hqual] at hi
    cases hi
    refine ⟨e, q, he, hq, ?_⟩
    simpa only [decide_eq_true_eq] using listLine_fields nodes offset now i e q (decide (st.kind = .waypoint)) _ rfl

end Sys2Proof.Machine

/-! PROOFS. What comes about as time passes (R44, R45, R140, R146, R181). -/

namespace Sys2Proof.Machine

open Sys2Proof.Safety

/-! ## The voyage second and the refresh countdown (R44, R146) -/

theorem exec_voyageSecond {s : State} (hphase : s.phase ≠ .powerOn) (hdue : 25000000 ≤ s.clk.prescale) :
    exec .voyageSecond s = .next { s with clk := secondTaken s.clk } := by
  have htaken : (decide (Config.periodsPerSecond ≤ s.clk.prescale) && decide (s.phase ≠ .powerOn)) = true := by
    rw [Bool.and_eq_true, decide_eq_true_eq, decide_eq_true_eq]
    exact ⟨hdue, hphase⟩
  simp only [exec, execVoyageSecond, htaken, if_true]

theorem second_toNat (v : Word32) : (v + 1).toNat = (v.toNat + 1) % 4294967296 := by
  rw [BitVec.toNat_add]; rfl

theorem expireRefresh_self {x : Nat} {d : DoorRec} {l : LcsState} (hd : (lineRec l x).door = some d) :
    lineRec (expireRefresh x l) x = { lineRec l x with door := some { d with refresh := none } } := by
  rw [expireRefresh, lineRec_set_self, onDoor, hd]
  rfl

/-! ## The survey countdown (R181) -/

/-- A survey that is asked for in the report step of another is pending, or has begun as that one ended, or with no valid base
or outside RUNNING it is dropped with it. -/
theorem startReports_pending_report {f : ReportFields} {x : XuState} (hsurvey : x.survey = some .report)
    (hpending : x.surveyPending = true) :
    (startReports f x).survey = some .report ∧ (startReports f x).surveyPending = true
      ∨ (startReports f x).survey = some (.publish (inSpan x.span publishOffset 8) busPeriods)
          ∧ (startReports f x).surveyPending = false
      ∨ (startReports f x).survey = none ∧ ¬(x.runState = .running ∧ baseValid x = true) := by
  have hended : ∀ y : XuState, y.span = x.span → y.runState = x.runState → y.surveyPending = true →
      (endSurvey y).survey = some (.publish (inSpan x.span publishOffset 8) busPeriods) ∧ (endSurvey y).surveyPending = false
        ∨ (endSurvey y).survey = none ∧ ¬(x.runState = .running ∧ baseValid x = true) := by
    intro y hspan hrun hp
    have hvalid : baseValid y = baseValid x := by rw [baseValid, baseValid, hspan]
    unfold endSurvey
    by_cases hgo : x.runState = .running ∧ baseValid x = true
    · rw [if_pos ⟨hp, hrun.trans hgo.1, hvalid.trans hgo.2⟩, ← hspan]
      exact .inl ⟨rfl, rfl⟩
    · rw [if_neg fun h => hgo ⟨hrun.symm.trans h.2.1, hvalid.symm.trans h.2.2⟩]
      exact .inr ⟨rfl, hgo⟩
  obtain h | ⟨-, ⟨-, ⟨r, rest, -, h⟩ | ⟨-, h⟩ | ⟨-, -, -, h⟩⟩ | ⟨-, h | ⟨-, h⟩⟩⟩ := startReports_cases f x
  case inr.inl.inr.inr => rw [h]; exact .inr (hended x rfl rfl hpending)
  case inr.inr.inr => rw [h]; exact .inr (hended { x with reportDue := [] } rfl rfl hpending)
  all_goals rw [h]; exact .inl ⟨hsurvey, hpending⟩

theorem exec_surveyCountdown {s : State} (hphase : s.phase = .operating) (hzero : s.xu.countdown = some 0) :
    exec .surveyCountdownExpiry s = .next (flush { s with xu := reloadSurvey s.xu }) :=
  answer_takes _ hphase (by simp [hzero])

theorem reloadSurvey_begins {x : XuState} (h : x.survey = none) :
    (reloadSurvey x).survey = some (.publish (inSpan x.span publishOffset 8) busPeriods)
      ∧ (reloadSurvey x).surveyPending = x.surveyPending := by
  simp only [reloadSurvey, beginSurvey_of_none h, and_self]

theorem reloadSurvey_span (x : XuState) : (reloadSurvey x).span = x.span := congrArg XuHeld.span (reloadSurvey_held x)

theorem reloadSurvey_reportWrite (x : XuState) : (reloadSurvey x).reportWrite = x.reportWrite :=
  (congrArg XuState.reportWrite (beginSurvey_frame x) :)

theorem surveyCountdown_taken {s : State} (hphase : s.phase = .operating) (hzero : s.xu.countdown = some 0) :
    ∃ t, exec .surveyCountdownExpiry s = .next t ∧ t.xu.countdown = some (s.xu.interval * 25000)
      ∧ (s.xu.survey = none → t.xu.survey = some (.publish (inSpan s.xu.span 0x400 8) 1250000)
          ∧ t.xu.surveyPending = s.xu.surveyPending)
      ∧ (∀ v, s.xu.survey = some v → v ≠ .report → t.xu.survey = some v ∧ t.xu.surveyPending = true)
      ∧ (s.xu.survey = some .report → s.xu.reportWrite ≠ none →
          t.xu.survey = some .report ∧ t.xu.surveyPending = true)
      ∧ (s.xu.survey = some .report → s.xu.reportWrite = none →
          t.xu.survey = some .report ∧ t.xu.surveyPending = true
          ∨ t.xu.survey = some (.publish (inSpan s.xu.span 0x400 8) 1250000) ∧ t.xu.surveyPending = false
          ∨ t.xu.survey = none ∧ ¬(s.xu.runState = .running ∧ baseValid s.xu = true))
      ∧ SameRegisters s.xu t.xu ∧ { t with xu := s.xu } = s := by
  have hregs : SameRegisters s.xu (flush { s with xu := reloadSurvey s.xu }).xu :=
    sameRegisters_of_held ((flush_held _).trans (reloadSurvey_held s.xu))
  refine ⟨_, exec_surveyCountdown hphase hzero, startReports_countdown _ _, fun hnone => ?_, fun v hv hne => ?_,
    fun hreport hwrite => ?_, fun hreport _ => ?_, hregs, rfl⟩
  · obtain ⟨hbegun, hmark⟩ := reloadSurvey_begins hnone
    obtain ⟨hsurvey, hpending⟩ := startReports_survey_of_ne_report (f := reportFields { s with xu := reloadSurvey s.xu })
      (x := reloadSurvey s.xu) (by rw [hbegun]; simp)
    exact ⟨hsurvey.trans hbegun, hpending.trans hmark⟩
  · obtain ⟨hkept, hmark⟩ := reloadSurvey_survey_of_ne_none (x := s.xu) (by simp [hv])
    obtain ⟨hsurvey, hpending⟩ := startReports_survey_of_ne_report (f := reportFields { s with xu := reloadSurvey s.xu })
      (x := reloadSurvey s.xu) (by rw [hkept, hv]; simpa using hne)
    exact ⟨hsurvey.trans (hkept.trans hv), hpending.trans hmark⟩
  · obtain ⟨hkept, hmark⟩ := reloadSurvey_survey_of_ne_none (x := s.xu) (by simp [hreport])
    have hstill : startReports (reportFields { s with xu := reloadSurvey s.xu }) (reloadSurvey s.xu) = reloadSurvey s.xu :=
      startReports_of_write (by rw [reloadSurvey_reportWrite]; exact hwrite)
    simp only [flush, hstill]
    exact ⟨hkept.trans hreport, hmark⟩
  · obtain ⟨hkept, hmark⟩ := reloadSurvey_survey_of_ne_none (x := s.xu) (by simp [hreport])
    have hcases := startReports_pending_report (f := reportFields { s with xu := reloadSurvey s.xu }) (hkept.trans hreport) hmark
    rw [reloadSurvey_span, reloadSurvey_runState, reloadSurvey_baseValid] at hcases
    exact hcases

/-! ## The end of a silent cycle (R140) -/

theorem silentCycle_taken {n : Nat} {s : State} (hphase : s.phase = .operating) (hn : n < s.lcs.lines.length)
    (hzero : (lineAt s.lcs n).silence = some 0) :
    exec (.silentCycleExpiry n) s
      = .next (flush { s with lcs := setLine n (silenceOver (lineAt s.lcs n)) s.lcs }) :=
  answer_takes _ hphase (by simp [hn, hzero])

/-- Settles O19. -/
theorem timersRunOut : Obligations.TimersRunOut := by
  unfold Obligations.TimersRunOut
  refine ⟨fun s hphase hdue => ?_, ⟨fun x d s hphase hd hzero => ?_, fun s => surveyCountdown_taken⟩,
    fun n s hphase hn hzero => ⟨_, silentCycle_taken hphase hn hzero, ?_⟩⟩
  · rw [exec_voyageSecond hphase hdue, secondTaken, second_toNat]
  · have hout : refreshRunOut s x = true := by simp [refreshRunOut, hd, hzero]
    exact ⟨_, answer_takes _ hphase hout, expireRefresh_self hd, fun y hy => lineRec_set_ne _ _ hy, rfl, rfl⟩
  · have hregs : SameRegisters s.xu (flush { s with lcs := setLine n (silenceOver (lineAt s.lcs n)) s.lcs }).xu :=
      sameRegisters_of_held (flush_held _)
    exact ⟨lineAt_setLine_self hn _, fun k hk => lineAt_setLine_ne hk _ _, rfl, hregs, rfl⟩

end Sys2Proof.Machine

/-! PROOFS. The completion of a solve, the solver's selection and the service of claims (R30, R32, R34, R36, R38, R39, R83). -/

namespace Sys2Proof.Machine

open Sys2Proof.Safety

/-! ## The first slot that meets a condition -/

/-- Change the first slot that meets a condition, if one does. -/
def updateFirst (p : Slot → Prop) [DecidablePred p] (f : Slot → Slot) : List Slot → Option (List Slot)
  | [] => none
  | sl :: rest => if p sl then some (f sl :: rest) else (updateFirst p f rest).map (sl :: ·)

section UpdateFirst

variable {p : Slot → Prop} [DecidablePred p] {f : Slot → Slot}

theorem updateFirst_at {slots : List Slot} {k : Nat} {sl : Slot} (hk : slots[k]? = some sl) (hp : p sl)
    (hfirst : ∀ (j : Nat) (a : Slot), j < k → slots[j]? = some a → ¬p a) :
    updateFirst p f slots = some (slots.set k (f sl)) := by
  induction slots generalizing k with
  | nil => cases hk
  | cons a rest ih =>
    cases k with
    | zero =>
      cases hk
      rw [updateFirst, if_pos hp, List.set_cons_zero]
    | succ k =>
      have hrest := ih hk fun j b hj hb => hfirst (j + 1) b (Nat.succ_lt_succ hj) hb
      rw [updateFirst, if_neg (hfirst 0 a (Nat.succ_pos k) rfl), hrest, Option.map_some, List.set_cons_succ]

theorem updateFirst_none {slots : List Slot} (h : ∀ sl ∈ slots, ¬p sl) : updateFirst p f slots = none := by
  induction slots with
  | nil => rfl
  | cons a rest ih =>
    rw [updateFirst, if_neg (h a (List.mem_cons_self ..)), ih fun sl hsl => h sl (List.mem_cons_of_mem _ hsl)]
    rfl

theorem updateFirst_some {slots out : List Slot} (h : updateFirst p f slots = some out) :
    ∃ (k : Nat) (sl : Slot), slots[k]? = some sl ∧ p sl ∧ out = slots.set k (f sl) := by
  induction slots generalizing out with
  | nil => cases h
  | cons a rest ih =>
    rw [updateFirst] at h
    split at h
    next hp =>
      cases h
      exact ⟨0, a, rfl, hp, rfl⟩
    next =>
      obtain ⟨rest', hrest, rfl⟩ := Option.map_eq_some_iff.mp h
      obtain ⟨k, sl, hk, hp, rfl⟩ := ih hrest
      exact ⟨k + 1, sl, hk, hp, rfl⟩

end UpdateFirst

/-- A slot that the solver has chosen (R36). -/
def solvingSlot (sl : Slot) : Slot := { sl with state := .solving }

theorem selectIn_eq (r : Regime) (slots : List Slot) :
    selectIn r slots = updateFirst (fun sl => sl.state = .queued ∧ sl.pair.regime = r) solvingSlot slots := by
  induction slots with
  | nil => rfl
  | cons sl rest ih => rw [selectIn, updateFirst, ih]; rfl

theorem attachClaim_eq (c : Claim) (slots : List Slot) :
    attachClaim c slots = updateFirst (fun sl => sl.state ≠ .empty ∧ sl.pair = c.pair)
      (fun sl => { sl with holders := sl.holders ++ [c.who] }) slots := by
  induction slots with
  | nil => rfl
  | cons sl rest ih => rw [attachClaim, updateFirst, ih]

/-- A slot that a claim has just taken (R30, log 39). -/
def takenSlot (c : Claim) : Slot :=
  { state := .queued, pair := c.pair, holders := [c.who], vector := none, vectorEpoch := 0 }

theorem takeEmpty_eq (c : Claim) (slots : List Slot) :
    takeEmpty c slots = updateFirst (fun sl => sl.state = .empty) (fun _ => takenSlot c) slots := by
  induction slots with
  | nil => rfl
  | cons sl rest ih => rw [takeEmpty, updateFirst, ih]; rfl

/-! ## The solver's selection (R36) -/

theorem solverBusy_iff (slots : List Slot) : solverBusy slots = true ↔ ∃ sl ∈ slots, sl.state = .solving := by
  simp [solverBusy]

theorem solverSelect_busy {slots : List Slot} (h : ∃ sl ∈ slots, sl.state = .solving) : solverSelect slots = slots := by
  rw [solverSelect, if_pos ((solverBusy_iff slots).mpr h)]

theorem solverSelect_none {slots : List Slot} (h : ∀ sl ∈ slots, sl.state ≠ .queued) : solverSelect slots = slots := by
  have hnone : ∀ r, selectIn r slots = none := fun r => by
    rw [selectIn_eq]
    exact updateFirst_none fun sl hsl hp => h sl hsl hp.1
  rw [solverSelect, hnone, hnone]
  split <;> rfl

theorem solverSelect_first {slots : List Slot} {k : Nat} {sl : Slot} (hidle : ∀ a ∈ slots, a.state ≠ .solving)
    (hk : slots[k]? = some sl) (hq : sl.state = .queued)
    (hfirst : ∀ (j : Nat) (a : Slot), slots[j]? = some a → a.state = .queued →
      (a.pair.regime = sl.pair.regime → k ≤ j) ∧ (a.pair.regime = .muster → sl.pair.regime = .muster)) :
    solverSelect slots = slots.set k (solvingSlot sl) := by
  have hbusy : solverBusy slots ≠ true := fun h => by
    obtain ⟨a, ha, hs⟩ := (solverBusy_iff slots).mp h
    exact hidle a ha hs
  have hchosen : selectIn sl.pair.regime slots = some (slots.set k (solvingSlot sl)) := by
    rw [selectIn_eq]
    refine updateFirst_at hk ⟨hq, rfl⟩ fun j a hj ha hp => ?_
    exact absurd ((hfirst j a ha hp.1).1 hp.2) (Nat.not_le.mpr hj)
  rw [solverSelect, if_neg hbusy]
  cases hr : sl.pair.regime with
  | muster => rw [hr] at hchosen; rw [hchosen]
  | normal =>
    have hnone : selectIn .muster slots = none := by
      rw [selectIn_eq]
      refine updateFirst_none fun a ha hp => ?_
      obtain ⟨j, hj⟩ := List.mem_iff_getElem?.mp ha
      have hmuster := (hfirst j a hj hp.1).2 hp.2
      rw [hr] at hmuster
      cases hmuster
    rw [hr] at hchosen
    rw [hnone, hchosen]
    rfl

/-- A selection makes one QUEUED slot SOLVING at most. -/
theorem solverSelect_cases (slots : List Slot) :
    solverSelect slots = slots
      ∨ ∃ (k : Nat) (sl : Slot), slots[k]? = some sl ∧ sl.state = .queued ∧ solverSelect slots = slots.set k (solvingSlot sl) := by
  unfold solverSelect
  split
  · exact .inl rfl
  · split
    next out hout =>
      rw [selectIn_eq] at hout
      obtain ⟨k, sl, hk, hp, rfl⟩ := updateFirst_some hout
      exact .inr ⟨k, sl, hk, hp.1, rfl⟩
    next =>
      cases hnormal : selectIn .normal slots with
      | none => exact .inl rfl
      | some out =>
        rw [selectIn_eq] at hnormal
        obtain ⟨k, sl, hk, hp, rfl⟩ := updateFirst_some hnormal
        exact .inr ⟨k, sl, hk, hp.1, rfl⟩

/-- What a selection leaves of each slot. -/
theorem solverSelect_getElem? (slots : List Slot) (j : Nat) :
    (solverSelect slots)[j]? = slots[j]?
      ∨ ∃ a, slots[j]? = some a ∧ a.state = .queued ∧ (solverSelect slots)[j]? = some (solvingSlot a) := by
  obtain h | ⟨k, sl, hk, hq, h⟩ := solverSelect_cases slots
  · exact .inl (by rw [h])
  · rw [h]
    by_cases hj : k = j
    · subst hj
      refine .inr ⟨sl, hk, hq, ?_⟩
      rw [List.getElem?_set_self']
      rw [hk]
      rfl
    · exact .inl (List.getElem?_set_ne hj)

/-! ## The service of claims (R30, R34) -/

section Service

variable {c : Claim} {rest : List Claim} {slots : List Slot}

theorem serveClaims_attached {k : Nat} {sl : Slot} (hk : slots[k]? = some sl) (hstate : sl.state ≠ .empty)
    (hpair : sl.pair = c.pair)
    (hfirst : ∀ (j : Nat) (a : Slot), j < k → slots[j]? = some a → a.state = .empty ∨ a.pair ≠ c.pair) :
    serveClaims (c :: rest) slots = serveClaims rest (slots.set k { sl with holders := sl.holders ++ [c.who] }) := by
  have hattach : attachClaim c slots = some (slots.set k { sl with holders := sl.holders ++ [c.who] }) := by
    rw [attachClaim_eq]
    exact updateFirst_at hk ⟨hstate, hpair⟩ fun j a hj ha hp => (hfirst j a hj ha).elim hp.1 fun h => h hp.2
  simp only [serveClaims, hattach]

theorem attachClaim_none (h : ∀ sl ∈ slots, sl.state = .empty ∨ sl.pair ≠ c.pair) : attachClaim c slots = none := by
  rw [attachClaim_eq]
  exact updateFirst_none fun sl hsl hp => (h sl hsl).elim hp.1 fun hne => hne hp.2

theorem serveClaims_taken (hnone : ∀ sl ∈ slots, sl.state = .empty ∨ sl.pair ≠ c.pair) {k : Nat} {sl : Slot}
    (hk : slots[k]? = some sl) (hstate : sl.state = .empty)
    (hfirst : ∀ (j : Nat) (a : Slot), j < k → slots[j]? = some a → a.state ≠ .empty) :
    serveClaims (c :: rest) slots = serveClaims rest (slots.set k (takenSlot c)) := by
  have htake : takeEmpty c slots = some (slots.set k (takenSlot c)) := by
    rw [takeEmpty_eq]
    exact updateFirst_at (f := fun _ => takenSlot c) hk hstate hfirst
  simp only [serveClaims, attachClaim_none hnone, htake]

theorem serveClaims_waits (hnone : ∀ sl ∈ slots, sl.state = .empty ∨ sl.pair ≠ c.pair)
    (hfull : ∀ sl ∈ slots, sl.state ≠ .empty) :
    serveClaims (c :: rest) slots = ((serveClaims rest slots).1, c :: (serveClaims rest slots).2) := by
  have htake : takeEmpty c slots = none := by
    rw [takeEmpty_eq]
    exact updateFirst_none hfull
  simp only [serveClaims, attachClaim_none hnone, htake]

end Service

/-! ## A map computed afresh, and its notices (R83) -/

theorem pageShown_composeEach {α : Type} {s : State} {x : Nat} (h : PageShown s x) (l : List α) (f : State → α → List Nat) :
    PageShown (l.foldl (fun t y => composeMarked (f t y) t) s) x := by
  induction l generalizing s with
  | nil => exact h
  | cons y rest ih => exact ih (pageShown_composeMarked h _)

theorem pageShown_composeEach_marked {α : Type} (s : State) {x : Nat} {l : List α} {f : State → α → List Nat} {y : α}
    (hy : y ∈ l) (hx : ∀ t, x ∈ f t y) : PageShown (l.foldl (fun t z => composeMarked (f t z) t) s) x := by
  induction l generalizing s with
  | nil => cases hy
  | cons z rest ih =>
    obtain rfl | hy := List.mem_cons.mp hy
    · exact pageShown_composeEach (pageShown_marked (hx s)) rest f
    · exact ih _ hy

theorem pageShown_mapNotices {s : State} {x : Nat} (h : PageShown s x) (c : MscState) : PageShown (mapNotices c s) x := by
  rw [mapNotices_eq]
  exact pageShown_composeEach h _ fun _ y => [y]

theorem pageShown_mapNotices_changed {s : State} {x : Nat} {c : MscState} (h : x ∈ changedEntries c s.msc) :
    PageShown (mapNotices c s) x := by
  rw [mapNotices_eq]
  exact pageShown_composeEach_marked s h fun _ => List.mem_singleton_self x

/-- A candidate page reads one entry of the map: that of its station. -/
theorem candidate_of_same_entry {s t : State} {x : Nat} (hsms : t.sms = s.sms) (hrsv : t.rsv = s.rsv) (hpgu : t.pgu = s.pgu)
    (hpco : t.pco = s.pco) (hmsc : { t.msc with map := s.msc.map } = s.msc) (hmap : mapAt t.msc x = mapAt s.msc x)
    (st : StationRec) : candidate t x st = candidate s x st := by
  have hstate : t.msc.state = s.msc.state := (congrArg MscState.state hmsc :)
  have hkind : t.msc.kind = s.msc.kind := (congrArg MscState.kind hmsc :)
  have hserial : t.msc.serial = s.msc.serial := (congrArg MscState.serial hmsc :)
  have hreserve : t.msc.reserve = s.msc.reserve := (congrArg MscState.reserve hmsc :)
  simp only [candidate, excluded, composeScreen, composeProgramme, composeDoorMuster, composeScreenMuster, hsms, hrsv, hpgu,
    hpco, hstate, hkind, hserial, hreserve, hmap] <;> rfl

theorem recomputeMap_entry {s : State} {x : Nat} {st : StationRec} (hst : tblGet s.sms.stations x = some st)
    (hnot : x ∉ changedEntries s.msc (recomputeMap s).msc) : mapAt (recomputeMap s).msc x = mapAt s.msc x := by
  by_cases hstate : s.msc.state = .standby
  · simp only [mapAt, recomputeMap_msc, if_pos hstate]
  · have hmap : (recomputeMap s).msc.map = some (freshMap s.sms s.rsv.slots) := by
      simp only [recomputeMap_msc, if_neg hstate]
    have hkey : x ∈ tblKeys (freshMap s.sms s.rsv.slots) := by
      rw [freshMap, mem_keys, tblHas, tblGet_map, hst]
      rfl
    by_contra hne
    refine hnot ?_
    simp only [changedEntries, hmap]
    refine List.mem_filter.mpr ⟨hkey, decide_eq_true fun heq => hne ?_⟩
    rw [heq, mapAt, hmap]
    rfl

/-- A page stays as the part calls for when the map is computed afresh with its notices. -/
theorem pageShown_recomputeMap {s : State} {x : Nat} (h : PageShown s x) :
    PageShown (mapNotices s.msc (recomputeMap s)) x := by
  by_cases hchanged : x ∈ changedEntries s.msc (recomputeMap s).msc
  · exact pageShown_mapNotices_changed hchanged
  · refine pageShown_mapNotices (fun st hst => ?_) _
    have hcand := candidate_of_same_entry (s := s) (t := recomputeMap s) (x := x) rfl rfl rfl rfl rfl
      (recomputeMap_entry hst hchanged) st
    rw [hcand]
    exact h st hst

/-! ## The completion of a solve (R38, R39, R83) -/

theorem solvingPair_of_slot {slots : List Slot} {k : Nat} {sl : Slot} (hk : slots[k]? = some sl) (hs : sl.state = .solving) :
    ∃ p, solvingPair slots = some p
      ∧ ((∀ (j : Nat) (a : Slot), slots[j]? = some a → a.state = .solving → j = k) → p = sl.pair) := by
  unfold solvingPair
  cases hfind : slots.find? fun a => decide (a.state = .solving) with
  | none =>
    have hnone := List.find?_eq_none.mp hfind sl (List.mem_of_getElem? hk)
    exact absurd (decide_eq_true hs) hnone
  | some a =>
    refine ⟨a.pair, rfl, fun honly => ?_⟩
    obtain ⟨j, hj⟩ := List.mem_iff_getElem?.mp (List.mem_of_find?_eq_some hfind)
    have hsolving : a.state = .solving := by simpa using List.find?_some hfind
    obtain rfl := honly j a hj hsolving
    rw [hk] at hj
    cases hj
    rfl

theorem readySlot_solving (m : SmsState) {sl : Slot} (h : sl.state = .solving) :
    readySlot m sl = { sl with state := .ready, vector := some (solve m sl.pair), vectorEpoch := m.epoch } := if_pos h

theorem readySlot_other (m : SmsState) {sl : Slot} (h : sl.state ≠ .solving) : readySlot m sl = sl := if_neg h

theorem solved_slot {m : SmsState} {slots : List Slot} {k : Nat} {sl : Slot} (hk : slots[k]? = some sl)
    (hs : sl.state = .solving) :
    (solverSelect (slots.map (readySlot m)))[k]?
      = some { sl with state := .ready, vector := some (solve m sl.pair), vectorEpoch := m.epoch } := by
  have hready : (slots.map (readySlot m))[k]? = some (readySlot m sl) := by rw [List.getElem?_map, hk]; rfl
  rw [readySlot_solving m hs] at hready
  obtain h | ⟨a, ha, hq, -⟩ := solverSelect_getElem? (slots.map (readySlot m)) k
  · rw [h, hready]
  · rw [hready] at ha
    cases ha
    cases hq

theorem unsolved_slot {m : SmsState} {slots : List Slot} {j : Nat} {a b : Slot} (ha : slots[j]? = some a)
    (hb : (solverSelect (slots.map (readySlot m)))[j]? = some b) (hs : a.state ≠ .solving) :
    b.pair = a.pair ∧ b.vector = a.vector ∧ b.vectorEpoch = a.vectorEpoch
      ∧ (b.state = a.state ∨ a.state = .queued ∧ b.state = .solving) := by
  have hkept : (slots.map (readySlot m))[j]? = some a := by rw [List.getElem?_map, ha, Option.map_some, readySlot_other m hs]
  obtain h | ⟨c, hc, hq, h⟩ := solverSelect_getElem? (slots.map (readySlot m)) j
  · rw [h, hkept] at hb
    cases hb
    exact ⟨rfl, rfl, rfl, .inl rfl⟩
  · rw [hkept] at hc
    cases hc
    rw [h] at hb
    cases hb
    exact ⟨rfl, rfl, rfl, .inr ⟨hq, rfl⟩⟩

theorem solved_holders (m : SmsState) (slots : List Slot) :
    (solverSelect (slots.map (readySlot m))).map Slot.holders = slots.map Slot.holders := by
  have hheld : ∀ sl, (readySlot m sl).holders = sl.holders := fun sl => by unfold readySlot; split <;> rfl
  obtain ⟨-, -, hframe, -⟩ := solverSelect_spec (slots.map (readySlot m))
  have hholders := congrArg (List.map fun f : Pair × List Claimant × Option RouteVec × Word32 => f.2.1) hframe
  rw [List.map_map, List.map_map] at hholders
  have hmap : (slots.map (readySlot m)).map Slot.holders = slots.map Slot.holders := by
    rw [List.map_map]
    exact List.map_congr_left fun sl _ => hheld sl
  exact hholders.trans hmap

theorem mem_drawnFrom {s : State} {pairs : List Pair} {x : Nat} {st : StationRec} (hst : tblGet s.sms.stations x = some st)
    {p : Pair} (hp : p ∈ pairs) (hdraw : p ∈ (pageRec s.pco x).draws) : x ∈ drawnFrom s pairs :=
  List.mem_filter.mpr ⟨mem_keys_of_get hst, List.any_eq_true.mpr ⟨p, hdraw, by simpa using hp⟩⟩

/-- The solve taken, with the notice of its pair (R38, R39). -/
def solveDrawn (p : Pair) (s : State) : State := pairNotices [p] (finishSolve s)

theorem pageShown_solveDrawn {p : Pair} {s : State} {x : Nat} {st : StationRec} (hst : tblGet s.sms.stations x = some st)
    (hdraw : p ∈ (pageRec s.pco x).draws) : PageShown (solveDrawn p s) x :=
  pageShown_marked (s := finishSolve s) (mem_drawnFrom (s := finishSolve s) hst (List.mem_singleton_self p) hdraw)

theorem solveTaken_normal {p : Pair} {s : State} (h : p.regime = .normal) : solveTaken p s = solveDrawn p s := by
  have hne : p.regime ≠ .muster := by rw [h]; decide
  unfold solveTaken
  simp only [if_neg hne]
  rfl

theorem solveTaken_muster {p : Pair} {s : State} (h : p.regime = .muster) :
    solveTaken p s = mapNotices (solveDrawn p s).msc (recomputeMap (solveDrawn p s)) := by
  unfold solveTaken
  simp only [if_pos h]
  rfl

theorem pageShown_solveTaken {p : Pair} {s : State} {x : Nat} {st : StationRec} (hst : tblGet s.sms.stations x = some st)
    (hdraw : p ∈ (pageRec s.pco x).draws) : PageShown (solveTaken p s) x := by
  cases h : p.regime with
  | normal => rw [solveTaken_normal h]; exact pageShown_solveDrawn hst hdraw
  | muster => rw [solveTaken_muster h]; exact pageShown_recomputeMap (pageShown_solveDrawn hst hdraw)

theorem pageShown_flush {s : State} {x : Nat} (h : PageShown s x) : PageShown (flush s) x :=
  pageShown_of_same h rfl rfl rfl rfl rfl

theorem exec_solveComplete {p : Pair} {s : State} (hphase : s.phase = .operating) (hp : solvingPair s.rsv.slots = some p) :
    exec .solveComplete s = .next (flush (solveTaken p s)) := by
  simp only [exec, execSolveComplete, hp]
  exact answer_takes _ hphase rfl

theorem solveTaken_frame (p : Pair) (s : State) :
    { flush (solveTaken p s) with rsv := s.rsv, msc := s.msc, pco := s.pco, xu := s.xu } = s := rfl

/-- Settles O23. -/
theorem solveCompletes : Obligations.SolveCompletes := by
  unfold Obligations.SolveCompletes
  refine ⟨fun k sl s hphase hk hs => ?_,
    fun slots => ⟨solverSelect_busy, solverSelect_none, fun k sl hidle hk hq hfirst => solverSelect_first hidle hk hq hfirst⟩,
    fun slots => rfl, fun c rest slots => ⟨fun k sl hk hstate hpair hfirst => serveClaims_attached hk hstate hpair hfirst,
      fun hnone => ⟨fun k sl hk hstate hfirst => serveClaims_taken hnone hk hstate hfirst, fun hfull => ?_⟩⟩⟩
  · obtain ⟨p, hp, honly⟩ := solvingPair_of_slot hk hs
    refine ⟨_, exec_solveComplete hphase hp, solved_slot hk hs, solved_holders s.sms s.rsv.slots,
      fun j a b ha hb => unsolved_slot ha hb, rfl, fun hone => ?_, solveTaken_frame p s⟩
    obtain rfl := honly hone
    refine ⟨fun hnormal => ?_, fun hmuster hstate => ?_, fun x st hst hdraw => ?_⟩
    · rw [solveTaken_normal hnormal]
      rfl
    · rw [solveTaken_muster hmuster, flush_msc, mapNotices_msc, recomputeMap_msc,
        if_neg (show ¬(solveDrawn sl.pair s).msc.state = .standby from hstate)]
      rfl
    · exact pageShown_flush (pageShown_solveTaken hst hdraw) st hst
  · rw [serveClaims_waits hnone hfull]
    exact ⟨rfl, rfl⟩

end Sys2Proof.Machine

/-! PROOFS. The checks of a staged record alone, leaf by leaf, and of an exit whose edge does not touch the station's node
(R2 to R13, R15, R47, R51, R109, R114, R115, R168, R191). -/

namespace Sys2Proof.Machine

open Sys2Proof.Safety

/-! ## Which codes exist -/

theorem edgeKindOf_isSome (n : Nat) : (edgeKindOf n).isSome = true ↔ n ≤ 3 := by
  unfold edgeKindOf
  split <;> simp_all
  omega

theorem riseOf_isSome (n : Nat) : (riseOf n).isSome = true ↔ n ≤ 2 := by
  unfold riseOf
  split <;> simp_all
  omega

theorem passageOf_isSome (n : Nat) : (passageOf n).isSome = true ↔ n ≤ 2 := by
  unfold passageOf
  split <;> simp_all
  omega

theorem stationKindOf_isSome (n : Nat) : (stationKindOf n).isSome = true ↔ 1 ≤ n ∧ n ≤ 3 := by
  unfold stationKindOf
  split <;> simp_all
  omega

theorem exitCodeOf_isSome (n : Nat) : (exitCodeOf n).isSome = true ↔ n ≤ 9 := by
  unfold exitCodeOf
  split <;> simp_all
  omega

theorem categoryOf_isSome (n : Nat) : (categoryOf n).isSome = true ↔ n ≤ 7 := by
  unfold categoryOf
  split <;> simp_all
  omega

theorem alarmSenseOf_isSome (n : Nat) : (alarmSenseOf n).isSome = true ↔ n ≤ 1 := by
  unfold alarmSenseOf
  split <;> simp_all
  omega

theorem isFlag_iff (n : Nat) : isFlag n = true ↔ n ≤ 1 := decide_eq_true_iff

theorem nodeOk_iff (n : Nat) : nodeOk n = true ↔ n < 1024 := decide_eq_true_iff

theorem optNode_nodeOk (n : Nat) : (optNode n).all nodeOk = true ↔ n = 65535 ∨ n < 1024 := by
  unfold optNode
  split <;> simp_all [nodeOk]

theorem byteAt_eq_zero (bs : List Byte) (o : Nat) : byteAt bs o = 0 ↔ u8 bs o = 0 :=
  ⟨fun h => by simp [u8, h], fun h => BitVec.eq_of_toNat_eq h⟩

/-! ## The edge (R4) -/

/-- A stair has a rise and no other edge has one, by the codes of both. -/
theorem riseFits_parseEdge {bs : List Byte} (hkind : u8 bs 1 ≤ 3) (hrise : u8 bs 2 ≤ 2) :
    riseFits (parseEdge bs).kind (parseEdge bs).rise = true ↔
      (u8 bs 1 = 1 → u8 bs 2 = 1 ∨ u8 bs 2 = 2) ∧ (u8 bs 1 ≠ 1 → u8 bs 2 = 0) := by
  show riseFits ((edgeKindOf (u8 bs 1)).getD .corridor) ((riseOf (u8 bs 2)).getD .level) = true ↔ _
  generalize u8 bs 1 = k at *
  generalize u8 bs 2 = r at *
  interval_cases k <;> interval_cases r <;> decide

theorem badEdge_iff (bs : List Byte) :
    badEdge bs = false ↔ u16 bs 4 < 1024 ∧ u16 bs 6 < 1024 ∧ u16 bs 4 ≠ u16 bs 6 ∧ u8 bs 1 ≤ 3 ∧ u8 bs 3 ≤ 2
      ∧ (u8 bs 1 = 1 → u8 bs 2 = 1 ∨ u8 bs 2 = 2) ∧ (u8 bs 1 ≠ 1 → u8 bs 2 = 0) ∧ u8 bs 10 ≤ 63
      ∧ zeroBytes bs 11 5 = true := by
  have hform : badEdge bs = false ↔ u16 bs 4 < 1024 ∧ u16 bs 6 < 1024 ∧ u16 bs 4 ≠ u16 bs 6 ∧ u8 bs 1 ≤ 3 ∧ u8 bs 2 ≤ 2
      ∧ riseFits (parseEdge bs).kind (parseEdge bs).rise = true ∧ u8 bs 3 ≤ 2 ∧ u8 bs 10 ≤ 63
      ∧ zeroBytes bs 11 5 = true := by
    simp only [badEdge, Bool.not_eq_false', Bool.and_eq_true, nodeOk_iff, edgeKindOf_isSome, riseOf_isSome,
      passageOf_isSome, decide_eq_true_eq, and_assoc]
    rfl
  rw [hform]
  constructor
  · rintro ⟨h1, h2, h3, h4, h5, h6, h7, h8, h9⟩
    obtain ⟨h10, h11⟩ := (riseFits_parseEdge h4 h5).1 h6
    exact ⟨h1, h2, h3, h4, h7, h10, h11, h8, h9⟩
  · rintro ⟨h1, h2, h3, h4, h7, h10, h11, h8, h9⟩
    have h5 : u8 bs 2 ≤ 2 := by
      by_cases hk : u8 bs 1 = 1
      · rcases h10 hk with h | h <;> omega
      · rw [h11 hk]
        exact Nat.zero_le _
    exact ⟨h1, h2, h3, h4, h5, (riseFits_parseEdge h4 h5).2 ⟨h10, h11⟩, h7, h8, h9⟩

/-! ## The station (R10 to R13) -/

theorem exits_checked (bs : List Byte) :
    (parseExits bs).all (fun e => decide (e.1 < 4096)) = true ↔ ∀ k, k < min 8 (u8 bs 12) → u16 bs (32 + 4 * k) < 4096 := by
  simp only [parseExits, clampNat_zero, List.all_map, List.all_eq_true, List.mem_range, Function.comp_apply,
    decide_eq_true_eq]

theorem exitBytes_checked (bs : List Byte) :
    ((List.range (clampNat 0 8 (u8 bs 12))).all fun i =>
        (exitCodeOf (u8 bs (34 + 4 * i))).isSome && byteAt bs (35 + 4 * i) == 0) = true ↔
      ∀ k, k < min 8 (u8 bs 12) → u8 bs (34 + 4 * k) ≤ 9 ∧ u8 bs (35 + 4 * k) = 0 := by
  simp only [clampNat_zero, List.all_eq_true, List.mem_range, Bool.and_eq_true, exitCodeOf_isSome, beq_iff_eq,
    byteAt_eq_zero]

theorem range_map_all_lt (f : Nat → Nat) (n b : Nat) :
    ((List.range n).map f).all (fun l => decide (l < b)) = true ↔ ∀ k, k < n → f k < b := by
  simp only [List.all_map, List.all_eq_true, List.mem_range, Function.comp_apply, decide_eq_true_eq]

/-- What the checks of a Station record ask of the fields that only one kind has. -/
theorem station_kindFields {bs : List Byte} (hkind : 1 ≤ u8 bs 1 ∧ u8 bs 1 ≤ 3) :
    ((parseStation bs).assigned < 16 ∧ (parseStation bs).rotation < 32
        ∧ (parseStation bs).landmarks.all (fun l => decide (l < 24)) = true
        ∧ (parseStation bs).served.all (fun m => decide (m < 16)) = true) ↔
      (u8 bs 1 = 1 → u8 bs 14 < 16) ∧ (u8 bs 1 ≠ 1 → u8 bs 15 < 32)
        ∧ (u8 bs 1 = 2 → ∀ k, k < min 4 (u8 bs 22) → u8 bs (24 + k) < 24)
        ∧ (u8 bs 1 ≠ 1 → ∀ k, k < min 2 (u8 bs 23) → u8 bs (28 + k) < 16) := by
  have hcases : u8 bs 1 = 1 ∨ u8 bs 1 = 2 ∨ u8 bs 1 = 3 := by omega
  rcases hcases with h | h | h
  · obtain ⟨hassigned, hrotation, -, -, -, hlandmarks, hserved⟩ := parseStation_cabin h
    simp [hassigned, hrotation, hlandmarks, hserved, h]
  · obtain ⟨hassigned, hrotation, -, -, -, hserved⟩ := parseStation_screen (.inl h)
    rw [hassigned, hrotation, hserved, parseStation_waypoint h, range_map_all_lt, range_map_all_lt]
    simp [h]
  · obtain ⟨hassigned, hrotation, -, -, -, hserved⟩ := parseStation_screen (.inr h)
    rw [hassigned, hrotation, hserved, parseStation_lobby h, range_map_all_lt]
    simp [h]

theorem badStation_iff (bs : List Byte) :
    badStation bs = false ↔ 1 ≤ u8 bs 1 ∧ u8 bs 1 ≤ 3 ∧ u16 bs 2 < 1024 ∧ u8 bs 13 ≤ 1
      ∧ zeroBytes bs 30 2 = true
      ∧ (∀ k, k < min 8 (u8 bs 12) → u16 bs (32 + 4 * k) < 4096 ∧ u8 bs (34 + 4 * k) ≤ 9 ∧ u8 bs (35 + 4 * k) = 0)
      ∧ (u8 bs 1 = 1 → u8 bs 14 < 16) ∧ (u8 bs 1 ≠ 1 → u8 bs 15 < 32)
      ∧ (u8 bs 1 = 2 → ∀ k, k < min 4 (u8 bs 22) → u8 bs (24 + k) < 24)
      ∧ (u8 bs 1 ≠ 1 → ∀ k, k < min 2 (u8 bs 23) → u8 bs (28 + k) < 16) := by
  have hnode : (parseStation bs).node = u16 bs 2 := (parseStation_fields bs).1
  have hexits : (parseStation bs).exits = parseExits bs := (parseStation_fields bs).2.2.1
  simp only [badStation, Bool.not_eq_false', Bool.and_eq_true, stationKindOf_isSome, hnode, nodeOk_iff, isFlag_iff, hexits,
    exits_checked, exitBytes_checked, decide_eq_true_eq]
  constructor
  · rintro ⟨⟨⟨⟨⟨⟨⟨⟨⟨hkind, h2⟩, h3⟩, h4⟩, h5⟩, h6⟩, h7⟩, h8⟩, h9⟩, h10⟩
    exact ⟨hkind.1, hkind.2, h2, h3, h4, fun k hk => ⟨h5 k hk, h6 k hk⟩, (station_kindFields hkind).1 ⟨h7, h8, h9, h10⟩⟩
  · rintro ⟨h0, h1, h2, h3, h4, h5, h6⟩
    obtain ⟨h7, h8, h9, h10⟩ := (station_kindFields ⟨h0, h1⟩).2 h6
    exact ⟨⟨⟨⟨⟨⟨⟨⟨⟨⟨h0, h1⟩, h2⟩, h3⟩, h4⟩, fun k hk => (h5 k hk).1⟩, fun k hk => (h5 k hk).2⟩, h7⟩, h8⟩, h9⟩, h10⟩

/-! ## The rotation (R109) -/

theorem badStep_iff (bs : List Byte) (k : Nat) :
    badStep bs k = false ↔ u8 bs (4 + 8 * k) ≤ 4 ∧ zeroBytes bs (4 + 8 * k + 5) 3 = true
      ∧ (u8 bs (4 + 8 * k) = 3 → u8 bs (4 + 8 * k + 1) < 32) ∧ (u8 bs (4 + 8 * k) = 4 → u8 bs (4 + 8 * k + 3) < k) := by
  simp only [badStep, parseStep, Bool.not_eq_false', Bool.and_eq_true, decide_eq_true_eq, and_assoc]
  refine and_congr_right fun hkind => and_congr_right fun _ => ?_
  generalize u8 bs (4 + 8 * k) = code at *
  interval_cases code <;> simp

theorem stepDwell_parseStep (bs : List Byte) (k : Nat) :
    (stepDwell (parseStep bs k)).isSome = true ↔ 1 ≤ u8 bs (4 + 8 * k) ∧ u8 bs (4 + 8 * k) ≤ 3 := by
  simp only [parseStep]
  generalize u8 bs (4 + 8 * k) = code
  match code with
  | 0 | 1 | 2 | 3 | 4 => simp [stepDwell]
  | n + 5 => simp [stepDwell]

theorem badRotation_iff (i : Nat) (bs : List Byte) :
    badRotation i bs = false ↔ i ≠ 0 ∧ zeroBytes bs 1 3 = true
      ∧ (∀ k, k < 8 → u8 bs (4 + 8 * k) ≤ 4 ∧ zeroBytes bs (4 + 8 * k + 5) 3 = true
          ∧ (u8 bs (4 + 8 * k) = 3 → u8 bs (4 + 8 * k + 1) < 32)
          ∧ (u8 bs (4 + 8 * k) = 4 → u8 bs (4 + 8 * k + 3) < k))
      ∧ ∃ k, k < 8 ∧ 1 ≤ u8 bs (4 + 8 * k) ∧ u8 bs (4 + 8 * k) ≤ 3 := by
  simp only [badRotation, parseRotation, Bool.not_eq_false', Bool.and_eq_true, decide_eq_true_eq, List.all_eq_true,
    Bool.not_eq_true', List.mem_range, badStep_iff, List.any_map, List.any_eq_true, Function.comp_apply,
    stepDwell_parseStep, and_assoc]

/-! ## The checks of each leaf -/

theorem badBytes_leaves (i : Nat) (bs : List Byte) :
    (badBytes 1 i bs = false ↔ 1 ≤ u8 bs 1 ∧ u8 bs 1 ≤ 20 ∧ zeroBytes bs 2 2 = true)
    ∧ (badBytes 4 i bs = false ↔ u8 bs 1 ≤ 1 ∧ u16 bs 2 < 1024 ∧ zeroBytes bs 5 3 = true
        ∧ (u8 bs 4 = 255 ∨ u8 bs 4 < 16 ∧ u8 bs 4 ≠ i))
    ∧ (badBytes 5 i bs = false ↔ u16 bs 2 < 1024 ∧ zeroBytes bs 1 1 = true)
    ∧ (badBytes 6 i bs = false ↔ u8 bs 1 ≤ 7 ∧ u8 bs 2 ≤ 1 ∧ zeroBytes bs 3 1 = true ∧ zeroBytes bs 14 2 = true
        ∧ (u16 bs 10 = 65535 ∨ u16 bs 10 < 1024))
    ∧ (badBytes 8 i bs = false ↔ zeroBytes bs 1 1 = true ∧ (u16 bs 2 = 65535 ∨ u16 bs 2 < 1024))
    ∧ (badBytes 10 i bs = false ↔ zeroBytes bs 1 1 = true) := by
  simp only [badBytes, badNode, badMuster, badLandmark, badProgramme, badNotice, badClock, Bool.not_eq_false',
    Bool.and_eq_true, Bool.or_eq_true, decide_eq_true_eq, beq_iff_eq, isFlag_iff, nodeOk_iff, categoryOf_isSome,
    optNode_nodeOk, and_assoc, and_self]

theorem badInterj_iff (bs : List Byte) :
    badInterj bs = false ↔ u8 bs 1 < 32 ∧ u8 bs 2 ≤ 1 ∧ zeroBytes bs 3 1 = true ∧ zeroBytes bs 19 1 = true
      ∧ min 71582788 (u32 bs 8) < min 71582788 (u32 bs 12) := by
  simp only [badInterj, parseInterj, clampNat_zero, Bool.not_eq_false', Bool.and_eq_true, decide_eq_true_eq, isFlag_iff,
    and_assoc, Config.lastMinute]

theorem badSettings_iff (bs : List Byte) :
    badSettings bs = false ↔ zeroBytes bs 10 2 = true ∧ zeroBytes bs 27 5 = true ∧ u8 bs 22 ≤ 1 := by
  simp only [badSettings, Bool.not_eq_false', Bool.and_eq_true, alarmSenseOf_isSome, and_assoc]

/-! ## An exit that its edge does not touch (R11) -/

theorem exitStranded_iff (t : TableSet) (node e : Nat) :
    exitStranded t node e = true ↔ ∃ g, tblGet t.edges e = some g ∧ g.nodeA ≠ node ∧ g.nodeB ≠ node := by
  unfold exitStranded
  cases tblGet t.edges e <;> simp

theorem strandsExit_edge (t : TableSet) (i : Nat) :
    strandsExit t 2 i = true ↔ ∃ x st a g, (x, st) ∈ t.stations ∧ (i, a) ∈ st.exits ∧ tblGet t.edges i = some g
      ∧ g.nodeA ≠ st.node ∧ g.nodeB ≠ st.node := by
  simp only [strandsExit, List.any_eq_true, Bool.and_eq_true, decide_eq_true_eq, exitStranded_iff, Prod.exists]
  constructor
  · rintro ⟨x, st, hst, k, a, ha, rfl, g, hg⟩
    exact ⟨x, st, a, g, hst, ha, hg⟩
  · rintro ⟨x, st, a, g, hst, ha, hg⟩
    exact ⟨x, st, hst, i, a, ha, rfl, g, hg⟩

theorem strandsExit_station (t : TableSet) (i : Nat) :
    strandsExit t 3 i = true ↔ ∃ st k a g, tblGet t.stations i = some st ∧ (k, a) ∈ st.exits
      ∧ tblGet t.edges k = some g ∧ g.nodeA ≠ st.node ∧ g.nodeB ≠ st.node := by
  cases hst : tblGet t.stations i with
  | none => simp [strandsExit, hst]
  | some st =>
    simp only [strandsExit, hst, Option.map_some, Option.getD_some, List.any_eq_true, exitStranded_iff, Prod.exists,
      Option.some.injEq]
    constructor
    · rintro ⟨k, a, ha, g, hg⟩
      exact ⟨st, k, a, g, rfl, ha, hg⟩
    · rintro ⟨_, k, a, g, rfl, ha, hg⟩
      exact ⟨k, a, ha, g, hg⟩

theorem strandsExit_other {t : TableSet} {leaf : Nat} (i : Nat) (h2 : leaf ≠ 2) (h3 : leaf ≠ 3) :
    strandsExit t leaf i = false := by
  unfold strandsExit
  split
  · exact absurd rfl h2
  · exact absurd rfl h3
  · rfl

/-! ## BAD_FIELD (R168) -/

theorem badField_clear {t : TableSet} {r : Staged} (h : r.bytes = none) : badField t r = false := by
  simp only [badField, h]

theorem badField_settings {t : TableSet} {r : Staged} {bs : List Byte} (hbytes : r.bytes = some bs) (h : r.leaf = 11) :
    badField t r = badSettings bs := by
  simp only [badField, hbytes, if_pos h]

theorem badField_empty {t : TableSet} {r : Staged} {bs : List Byte} (hbytes : r.bytes = some bs) (h : r.leaf ≠ 11)
    (huse : u8 bs 0 = 0) : badField t r = false := by
  simp only [badField, hbytes, if_neg h, if_pos huse]

theorem badField_badFlag {t : TableSet} {r : Staged} {bs : List Byte} (hbytes : r.bytes = some bs) (h : r.leaf ≠ 11)
    (huse : 1 < u8 bs 0) : badField t r = true := by
  have hzero : u8 bs 0 ≠ 0 := by omega
  have hflag : isFlag (u8 bs 0) = false := decide_eq_false (by omega)
  simp only [badField, hbytes, if_neg h, if_neg hzero, hflag, Bool.not_false, Bool.true_or]

theorem badField_inUse {t : TableSet} {r : Staged} {bs : List Byte} (hbytes : r.bytes = some bs) (h : r.leaf ≠ 11)
    (huse : u8 bs 0 = 1) : badField t r = (badBytes r.leaf r.index bs || strandsExit t r.leaf (tableIndex r)) := by
  have hzero : u8 bs 0 ≠ 0 := by omega
  have hflag : isFlag (u8 bs 0) = true := decide_eq_true (by omega)
  simp only [badField, hbytes, if_neg h, if_neg hzero, hflag, Bool.not_true, Bool.false_or]

/-- Settles O45: the checks are turned into statements about the bytes leaf by leaf, and an exit stranded by its edge is
met at the edge's record and at the station's. -/
theorem badFields : Obligations.BadFields := by
  unfold Obligations.BadFields
  refine ⟨fun t r => ⟨badField_clear, fun bs hbytes => ⟨fun h => ?_, fun h => ⟨badField_empty hbytes h,
    badField_badFlag hbytes h, fun huse => ⟨fun h2 h3 => ?_, fun h2 => ?_, fun h3 => ?_⟩⟩⟩⟩, fun i bs => ?_⟩
  · rw [badField_settings hbytes h]
    exact badSettings_iff bs
  · rw [badField_inUse hbytes h huse, strandsExit_other _ h2 h3, Bool.or_false]
  · rw [badField_inUse hbytes h huse, Bool.or_eq_true, tableIndex_of_ne (by omega), h2, strandsExit_edge]
  · rw [badField_inUse hbytes h huse, Bool.or_eq_true, h3, strandsExit_station, tableIndex, if_pos h3]
    simp only [stationNumber, Nat.mul_comm r.sub, Config.stationsPerLine]
  · obtain ⟨h1, h4, h5, h6, h8, h10⟩ := badBytes_leaves i bs
    exact ⟨h1, badEdge_iff bs, badStation_iff bs, h4, h5, h6, badRotation_iff i bs, h8, badInterj_iff bs, h10⟩

end Sys2Proof.Machine

/-! PROOFS. The entries of a notice by their bytes, and the check each one fails (R161, R163, R164, R193, R194). -/

namespace Sys2Proof.Machine

open Sys2Proof.Safety

/-! ## An entry by its bytes -/

theorem zeroBytes_one (bs : List Byte) (o : Nat) : zeroBytes bs o 1 = true ↔ u8 bs o = 0 := by
  simp only [zeroBytes, List.range_one, List.all_cons, List.all_nil, Bool.and_true, beq_iff_eq, Nat.add_zero,
    byteAt_eq_zero]

theorem zeroBytes_two (bs : List Byte) (o : Nat) : zeroBytes bs o 2 = true ↔ u16 bs o = 0 := by
  have hrange : List.range 2 = [0, 1] := rfl
  simp only [zeroBytes, hrange, List.all_cons, List.all_nil, Bool.and_true, Bool.and_eq_true, beq_iff_eq, byteAt_eq_zero,
    u16, Nat.add_zero]
  omega

/-- The reserved bytes of a single PUT or CLEAR are 0 exactly when its third byte and its count field are. -/
theorem zeroBytes_single (bs : List Byte) (i : Nat) :
    (zeroBytes bs (8 * i + 3) 1 && zeroBytes bs (8 * i + 6) 2) = true ↔ u8 bs (8 * i + 3) = 0 ∧ u16 bs (8 * i + 6) = 0 := by
  rw [Bool.and_eq_true, zeroBytes_one, zeroBytes_two]

theorem ite_zeroBytes_single {α : Type} {bs : List Byte} {i : Nat} (a b : α) (h : u8 bs (8 * i + 3) = 0) :
    (if (zeroBytes bs (8 * i + 3) 1 && zeroBytes bs (8 * i + 6) 2) = true then a else b)
      = if u16 bs (8 * i + 6) = 0 then a else b := by
  by_cases hcount : u16 bs (8 * i + 6) = 0
  · rw [if_pos ((zeroBytes_single bs i).2 ⟨h, hcount⟩), if_pos hcount]
  · rw [if_neg fun hs => hcount ((zeroBytes_single bs i).1 hs).2, if_neg hcount]

theorem parseEntry_unknown {bs : List Byte} {i : Nat} (h : u8 bs (8 * i) = 0 ∨ 5 < u8 bs (8 * i)) :
    parseEntry bs i = .bad none := by
  simp only [parseEntry]
  generalize u8 bs (8 * i) = kind at *
  match kind with
  | 0 => rfl
  | 1 | 2 | 3 | 4 | 5 => omega
  | n + 6 => rfl

theorem parseEntry_setClock {bs : List Byte} {i : Nat} (h : u8 bs (8 * i) = 5) :
    parseEntry bs i = if zeroBytes bs (8 * i + 1) 3 then .setClock (BitVec.ofNat 32 (u32 bs (8 * i + 4))) else .bad none := by
  simp only [parseEntry, h]

theorem parseEntry_put {bs : List Byte} {i : Nat} (h : u8 bs (8 * i) = 1) (hzero : u8 bs (8 * i + 3) = 0) :
    parseEntry bs i = if u16 bs (8 * i + 6) = 0 then
      .put (u8 bs (8 * i + 1)) (u8 bs (8 * i + 2)) (u16 bs (8 * i + 4)) 1 true else .bad (some (u8 bs (8 * i + 1))) := by
  simp only [parseEntry, h]
  exact ite_zeroBytes_single _ _ hzero

theorem parseEntry_putRange {bs : List Byte} {i : Nat} (h : u8 bs (8 * i) = 2) (hzero : u8 bs (8 * i + 3) = 0) :
    parseEntry bs i =
      .put (u8 bs (8 * i + 1)) (u8 bs (8 * i + 2)) (u16 bs (8 * i + 4)) (u16 bs (8 * i + 6)) false := by
  simp only [parseEntry, h]
  exact if_pos ((zeroBytes_one bs _).2 hzero)

theorem parseEntry_clear {bs : List Byte} {i : Nat} (h : u8 bs (8 * i) = 3) (hzero : u8 bs (8 * i + 3) = 0) :
    parseEntry bs i = if u16 bs (8 * i + 6) = 0 then
      .clear (u8 bs (8 * i + 1)) (u8 bs (8 * i + 2)) (u16 bs (8 * i + 4)) 1 true else .bad (some (u8 bs (8 * i + 1))) := by
  simp only [parseEntry, h]
  exact ite_zeroBytes_single _ _ hzero

theorem parseEntry_clearRange {bs : List Byte} {i : Nat} (h : u8 bs (8 * i) = 4) (hzero : u8 bs (8 * i + 3) = 0) :
    parseEntry bs i =
      .clear (u8 bs (8 * i + 1)) (u8 bs (8 * i + 2)) (u16 bs (8 * i + 4)) (u16 bs (8 * i + 6)) false := by
  simp only [parseEntry, h]
  exact if_pos ((zeroBytes_one bs _).2 hzero)

/-- A reserved byte that is not 0 spoils each of the four kinds that name a record. -/
theorem parseEntry_reserved {bs : List Byte} {i : Nat} (hzero : u8 bs (8 * i + 3) ≠ 0) (hlow : 1 ≤ u8 bs (8 * i))
    (hhigh : u8 bs (8 * i) ≤ 4) : parseEntry bs i = .bad (some (u8 bs (8 * i + 1))) := by
  have hone : ¬ zeroBytes bs (8 * i + 3) 1 = true := fun h => hzero ((zeroBytes_one bs _).1 h)
  have hsingle : ¬ (zeroBytes bs (8 * i + 3) 1 && zeroBytes bs (8 * i + 6) 2) = true :=
    fun h => hzero ((zeroBytes_single bs i).1 h).1
  simp only [parseEntry]
  generalize u8 bs (8 * i) = kind at *
  match kind with
  | 0 => omega
  | 1 | 3 => exact if_neg hsingle
  | 2 | 4 => exact if_neg hone
  | n + 5 => omega

/-! ## The checks of a range of records -/

theorem leafExists_iff (g : Staging) (leaf sub : Nat) :
    leafExists g leaf sub = true ↔ 1 ≤ leaf ∧ leaf ≤ g.highest ∧ (leaf = 3 → sub ≤ 7) ∧ (leaf ≠ 3 → sub = 0) := by
  simp only [leafExists, Bool.and_eq_true, decide_eq_true_eq, and_assoc]
  by_cases h : leaf = 3 <;> simp [h]

section Ranges

variable {g : Staging} {n leaf sub first count : Nat} {put : Bool}

theorem rangeFailure_noLeaf (h : leafExists g leaf sub = false) :
    rangeFailure g n leaf sub first count put = some (entryFailure .badLeaf n (some leaf) none) := by
  rw [rangeFailure, h]
  rfl

theorem rangeFailure_wrongSize (hput : put = true) (hsize : (tableEntry g leaf sub).size ≠ recordSize leaf) :
    rangeFailure g n leaf sub first count put = some (entryFailure .badLeaf n (some leaf) none) := by
  cases hleaf : leafExists g leaf sub with
  | false => exact rangeFailure_noLeaf hleaf
  | true => simp [rangeFailure, hleaf, hput, hsize]

/-- The checks that are left for a range of a leaf that exists, with its record size right where that is checked. -/
theorem rangeFailure_of_leaf (hleaf : leafExists g leaf sub = true)
    (hsize : put = true → (tableEntry g leaf sub).size = recordSize leaf) :
    rangeFailure g n leaf sub first count put =
      if 0 < count ∧ countInForce g leaf sub < first + count then
        some (entryFailure .badIndex n (some leaf) (some (max first (countInForce g leaf sub))))
      else if Config.stageCapacity < g.staged.length + newRecords g.staged leaf sub first count then
        some (entryFailure .oversize n (some leaf) none)
      else none := by
  have hsized : ¬ (put && decide ((tableEntry g leaf sub).size ≠ recordSize leaf)) = true := by
    rw [Bool.and_eq_true, decide_eq_true_eq]
    exact fun h => h.2 (hsize h.1)
  have hexists : ¬ (!leafExists g leaf sub) = true := by simp [hleaf]
  rw [rangeFailure, if_neg hexists, if_neg hsized]

theorem rangeFailure_badIndex {i : Nat} (hleaf : leafExists g leaf sub = true)
    (hsize : put = true → (tableEntry g leaf sub).size = recordSize leaf) (hlow : first ≤ i) (hhigh : i < first + count)
    (hbeyond : countInForce g leaf sub ≤ i) (hfirst : ∀ j, first ≤ j → j < i → j < countInForce g leaf sub) :
    rangeFailure g n leaf sub first count put = some (entryFailure .badIndex n (some leaf) (some i)) := by
  have hmax : max first (countInForce g leaf sub) = i := by
    by_cases h : first = i
    · omega
    · have := hfirst (i - 1) (by omega) (by omega)
      omega
  rw [rangeFailure_of_leaf hleaf hsize, if_pos (by omega), hmax]

theorem rangeFailure_inForce (hleaf : leafExists g leaf sub = true)
    (hsize : put = true → (tableEntry g leaf sub).size = recordSize leaf)
    (hin : ∀ i, first ≤ i → i < first + count → i < countInForce g leaf sub) :
    rangeFailure g n leaf sub first count put =
      if Config.stageCapacity < g.staged.length + newRecords g.staged leaf sub first count then
        some (entryFailure .oversize n (some leaf) none)
      else none := by
  have hindex : ¬ (0 < count ∧ countInForce g leaf sub < first + count) := by
    rintro ⟨hcount, hbeyond⟩
    have := hin (first + count - 1) (by omega) (by omega)
    omega
  rw [rangeFailure_of_leaf hleaf hsize, if_neg hindex]

/-- An entry that names records is checked as its range, whether it is a PUT or a CLEAR. -/
theorem checkEntry_range (g : Staging) (n leaf sub first count : Nat) (single put : Bool) :
    checkEntry g n (if put then .put leaf sub first count single else .clear leaf sub first count single)
      = rangeFailure g n leaf sub first count put := by
  cases put <;> rfl

/-- Why a leaf with its subleaf does not exist. -/
theorem leafExists_of_not (hhigh : g.highest ≤ 11)
    (h : leaf = 0 ∨ 11 < leaf ∨ g.highest < leaf ∨ leaf = 3 ∧ 7 < sub ∨ leaf ≠ 3 ∧ sub ≠ 0) :
    leafExists g leaf sub = false := by
  refine Bool.eq_false_iff.2 fun hleaf => ?_
  obtain ⟨h1, h2, h3, h4⟩ := (leafExists_iff g leaf sub).1 hleaf
  rcases h with h | h | h | ⟨h, h'⟩ | ⟨h, h'⟩
  · omega
  · omega
  · omega
  · have := h3 h
    omega
  · exact h' (h4 h)

end Ranges

/-- Settles O44: the five kinds are read off the first byte and the reserved bytes, and a range entry goes through its
checks one by one. -/
theorem entryChecks : Obligations.EntryChecks := by
  unfold Obligations.EntryChecks
  refine ⟨?_, ?_, ?_, rfl, rfl⟩
  · rintro bs i leaf sub first count rfl rfl rfl rfl
    exact ⟨parseEntry_unknown, parseEntry_setClock, fun hzero => ⟨fun h => parseEntry_put h hzero,
      fun h => parseEntry_putRange h hzero, fun h => parseEntry_clear h hzero, fun h => parseEntry_clearRange h hzero⟩,
      parseEntry_reserved⟩
  · refine fun g n => ⟨fun leaf => rfl, fun v hclock => ?_, fun v hclock => ?_⟩
    · simp only [checkEntry, hclock, Option.isSome_none, Bool.false_eq_true, if_false]
    · simp only [checkEntry, Option.isSome_iff_ne_none.2 hclock, if_true]
      rfl
  · rintro g n leaf sub first count single put e inForce hhigh rfl rfl
    rw [checkEntry_range]
    refine ⟨fun h => ?_, fun hlow hleaf hline hzero hsize => ?_⟩
    · rcases h with h | h | h | h | h | ⟨hput, hsize⟩
      · exact rangeFailure_noLeaf (leafExists_of_not hhigh (.inl h))
      · exact rangeFailure_noLeaf (leafExists_of_not hhigh (.inr (.inl h)))
      · exact rangeFailure_noLeaf (leafExists_of_not hhigh (.inr (.inr (.inl h))))
      · exact rangeFailure_noLeaf (leafExists_of_not hhigh (.inr (.inr (.inr (.inl h)))))
      · exact rangeFailure_noLeaf (leafExists_of_not hhigh (.inr (.inr (.inr (.inr h)))))
      · exact rangeFailure_wrongSize hput hsize
    · have hexists : leafExists g leaf sub = true := (leafExists_iff g leaf sub).2 ⟨hlow, hleaf, hline, hzero⟩
      exact ⟨fun i => rangeFailure_badIndex hexists hsize, rangeFailure_inForce hexists hsize⟩

end Sys2Proof.Machine

/-! PROOFS. The change of one line record with the tests that follow it, and what an answer on a line comes to (R72, R84, R85,
R126, R137, R142). -/

namespace Sys2Proof.Machine

open Sys2Proof.Safety

/-! ## The recount (R72, R85) -/

/-- A recount does nothing, or ends CALLED, and after that may escalate: no call comes of it. -/
theorem recount_cases (s : State) :
    recount s = s ∨ s.msc.state = .called
      ∧ (recount s = enterMustering s ∨ recount s = escalate (enterMustering s)) := by
  unfold recount
  by_cases h : tallyComplete s = true
  · rw [if_pos h]
    refine .inr ⟨((tallyComplete_iff s).1 h).1, ?_⟩
    by_cases hd : AlarmDemands (enterMustering s)
    · by_cases hkind : (enterMustering s).msc.kind = .real
      · exact .inl (by rw [endCalled, levelTest_of_real (s := enterMustering s) (.inr rfl) hkind]; rfl)
      · refine .inr ?_
        rw [endCalled, levelTest_of_demands hd, realCall_of_drill (s := enterMustering s) (.inr rfl) hkind]
        rfl
    · exact .inl (by rw [endCalled, levelTest_of_not hd]; rfl)
  · rw [if_neg h]
    exact .inl rfl

theorem recount_of_not_called {s : State} (h : s.msc.state ≠ .called) : recount s = s :=
  (recount_cases s).resolve_right fun hc => h hc.1

theorem adds_recount (s : State) : Adds s.xu (recount s).xu := by
  have hended : Adds s.xu (enterMustering s).xu := adds_enterMustering (Adds.refl s.xu)
  rcases recount_cases s with h | ⟨-, h | h⟩
  · rw [h]
    exact Adds.refl s.xu
  · rw [h]
    exact hended
  · rw [h]
    exact adds_escalate hended

@[simp] theorem otherCounts_escalate (s : State) : otherCounts (escalate s).xu = otherCounts s.xu := by
  rw [escalate_eq, otherCounts_completeTest]
  exact otherCounts_announceMuster _

@[simp] theorem otherCounts_enterMustering (s : State) : otherCounts (enterMustering s).xu = otherCounts s.xu :=
  otherCounts_announceMuster _

@[simp] theorem otherCounts_recount (s : State) : otherCounts (recount s).xu = otherCounts s.xu := by
  rcases recount_cases s with h | ⟨-, h | h⟩
  · rw [h]
  · rw [h, otherCounts_enterMustering]
  · rw [h, otherCounts_escalate, otherCounts_enterMustering]

/-! ## What a recount leaves before the report writes begin -/

/-- What `RecountTaken` says, of the state before the report writes that are due begin. -/
def RecountLeft (c : MscState) (s u : State) : Prop :=
  (c.state ≠ .called → u.msc = c)
    ∧ (c.state = .called → AlarmAnswered s →
        (AllConfirmed u c.serial →
          u.msc = { c with state := .mustering, calledTimer := none } ∧ PagesShown u ∧ ReportAsked 2 u.xu)
        ∧ (¬AllConfirmed u c.serial → u.msc = c))

theorem allConfirmed_flush (u : State) (k : Word16) : AllConfirmed (flush u) k ↔ AllConfirmed u k :=
  allConfirmed_congr (s := u) (u := flush u) rfl rfl rfl rfl k

theorem recountTaken_flush {c : MscState} {s u : State} (h : RecountLeft c s u) (hbase : baseValid u.xu = baseValid s.xu) :
    RecountTaken c s (flush u) := by
  obtain ⟨hother, hcalled⟩ := h
  refine ⟨hother, fun hc ha => ?_⟩
  obtain ⟨hall, hnot⟩ := hcalled hc ha
  refine ⟨fun h => ?_, fun h => hnot fun hu => h ((allConfirmed_flush u _).2 hu)⟩
  obtain ⟨hmsc, hpages, hreport⟩ := hall ((allConfirmed_flush u _).1 h)
  exact ⟨hmsc, pagesShown_flush hpages, reportTold_flush hreport hbase⟩

theorem recountLeft_composeMarked {c : MscState} {s u : State} (h : RecountLeft c s u) (m : List Nat) :
    RecountLeft c s (composeMarked m u) := by
  have hconf : AllConfirmed (composeMarked m u) c.serial ↔ AllConfirmed u c.serial :=
    allConfirmed_congr (s := u) (u := composeMarked m u) rfl rfl rfl rfl _
  obtain ⟨hother, hcalled⟩ := h
  refine ⟨hother, fun hc ha => ?_⟩
  obtain ⟨hall, hnot⟩ := hcalled hc ha
  refine ⟨fun h => ?_, fun h => hnot fun hu => h (hconf.2 hu)⟩
  obtain ⟨hmsc, hpages, hreport⟩ := hall (hconf.1 h)
  exact ⟨hmsc, pagesShown_composeMarked hpages m, hreport.mono (adds_composeMarked m (Adds.refl u.xu)).holds⟩

theorem recountLeft_recount {s v : State} (hmsc : v.msc = s.msc) (hsms : v.sms = s.sms) :
    RecountLeft s.msc s (recount v) := by
  refine ⟨fun hne => ?_, fun hcalled ha => ?_⟩
  · rw [recount_of_not_called (hmsc ▸ hne), hmsc]
  · have hanswered : AlarmAnswered v := by
      rw [alarmAnswered_iff, hmsc, hsms]
      exact ha
    have hconf : AllConfirmed (completeTest v) s.msc.serial ↔ AllConfirmed v v.msc.serial := by
      rw [hmsc]
      refine allConfirmed_congr (s := v) (u := completeTest v) rfl rfl rfl ?_ _
      rw [completeTest_msc]
      split <;> rfl
    rw [recount_of_answered hanswered]
    refine ⟨fun hall => ?_, fun hnot => ?_⟩
    · rw [completeTest_of_confirmed (hmsc ▸ hcalled) (hconf.1 hall)]
      refine ⟨?_, pagesShown_enterMustering v, reportAsked_announceMuster _⟩
      rw [← hmsc]
      rfl
    · rw [completeTest_of_not fun hc => hnot (hconf.2 hc.2), hmsc]

/-! ## The record of a station changes (R137, R142) -/

/-- The state that `u` becomes when the record of station `x` changes from that of `s` to `r`, with the tests that follow. -/
structure RecordTaken (x : Nat) (r : LineRec) (s u : State) : Prop where
  record : Shedding r (lineRec u.lcs x)
  others : ∀ y, y ≠ x → lineRec u.lcs y = lineRec s.lcs y
  sms : u.sms = s.sms
  clk : u.clk = s.clk
  msc : RecountLeft s.msc s u
  shed : (lineRec u.lcs x).shed = true ↔
    r.shed = true ∨ shedCondition { s with lcs := setLineRec x r s.lcs } x r = true

/-- Shed is set by the test of R142, and by nothing else. -/
theorem shedAt_shed (x : Nat) (s : State) :
    (lineRec (shedAt x s).lcs x).shed = true ↔ (lineRec s.lcs x).shed = true ∨ shedCondition s x (lineRec s.lcs x) = true := by
  simp only [shedAt]
  by_cases h : shedCondition s x (lineRec s.lcs x) = true
  · rw [if_pos h, lineRec_set_self]
    exact ⟨fun _ => .inr h, fun _ => rfl⟩
  · rw [if_neg h]
    exact ⟨.inl, fun hs => hs.resolve_right h⟩

theorem recount_lineRec (s : State) (x : Nat) : lineRec (recount s).lcs x = lineRec s.lcs x := (recount_kept s).lineRec x

theorem recordTaken_withRecord (x : Nat) (r : LineRec) {s v : State} (hsms : v.sms = s.sms) (hmsc : v.msc = s.msc)
    (hpco : v.pco = s.pco) (hclk : v.clk = s.clk) (hrecs : v.lcs.recs = s.lcs.recs) :
    RecordTaken x r s (withRecord x r v) where
  record := (withRecord_recs x r v).1
  others := fun y hy => ((withRecord_recs x r v).2 y hy).trans (lineRec_of_recs hrecs y)
  sms := hsms
  clk := hclk
  msc := recountLeft_recount (v := shedAt x { v with lcs := setLineRec x r v.lcs }) hmsc hsms
  shed := by
    have hself : lineRec (setLineRec x r v.lcs) x = r := lineRec_set_self x r v.lcs
    rw [withRecord, recount_lineRec, shedAt_shed, hself]
    have hcond : shedCondition { v with lcs := setLineRec x r v.lcs } x r
        = shedCondition { s with lcs := setLineRec x r s.lcs } x r := by
      simp only [shedCondition, excluded, lineStatus, hsms, hpco, hmsc, lineRec_set_self]
    rw [hcond]

theorem recordTaken_finishTxn (n x idle : Nat) (r : LineRec) {s v : State} (hsms : v.sms = s.sms) (hmsc : v.msc = s.msc)
    (hpco : v.pco = s.pco) (hclk : v.clk = s.clk) (hlcs : v.lcs = s.lcs) :
    RecordTaken x r s (finishTxn n x idle r v) :=
  recordTaken_withRecord x r (s := s) (v := { v with lcs := setLine n (endTxn idle (lineAt v.lcs n)) v.lcs }) hsms hmsc hpco
    hclk (congrArg LcsState.recs hlcs :)

theorem adds_withRecord (x : Nat) (r : LineRec) (v : State) : Adds v.xu (withRecord x r v).xu :=
  adds_recount (shedAt x { v with lcs := setLineRec x r v.lcs })

theorem otherCounts_withRecord (x : Nat) (r : LineRec) (v : State) : otherCounts (withRecord x r v).xu = otherCounts v.xu :=
  otherCounts_recount (shedAt x { v with lcs := setLineRec x r v.lcs })

theorem adds_finishTxn (n x idle : Nat) (r : LineRec) (v : State) : Adds v.xu (finishTxn n x idle r v).xu :=
  adds_withRecord x r { v with lcs := setLine n (endTxn idle (lineAt v.lcs n)) v.lcs }

theorem otherCounts_finishTxn (n x idle : Nat) (r : LineRec) (v : State) :
    otherCounts (finishTxn n x idle r v).xu = otherCounts v.xu :=
  otherCounts_withRecord x r { v with lcs := setLine n (endTxn idle (lineAt v.lcs n)) v.lcs }

theorem finishTxn_txn {n : Nat} (x idle : Nat) (r : LineRec) {v : State} (h : n < v.lcs.lines.length) :
    (lineAt (finishTxn n x idle r v).lcs n).txn = none := lineFrame_txn (finishTxn_line x idle r h)

theorem finishTxn_idle {n : Nat} (x idle : Nat) (r : LineRec) {v : State} (h : n < v.lcs.lines.length) :
    (lineAt (finishTxn n x idle r v).lcs n).idle = idle := lineFrame_idle (finishTxn_line x idle r h)

/-! ## What the shed flag does not touch -/

section Shed

variable {r q : LineRec} (h : Shedding r q)

include h

/-- A record whose shed flag may have been set is otherwise the same. -/
theorem shedding_frame : { q with shed := r.shed } = r := by
  rcases h with rfl | rfl <;> rfl

theorem shedding_conf : (q.confSerial, q.confKind, q.confMuster) = (r.confSerial, r.confKind, r.confMuster) :=
  (congrArg (fun a : LineRec => (a.confSerial, a.confKind, a.confMuster)) (shedding_frame h) :)

theorem shedding_waiting : q.waiting = r.waiting := (congrArg LineRec.waiting (shedding_frame h) :)

theorem shedding_door : q.door = r.door := (congrArg LineRec.door (shedding_frame h) :)

theorem shedding_errors : q.errors = r.errors := (congrArg LineRec.errors (shedding_frame h) :)

theorem shedding_heard : (q.heard, q.misses, q.lastHeard) = (r.heard, r.misses, r.lastHeard) :=
  (congrArg (fun a : LineRec => (a.heard, a.misses, a.lastHeard)) (shedding_frame h) :)

theorem shedding_flags : (q.busy, q.dnd, q.fault, q.baseline) = (r.busy, r.dnd, r.fault, r.baseline) :=
  (congrArg (fun a : LineRec => (a.busy, a.dnd, a.fault, a.baseline)) (shedding_frame h) :)

end Shed

/-! ## A valid answer was taken (R128, R137) -/

/-- A record of a station heard at this voyage second, with misses 0. -/
def Heard (s : State) (r : LineRec) : Prop := r.heard = true ∧ r.misses = 0 ∧ r.lastHeard = some s.clk.second

theorem heardFrom_of {x : Nat} {r : LineRec} {s t : State} (h : Shedding r (lineRec t.lcs x)) (hr : Heard s r)
    (hsms : t.sms = s.sms) : HeardFrom s t x := by
  obtain ⟨hheard, hmisses, hlast⟩ := hr
  have hall := shedding_heard h
  rw [hheard, hmisses, hlast] at hall
  injection hall with h1 h2
  injection h2 with h2 h3
  refine ⟨h1, h2, h3, fun hconf hlimit => ?_⟩
  have hpos : ¬ s.sms.settings.missLimit ≤ 0 := by omega
  rw [lineStatus, h1, h2, hsms, hconf]
  simp only [statusOf, hpos, Bool.not_true, Bool.false_eq_true, if_false, if_true]

end Sys2Proof.Machine

/-! PROOFS. STATE answers, and what the reserve regime sheds (R95, R128, R129, R134 to R137, R142, R150). -/

namespace Sys2Proof.Machine

open Sys2Proof.Safety

theorem confirmedPage_eq (s : State) (x : Nat) : confirmedPage s x = recConf (lineRec s.lcs x) := rfl

/-! ## The comparison of R134 -/

theorem matchesWaiting_of_eq {serial : Word16} {r : LineRec} {w : Waiting} (h : r.waiting = some w) (hs : serial = w.serial) :
    matchesWaiting serial r = some w := by
  simp [matchesWaiting, h, Option.filter, hs]

theorem matchesWaiting_of_ne {serial : Word16} {r : LineRec} (h : ∀ w, r.waiting = some w → serial ≠ w.serial) :
    matchesWaiting serial r = none := by
  unfold matchesWaiting
  cases hw : r.waiting with
  | none => rfl
  | some w => simp [Option.filter, Ne.symm (h w hw)]

theorem confirmedBy_same {serial : Word16} {r : LineRec} (h : serial = r.confSerial) : confirmedBy serial r = r := if_pos h

theorem confirmedBy_waiting {serial : Word16} {r : LineRec} {w : Waiting} (hne : serial ≠ r.confSerial)
    (hw : r.waiting = some w) (hs : serial = w.serial) : confirmedBy serial r = confirmWaiting w r := by
  rw [confirmedBy, if_neg hne, matchesWaiting_of_eq hw hs]

theorem confirmedBy_none {serial : Word16} {r : LineRec} (hne : serial ≠ r.confSerial)
    (h : ∀ w, r.waiting = some w → serial ≠ w.serial) : confirmedBy serial r = confirmNone serial r := by
  rw [confirmedBy, if_neg hne, matchesWaiting_of_ne h]

theorem confirmedBy_waiting_kept {serial : Word16} {r : LineRec} (h : ∀ w, r.waiting = some w → serial ≠ w.serial) :
    (confirmedBy serial r).waiting = r.waiting := by
  by_cases hne : serial = r.confSerial
  · rw [confirmedBy_same hne]
  · rw [confirmedBy_none hne h]
    rfl

/-- The comparison touches the confirmed page and the waiting record alone. -/
theorem confirmedBy_frame (serial : Word16) (r : LineRec) :
    { confirmedBy serial r with
      confSerial := r.confSerial, confKind := r.confKind, confMuster := r.confMuster, waiting := r.waiting } = r := by
  unfold confirmedBy
  split
  · rfl
  · split <;> rfl

theorem dropUnshown_frame (a : StateFields) (r : LineRec) : { dropUnshown a r with waiting := r.waiting } = r := by
  unfold dropUnshown
  split
  · split <;> rfl
  · rfl

theorem dropUnshown_none {a : StateFields} {r : LineRec} (h : r.waiting = none) : dropUnshown a r = r := by
  rw [dropUnshown, h]

theorem dropUnshown_waiting {a : StateFields} {r : LineRec} {w : Waiting} (h : r.waiting = some w) (hs : a.serial ≠ w.serial) :
    (dropUnshown a r).waiting = if a.busy = true then some w else none := by
  rw [dropUnshown, h]
  cases hb : a.busy <;> simp [hs, h]

/-- The presses touch the door alone. -/
theorem pressEffect_frame (masked : Bool) (a : StateFields) (r : LineRec) :
    { (pressEffect masked a r).record with door := r.door } = r := by
  unfold pressEffect
  split
  · rfl
  · rfl

theorem baselineConfirm_waiting {serial : Word16} {r : LineRec} {w : Waiting} (hw : r.waiting = some w) (hs : serial = w.serial) :
    baselineConfirm serial r = confirmWaiting w r := by
  rw [baselineConfirm, matchesWaiting_of_eq hw hs]

theorem baselineConfirm_none {serial : Word16} {r : LineRec} (h : ∀ w, r.waiting = some w → serial ≠ w.serial) :
    baselineConfirm serial r = confirmNone 0 r := by
  rw [baselineConfirm, matchesWaiting_of_ne h]

/-! ## The record that a STATE leaves -/

/-- The record after a STATE whose presses count, before they are counted (R134). -/
def comparedRec (a : StateFields) (r : LineRec) : LineRec := dropUnshown a (confirmedBy a.serial (copyFlags a r))

/-- The record after a baseline or FRESH STATE, before its counters are taken (R135, R136). -/
def rebasedRec (a : StateFields) (r : LineRec) : LineRec :=
  if a.fresh then { confirmNone 0 (copyFlags a r) with waiting := none, baseline := true }
  else { baselineConfirm a.serial (copyFlags a r) with baseline := true }

theorem stateEffect_compared {masked : Bool} {a : StateFields} {r : LineRec} (hbase : r.baseline = true)
    (hfresh : a.fresh = false) : stateEffect masked a r = pressEffect masked a (comparedRec a r) := by
  have hq : (copyFlags a r).baseline = true := hbase
  simp only [stateEffect, hfresh, hq, Bool.not_true, Bool.false_eq_true, if_false]
  rfl

theorem stateEffect_rebased {masked : Bool} {a : StateFields} {r : LineRec} (h : r.baseline = false ∨ a.fresh = true) :
    stateEffect masked a r = baselineEffect a (rebasedRec a r) := by
  unfold stateEffect rebasedRec
  by_cases hfresh : a.fresh = true
  · simp only [hfresh, if_true]
  · have hq : (copyFlags a r).baseline = false := h.resolve_right hfresh
    simp only [hfresh, hq, Bool.not_false, if_true, Bool.false_eq_true, if_false]

theorem comparedRec_frame (a : StateFields) (r : LineRec) :
    { comparedRec a r with
      confSerial := r.confSerial, confKind := r.confKind, confMuster := r.confMuster, waiting := r.waiting }
      = copyFlags a r :=
  (congrArg (fun q : LineRec =>
      { q with confSerial := r.confSerial, confKind := r.confKind, confMuster := r.confMuster, waiting := r.waiting })
    (dropUnshown_frame a (confirmedBy a.serial (copyFlags a r))) :).trans (confirmedBy_frame a.serial (copyFlags a r))

theorem comparedRec_conf (a : StateFields) (r : LineRec) :
    recConf (comparedRec a r) = recConf (confirmedBy a.serial (copyFlags a r)) :=
  (congrArg recConf (dropUnshown_frame a (confirmedBy a.serial (copyFlags a r))) :)

theorem comparedRec_same {a : StateFields} {r : LineRec} (h : a.serial = r.confSerial) :
    recConf (comparedRec a r) = recConf r := by
  rw [comparedRec_conf, confirmedBy_same (r := copyFlags a r) h]
  rfl

theorem comparedRec_waiting {a : StateFields} {r : LineRec} {w : Waiting} (hne : a.serial ≠ r.confSerial)
    (hw : r.waiting = some w) (hs : a.serial = w.serial) :
    recConf (comparedRec a r) = (w.serial, some w.kind, w.musterSerial) ∧ (comparedRec a r).waiting = none := by
  have hby : confirmedBy a.serial (copyFlags a r) = confirmWaiting w (copyFlags a r) :=
    confirmedBy_waiting (r := copyFlags a r) hne hw hs
  have hdrop : comparedRec a r = confirmWaiting w (copyFlags a r) := by
    rw [comparedRec, hby]
    exact dropUnshown_none rfl
  rw [hdrop]
  exact ⟨rfl, rfl⟩

theorem comparedRec_none {a : StateFields} {r : LineRec} (hne : a.serial ≠ r.confSerial)
    (h : ∀ w, r.waiting = some w → a.serial ≠ w.serial) : recConf (comparedRec a r) = (a.serial, none, 0) := by
  rw [comparedRec_conf, confirmedBy_none (r := copyFlags a r) hne h]
  rfl

theorem comparedRec_unshown {a : StateFields} {r : LineRec} {w : Waiting} (hw : r.waiting = some w) (hs : a.serial ≠ w.serial) :
    (comparedRec a r).waiting = if a.busy = true then some w else none := by
  have hkept : (confirmedBy a.serial (copyFlags a r)).waiting = some w := by
    rw [confirmedBy_waiting_kept (r := copyFlags a r) fun v hv => ?_]
    · exact hw
    · have hvw : v = w := Option.some.inj (hv.symm.trans hw)
      rwa [hvw]
  exact dropUnshown_waiting hkept hs

theorem rebasedRec_frame (a : StateFields) (r : LineRec) :
    { rebasedRec a r with
      confSerial := r.confSerial, confKind := r.confKind, confMuster := r.confMuster, waiting := r.waiting }
      = { copyFlags a r with baseline := true } := by
  unfold rebasedRec
  split
  · rfl
  · unfold baselineConfirm
    split <;> rfl

theorem rebasedRec_fresh {a : StateFields} (r : LineRec) (h : a.fresh = true) :
    recConf (rebasedRec a r) = (0, none, 0) ∧ (rebasedRec a r).waiting = none := by
  rw [rebasedRec, if_pos h]
  exact ⟨rfl, rfl⟩

theorem rebasedRec_waiting {a : StateFields} {r : LineRec} {w : Waiting} (hfresh : a.fresh = false)
    (hw : r.waiting = some w) (hs : a.serial = w.serial) :
    recConf (rebasedRec a r) = (w.serial, some w.kind, w.musterSerial) ∧ (rebasedRec a r).waiting = none := by
  rw [rebasedRec, if_neg (Bool.not_eq_true _ ▸ hfresh), baselineConfirm_waiting (r := copyFlags a r) hw hs]
  exact ⟨rfl, rfl⟩

theorem rebasedRec_none {a : StateFields} {r : LineRec} (hfresh : a.fresh = false)
    (h : ∀ w, r.waiting = some w → a.serial ≠ w.serial) : recConf (rebasedRec a r) = (0, none, 0) := by
  rw [rebasedRec, if_neg (Bool.not_eq_true _ ▸ hfresh), baselineConfirm_none (r := copyFlags a r) h]
  rfl

theorem rebasedRec_door (a : StateFields) (r : LineRec) : (rebasedRec a r).door = r.door :=
  (congrArg LineRec.door (rebasedRec_frame a r) :)

/-! ## What every STATE leaves -/

/-- The fields of a STATE as its command carries them. -/
def stateFields (flags service assist : Byte) (serial : Word16) : StateFields := { flags, serial, service, assist }

/-- What a STATE comes to at the record of its station. -/
def stateLeft (x : Nat) (a : StateFields) (s : State) : StateEffect :=
  stateEffect (decide (s.msc.state ≠ .standby)) a (answered s.clk.second (lineRec s.lcs x))

/-- The transaction of a STATE has ended, before a FRESH station is composed. -/
def stateEnded (n x : Nat) (a : StateFields) (s : State) : State :=
  finishTxn n x idlePeriods (stateLeft x a s).record { s with xu := stateXu x s.clk.second (stateLeft x a s) s.xu }

theorem stateTaken_eq (n x : Nat) (a : StateFields) (s : State) :
    stateTaken n x a s = if a.fresh then composeMarked [x] (stateEnded n x a s) else stateEnded n x a s := rfl

theorem stateTaken_lcs (n x : Nat) (a : StateFields) (s : State) : (stateTaken n x a s).lcs = (stateEnded n x a s).lcs := by
  rw [stateTaken_eq]
  split <;> rfl

theorem recordTaken_stateTaken (n x : Nat) (a : StateFields) (s : State) :
    RecordTaken x (stateLeft x a s).record s (stateTaken n x a s) := by
  have h : RecordTaken x (stateLeft x a s).record s (stateEnded n x a s) :=
    recordTaken_finishTxn n x idlePeriods _ (s := s) (v := { s with xu := stateXu x s.clk.second (stateLeft x a s) s.xu }) rfl rfl
      rfl rfl rfl
  rw [stateTaken_eq]
  split
  · exact ⟨h.record, h.others, h.sms, h.clk, recountLeft_composeMarked h.msc [x], h.shed⟩
  · exact h

theorem adds_stateTaken (n x : Nat) (a : StateFields) (s : State) : Adds s.xu (stateTaken n x a s).xu := by
  have h : Adds s.xu (stateEnded n x a s).xu := 
    (adds_stateXu x s.clk.second (stateLeft x a s) (Adds.refl s.xu)).trans
      (adds_finishTxn n x idlePeriods (stateLeft x a s).record
        { s with xu := stateXu x s.clk.second (stateLeft x a s) s.xu })
  rw [stateTaken_eq]
  split
  · exact adds_composeMarked [x] h
  · exact h

theorem stateTaken_recount (n x : Nat) (a : StateFields) (s : State) : RecountTaken s.msc s (flush (stateTaken n x a s)) :=
  recountTaken_flush (recordTaken_stateTaken n x a s).msc (adds_stateTaken n x a s).baseValid

theorem exec_stateAnswer {n : Nat} {tx : Txn} {s : State} (hphase : s.phase = .operating)
    (htxn : (lineAt s.lcs n).txn = some tx) (hnone : tx.transfer = none) (ha : Answerable tx) (flags service assist : Byte)
    (serial : Word16) :
    exec (.stateAnswer n flags serial service assist) s
      = .next (flush (stateTaken n tx.station (stateFields flags service assist serial) s)) := by
  have hawait : awaiting s n = some tx := awaiting_eq htxn ha
  show execStateAnswer n flags serial service assist s = _
  unfold execStateAnswer
  rw [hawait]
  dsimp only
  rw [hnone]
  exact answer_takes _ hphase rfl

theorem stateLeft_compared {x : Nat} {a : StateFields} {s : State} (hbase : (lineRec s.lcs x).baseline = true)
    (hfresh : a.fresh = false) :
    stateLeft x a s = pressEffect (decide (s.msc.state ≠ .standby)) a
      (comparedRec a (answered s.clk.second (lineRec s.lcs x))) := stateEffect_compared hbase hfresh

theorem stateLeft_rebased {x : Nat} {a : StateFields} {s : State}
    (h : (lineRec s.lcs x).baseline = false ∨ a.fresh = true) :
    stateLeft x a s = baselineEffect a (rebasedRec a (answered s.clk.second (lineRec s.lcs x))) := stateEffect_rebased h

/-- A STATE leaves all of the record but the confirmed page, the waiting record, the baseline and the door as an answer of
the station does, with the flags copied. -/
theorem stateLeft_frame (x : Nat) (a : StateFields) (s : State) :
    { (stateLeft x a s).record with
      confSerial := (lineRec s.lcs x).confSerial, confKind := (lineRec s.lcs x).confKind
      confMuster := (lineRec s.lcs x).confMuster, waiting := (lineRec s.lcs x).waiting
      baseline := (lineRec s.lcs x).baseline, door := (lineRec s.lcs x).door }
      = copyFlags a (answered s.clk.second (lineRec s.lcs x)) := by
  by_cases h : (lineRec s.lcs x).baseline = false ∨ a.fresh = true
  · rw [stateLeft_rebased h]
    exact (congrArg (fun q : LineRec => { q with baseline := (lineRec s.lcs x).baseline, door := (lineRec s.lcs x).door })
      (rebasedRec_frame a (answered s.clk.second (lineRec s.lcs x))) :)
  · rw [not_or, Bool.not_eq_false, Bool.not_eq_true] at h
    rw [stateLeft_compared h.1 h.2]
    exact (congrArg (fun q : LineRec =>
        { q with
          confSerial := (lineRec s.lcs x).confSerial, confKind := (lineRec s.lcs x).confKind
          confMuster := (lineRec s.lcs x).confMuster, waiting := (lineRec s.lcs x).waiting
          baseline := (lineRec s.lcs x).baseline, door := (lineRec s.lcs x).door })
      (pressEffect_frame (decide (s.msc.state ≠ .standby)) a (comparedRec a (answered s.clk.second (lineRec s.lcs x)))) :).trans
      (congrArg (fun q : LineRec => { q with baseline := (lineRec s.lcs x).baseline, door := (lineRec s.lcs x).door })
        (comparedRec_frame a (answered s.clk.second (lineRec s.lcs x))) :)

theorem stateLeft_heard (x : Nat) (a : StateFields) (s : State) : Heard s (stateLeft x a s).record :=
  ⟨(congrArg LineRec.heard (stateLeft_frame x a s) :), (congrArg LineRec.misses (stateLeft_frame x a s) :),
    (congrArg LineRec.lastHeard (stateLeft_frame x a s) :)⟩

/-- What a STATE leaves whatever its kind, said of the state that its command answers. -/
theorem stateTaken_leaves {n x : Nat} {a : StateFields} {s : State} (hn : n < s.lcs.lines.length) :
    HeardFrom s (flush (stateTaken n x a s)) x
      ∧ (lineRec (flush (stateTaken n x a s)).lcs x).busy = a.flags.getLsbD 0
      ∧ (lineRec (flush (stateTaken n x a s)).lcs x).dnd = a.flags.getLsbD 2
      ∧ (lineRec (flush (stateTaken n x a s)).lcs x).fault = a.flags.getLsbD 3
      ∧ (lineRec (flush (stateTaken n x a s)).lcs x).errors = (lineRec s.lcs x).errors
      ∧ (∀ y, y ≠ x → lineRec (flush (stateTaken n x a s)).lcs y = lineRec s.lcs y)
      ∧ (lineAt (flush (stateTaken n x a s)).lcs n).txn = none ∧ (lineAt (flush (stateTaken n x a s)).lcs n).idle = 750 := by
  have h := recordTaken_stateTaken n x a s
  have hflags := shedding_flags h.record
  have hframe := stateLeft_frame x a s
  simp only [Prod.mk.injEq] at hflags
  obtain ⟨hbusy, hdnd, hfault, -⟩ := hflags
  have hline : lineAt (stateTaken n x a s).lcs n = lineAt (stateEnded n x a s).lcs n := by rw [stateTaken_lcs]
  refine ⟨heardFrom_of h.record (stateLeft_heard x a s) h.sms, hbusy.trans (congrArg LineRec.busy hframe :),
    hdnd.trans (congrArg LineRec.dnd hframe :), hfault.trans (congrArg LineRec.fault hframe :),
    (shedding_errors h.record).trans (congrArg LineRec.errors hframe :), h.others, ?_, ?_⟩
  · rw [flush_lcs, hline]
    exact finishTxn_txn x idlePeriods _ (v := { s with xu := stateXu x s.clk.second (stateLeft x a s) s.xu }) hn
  · rw [flush_lcs, hline]
    exact finishTxn_idle x idlePeriods _ (v := { s with xu := stateXu x s.clk.second (stateLeft x a s) s.xu }) hn

theorem stateTaken_conf (n x : Nat) (a : StateFields) (s : State) :
    confirmedPage (flush (stateTaken n x a s)) x = recConf (stateLeft x a s).record :=
  shedding_conf (recordTaken_stateTaken n x a s).record

theorem stateTaken_waiting (n x : Nat) (a : StateFields) (s : State) :
    (lineRec (flush (stateTaken n x a s)).lcs x).waiting = (stateLeft x a s).record.waiting :=
  shedding_waiting (recordTaken_stateTaken n x a s).record

theorem stateTaken_door (n x : Nat) (a : StateFields) (s : State) :
    (lineRec (flush (stateTaken n x a s)).lcs x).door = (stateLeft x a s).record.door :=
  shedding_door (recordTaken_stateTaken n x a s).record

/-- A FRESH station shows its page after the STATE (R95, R136). -/
theorem stateTaken_fresh {n x : Nat} {a : StateFields} {s : State} (h : a.fresh = true) :
    PageShown (flush (stateTaken n x a s)) x := by
  rw [stateTaken_eq, if_pos h]
  exact pageShown_flush (pageShown_marked (List.mem_singleton.2 rfl))

section Compared

variable {x : Nat} {a : StateFields} {s : State} (hbase : (lineRec s.lcs x).baseline = true) (hfresh : a.fresh = false)

include hbase hfresh

theorem stateLeft_compared_conf : recConf (stateLeft x a s).record
    = recConf (comparedRec a (answered s.clk.second (lineRec s.lcs x))) := by
  rw [stateLeft_compared hbase hfresh]
  exact (congrArg recConf (pressEffect_frame _ a _) :)

theorem stateLeft_compared_waiting : (stateLeft x a s).record.waiting
    = (comparedRec a (answered s.clk.second (lineRec s.lcs x))).waiting := by
  rw [stateLeft_compared hbase hfresh]
  exact (congrArg LineRec.waiting (pressEffect_frame _ a _) :)

end Compared

section Rebased

variable {x : Nat} {a : StateFields} {s : State} (h : (lineRec s.lcs x).baseline = false ∨ a.fresh = true)

include h

theorem stateLeft_rebased_conf : recConf (stateLeft x a s).record
    = recConf (rebasedRec a (answered s.clk.second (lineRec s.lcs x))) := by
  rw [stateLeft_rebased h]
  rfl

theorem stateLeft_rebased_waiting : (stateLeft x a s).record.waiting
    = (rebasedRec a (answered s.clk.second (lineRec s.lcs x))).waiting := by
  rw [stateLeft_rebased h]
  rfl

theorem stateLeft_rebased_baseline : (stateLeft x a s).record.baseline = true := by
  rw [stateLeft_rebased h]
  exact (congrArg LineRec.baseline (rebasedRec_frame a (answered s.clk.second (lineRec s.lcs x))) :)

theorem stateLeft_rebased_door {d : DoorRec} (hd : (lineRec s.lcs x).door = some d) :
    (stateLeft x a s).record.door = some { d with lastService := a.service, lastAssist := a.assist } := by
  have hdoor : (rebasedRec a (answered s.clk.second (lineRec s.lcs x))).door = some d :=
    (rebasedRec_door a (answered s.clk.second (lineRec s.lcs x))).trans hd
  rw [stateLeft_rebased h]
  simp only [baselineEffect, onDoor, hdoor, Option.map_some, doorBaseline]

end Rebased

/-- Settles O31: the record of the comparison or of the baseline is read field by field, and the tests that follow set the
shed flag alone. -/
theorem stateAnswers : Obligations.StateAnswers := by
  unfold Obligations.StateAnswers
  refine ⟨?_, ?_⟩
  · rintro n x tx flags service assist serial s hphase hn htxn rfl hnone ha hbase hflag
    have hfresh : (stateFields flags service assist serial).fresh = false := hflag
    obtain ⟨hheard, hbusy, hdnd, hfault, herrors, hothers, htx, hidle⟩ :=
      stateTaken_leaves (x := tx.station) (a := stateFields flags service assist serial) hn
    refine ⟨_, exec_stateAnswer hphase htxn hnone ha flags service assist serial, hbusy, hdnd, hfault, hheard, herrors,
      fun hs => ?_, fun w hne hw hs => ?_, fun hne hw => ?_, fun w hw hs => ?_, hothers, stateTaken_recount .., htx, hidle⟩
    · rw [stateTaken_conf, stateLeft_compared_conf hbase hfresh, comparedRec_same hs]
      rfl
    · rw [stateTaken_conf, stateTaken_waiting, stateLeft_compared_conf hbase hfresh,
        stateLeft_compared_waiting hbase hfresh]
      exact comparedRec_waiting hne hw hs
    · rw [stateTaken_conf, stateLeft_compared_conf hbase hfresh]
      exact comparedRec_none hne hw
    · rw [stateTaken_waiting, stateLeft_compared_waiting hbase hfresh]
      exact comparedRec_unshown hw hs
  · rintro n x tx flags service assist serial s hphase hn htxn rfl hnone ha hrebase
    have hrebase : (lineRec s.lcs tx.station).baseline = false
        ∨ (stateFields flags service assist serial).fresh = true := hrebase
    obtain ⟨hheard, hbusy, hdnd, hfault, -, hothers, htx, -⟩ :=
      stateTaken_leaves (x := tx.station) (a := stateFields flags service assist serial) hn
    have hflags := shedding_flags
      (recordTaken_stateTaken n tx.station (stateFields flags service assist serial) s).record
    simp only [Prod.mk.injEq] at hflags
    refine ⟨_, exec_stateAnswer hphase htxn hnone ha flags service assist serial, hheard,
      hflags.2.2.2.trans (stateLeft_rebased_baseline hrebase), hbusy, hdnd, hfault, fun hfresh => ?_,
      fun w hfresh hw hs => ?_, fun hfresh hw => ?_, fun d hd => ?_, fun st hfresh hst => ?_, hothers,
      stateTaken_recount .., htx⟩
    · rw [stateTaken_conf, stateTaken_waiting, stateLeft_rebased_conf hrebase, stateLeft_rebased_waiting hrebase]
      exact rebasedRec_fresh _ hfresh
    · rw [stateTaken_conf, stateTaken_waiting, stateLeft_rebased_conf hrebase, stateLeft_rebased_waiting hrebase]
      exact rebasedRec_waiting hfresh hw hs
    · rw [stateTaken_conf, stateLeft_rebased_conf hrebase]
      exact rebasedRec_none hfresh hw
    · rw [stateTaken_door]
      exact stateLeft_rebased_door hrebase hd
    · refine stateTaken_fresh (a := stateFields flags service assist serial) hfresh st ?_
      rw [flush_sms, (recordTaken_stateTaken n tx.station (stateFields flags service assist serial) s).sms]
      exact hst

end Sys2Proof.Machine

/-! PROOFS. Frames that draw no valid answer, HELD_OFF and TAKEN, and what the reserve regime sheds (R126, R128, R130 to R133,
R137, R142, R146, R149). -/

namespace Sys2Proof.Machine

open Sys2Proof.Safety

/-! ## Page blocks -/

theorem blockPending_iff (t : Txn) : blockPending t = true ↔ ∃ p k, t.transfer = some (p, k + 1) := by
  unfold blockPending
  split
  · rename_i p k h
    exact ⟨fun _ => ⟨p, k, h⟩, fun _ => decide_eq_true (Nat.succ_pos k)⟩
  · rename_i h
    exact ⟨fun hf => absurd hf (by decide), fun ⟨p, k, hk⟩ => absurd hk (h p k)⟩

/-! ## The end of a transaction without a completion -/

/-- The record of a station whose frame was held off, or drew no valid answer; a block's failure is an error of it (R131,
R137). -/
def endedRec (held : Bool) (t : Txn) (s : State) : LineRec :=
  let r := if held then answered s.clk.second (lineRec s.lcs t.station) else outcomeMissed (lineRec s.lcs t.station)
  if blockPending t then failedRec r else r

/-- TRANSFER_FAIL is counted where a block failed (R131). -/
def failCounted (t : Txn) (s : State) : State := if blockPending t then countFail t.station s else s

/-- The transaction has ended with a station held off or missed. -/
def endedTxn (held : Bool) (n idle : Nat) (t : Txn) (s : State) : State :=
  finishTxn n t.station idle (endedRec held t s) (failCounted t s)

theorem noAnswer_eq (n idle : Nat) (t : Txn) (s : State) : noAnswer n idle t s = endedTxn false n idle t s := by
  unfold noAnswer endedTxn endedRec failCounted
  split <;> rfl

theorem heldOffAnswer_eq (n : Nat) (t : Txn) (s : State) : heldOffAnswer n t s = endedTxn true n idlePeriods t s := by
  unfold heldOffAnswer endedTxn endedRec failCounted
  split <;> rfl

/-- LINE_CRC is counted (R126). -/
def crcCounted (x : Nat) (s : State) : State := { s with xu := recordFault .lineCrc (some x) s.clk.second 1 s.xu }

theorem discardAnswer_eq (n idle : Nat) (t : Txn) (s : State) :
    discardAnswer n idle t s = endedTxn false n idle t (crcCounted t.station s) := noAnswer_eq n idle t _

theorem failCounted_frame (t : Txn) (s : State) : { failCounted t s with xu := s.xu } = s := by
  unfold failCounted
  split <;> rfl

/-- The record, the line and the Muster Controller after such an end; `v` is the part with its faults counted. -/
theorem recordTaken_endedTxn (held : Bool) (n idle : Nat) (t : Txn) {s v : State} (hframe : { v with xu := s.xu } = s) :
    RecordTaken t.station (endedRec held t s) s (endedTxn held n idle t v) := by
  have hrec : endedRec held t v = endedRec held t s := by
    rw [← hframe]
    rfl
  have hfail : { failCounted t v with xu := s.xu } = s :=
    (congrArg (fun u : State => { u with xu := s.xu }) (failCounted_frame t v) :).trans hframe
  rw [endedTxn, hrec]
  exact recordTaken_finishTxn n t.station idle _ (congrArg State.sms hfail :) (congrArg State.msc hfail :)
    (congrArg State.pco hfail :) (congrArg State.clk hfail :) (congrArg State.lcs hfail :)

theorem endedRec_conf (held : Bool) (t : Txn) (s : State) :
    recConf (endedRec held t s) = recConf (lineRec s.lcs t.station) := by
  unfold endedRec
  cases held <;> cases blockPending t <;> rfl

theorem endedRec_kept (held : Bool) (t : Txn) (s : State) :
    (endedRec held t s).waiting = (lineRec s.lcs t.station).waiting ∧ (endedRec held t s).door = (lineRec s.lcs t.station).door
      ∧ (endedRec held t s).shed = (lineRec s.lcs t.station).shed := by
  unfold endedRec
  cases held <;> cases blockPending t <;> exact ⟨rfl, rfl, rfl⟩

theorem endedRec_errors_failed (held : Bool) {t : Txn} (s : State) (h : blockPending t = true) :
    (endedRec held t s).errors = min 255 ((lineRec s.lcs t.station).errors + 1) := by
  rw [endedRec, if_pos h]
  cases held <;> exact satAdd_eq ..

theorem endedRec_errors_kept (held : Bool) {t : Txn} (s : State) (h : ¬ blockPending t = true) :
    (endedRec held t s).errors = (lineRec s.lcs t.station).errors := by
  rw [endedRec, if_neg h]
  cases held <;> rfl

theorem endedRec_heard (t : Txn) (s : State) : Heard s (endedRec true t s) := by
  unfold endedRec
  cases blockPending t <;> exact ⟨rfl, rfl, rfl⟩

theorem endedRec_missed (t : Txn) (s : State) :
    (endedRec false t s).misses = min 255 ((lineRec s.lcs t.station).misses + 1)
      ∧ (endedRec false t s).heard = (lineRec s.lcs t.station).heard
      ∧ (endedRec false t s).lastHeard = (lineRec s.lcs t.station).lastHeard := by
  unfold endedRec
  cases blockPending t <;> exact ⟨satAdd_eq .., rfl, rfl⟩

/-! ## The faults counted -/

theorem adds_failCounted (t : Txn) {x : XuState} {s : State} (h : Adds x s.xu) : Adds x (failCounted t s).xu := by
  unfold failCounted
  split
  · exact adds_recordFault .transferFail (some t.station) s.clk.second 1 h
  · exact h

theorem adds_endedTxn (held : Bool) (n idle : Nat) (t : Txn) {x : XuState} {s : State} (h : Adds x s.xu) :
    Adds x (endedTxn held n idle t s).xu := (adds_failCounted t h).trans (adds_finishTxn ..)

theorem adds_crcCounted (x : Nat) (s : State) : Adds s.xu (crcCounted x s).xu :=
  adds_recordFault .lineCrc (some x) s.clk.second 1 (Adds.refl s.xu)

theorem endedTxn_counts (held : Bool) (n idle : Nat) (t : Txn) (s : State) :
    otherCounts (flush (endedTxn held n idle t s)).xu = otherCounts (failCounted t s).xu := by
  rw [otherCounts_flush]
  exact otherCounts_finishTxn ..

theorem lineCrc_of_counts {x y : XuState} (h : otherCounts y = otherCounts x) : y.counters.lineCrc = x.counters.lineCrc :=
  (congrArg Counters.lineCrc h :)

theorem transferFail_of_counts {x y : XuState} (h : otherCounts y = otherCounts x) :
    y.counters.transferFail = x.counters.transferFail := (congrArg Counters.transferFail h :)

theorem lostPresses_of_counts {x y : XuState} (h : otherCounts y = otherCounts x) :
    y.counters.lostPresses = x.counters.lostPresses := (congrArg Counters.lostPresses h :)

theorem recordFault_counters (k : FaultKind) (u : Option Nat) (v : Word32) (n : Nat) (x : XuState) :
    (recordFault k u v n x).counters = bumpCounter k n x.counters := by
  unfold recordFault
  dsimp only
  split
  · rfl
  · unfold causeDue
    split <;> rfl

theorem failCounted_lineCrc (t : Txn) (s : State) : (failCounted t s).xu.counters.lineCrc = s.xu.counters.lineCrc := by
  unfold failCounted
  split
  · exact (congrArg Counters.lineCrc (recordFault_counters .transferFail (some t.station) s.clk.second 1 s.xu) :)
  · rfl

theorem failCounted_transferFail {t : Txn} (s : State) (h : blockPending t = true) :
    (failCounted t s).xu.counters.transferFail = min 65535 (s.xu.counters.transferFail + 1) := by
  rw [failCounted, if_pos h, ← satAdd_eq]
  exact (congrArg Counters.transferFail (recordFault_counters .transferFail (some t.station) s.clk.second 1 s.xu) :)

theorem failCounted_transferFail_kept {t : Txn} (s : State) (h : ¬ blockPending t = true) :
    (failCounted t s).xu.counters.transferFail = s.xu.counters.transferFail := by
  rw [failCounted, if_neg h]

theorem crcCounted_lineCrc (x : Nat) (s : State) :
    (crcCounted x s).xu.counters.lineCrc = min 65535 (s.xu.counters.lineCrc + 1) := by
  rw [← satAdd_eq]
  exact (congrArg Counters.lineCrc (recordFault_counters .lineCrc (some x) s.clk.second 1 s.xu) :)

theorem crcCounted_transferFail (x : Nat) (s : State) :
    (crcCounted x s).xu.counters.transferFail = s.xu.counters.transferFail :=
  (congrArg Counters.transferFail (recordFault_counters .lineCrc (some x) s.clk.second 1 s.xu) :)

/-- FAULT is held after a fault event that is not latched at once (R185). -/
theorem causeHeld_recordFault {k : FaultKind} (h : faultAtOnce k = false) (u : Option Nat) (v : Word32) (n : Nat) (x : XuState) :
    CauseHeld 4 (recordFault k u v n x) := by
  unfold recordFault
  rw [h]
  exact causeHeld_causeDue .fault _

theorem causeHeld_crcCounted (x : Nat) (s : State) : CauseHeld 4 (crcCounted x s).xu := causeHeld_recordFault rfl ..

theorem causeHeld_failCounted {t : Txn} (s : State) (h : blockPending t = true) : CauseHeld 4 (failCounted t s).xu := by
  rw [failCounted, if_pos h]
  exact causeHeld_recordFault rfl ..

/-! ## What such an end leaves -/

/-- The ways a transaction ends without a completion: HELD_OFF, a discarded answer, or none. -/
structure EndsUnanswered (c : Instr) (n : Nat) (tx : Txn) (s v : State) (held : Bool) (idle : Nat) : Prop where
  answers : exec c s = .next (flush (endedTxn held n idle tx v))
  held : held = true ↔ c = .heldOff n ∧ tx.transfer ≠ none
  idle : idle = 750 ∨ c = .answerDiscarded n ∧ idle = 0
  counted : v = s ∧ ¬(c = .answerDiscarded n ∨ WrongKind c n tx)
    ∨ v = crcCounted tx.station s ∧ (c = .answerDiscarded n ∨ WrongKind c n tx)

theorem brokenIdle_cases (s : State) (n : Nat) : brokenIdle s n = 750 ∨ brokenIdle s n = 0 := by
  unfold brokenIdle
  split
  · exact .inr rfl
  · exact .inl rfl

theorem exec_heldOff {n : Nat} {tx : Txn} {s : State} (hphase : s.phase = .operating) (htxn : (lineAt s.lcs n).txn = some tx)
    (ha : Answerable tx) (hsome : tx.transfer ≠ none) :
    exec (.heldOff n) s = .next (flush (endedTxn true n idlePeriods tx s)) := by
  obtain ⟨p, hp⟩ := Option.ne_none_iff_exists'.1 hsome
  rw [← heldOffAnswer_eq]
  show execHeldOff n s = _
  rw [execHeldOff, awaiting_eq htxn ha]
  dsimp only
  rw [hp]
  exact answer_takes _ hphase rfl

theorem exec_wrongKind {c : Instr} {n : Nat} {tx : Txn} {s : State} (hphase : s.phase = .operating)
    (htxn : (lineAt s.lcs n).txn = some tx) (ha : Answerable tx) (hc : WrongKind c n tx) :
    exec c s = .next (flush (endedTxn false n idlePeriods tx (crcCounted tx.station s))) := by
  have hawait := awaiting_eq htxn ha
  rw [← discardAnswer_eq]
  rcases hc with ⟨hnone, rfl | rfl | rfl⟩ | ⟨hsome, flags, serial, service, assist, rfl⟩
  · show execTakenToPageHead n s = _
    rw [execTakenToPageHead, hawait]
    dsimp only
    rw [hnone]
    exact answer_takes _ hphase rfl
  · show execTakenToPageBlock n s = _
    rw [execTakenToPageBlock, hawait]
    dsimp only
    rw [hnone]
    exact answer_takes _ hphase rfl
  · show execHeldOff n s = _
    rw [execHeldOff, hawait]
    dsimp only
    rw [hnone]
    exact answer_takes _ hphase rfl
  · obtain ⟨p, hp⟩ := Option.ne_none_iff_exists'.1 hsome
    show execStateAnswer n flags serial service assist s = _
    rw [execStateAnswer, hawait]
    dsimp only
    rw [hp]
    exact answer_takes _ hphase rfl

theorem exec_answerDiscarded {n : Nat} {tx : Txn} {s : State} (hphase : s.phase = .operating)
    (htxn : (lineAt s.lcs n).txn = some tx) (ha : Answerable tx) :
    exec (.answerDiscarded n) s
      = .next (flush (endedTxn false n (brokenIdle s n) tx (crcCounted tx.station s))) := by
  rw [← discardAnswer_eq]
  show execAnswerDiscarded n s = _
  rw [execAnswerDiscarded, awaiting_eq htxn ha]
  exact answer_takes _ hphase rfl

theorem exec_replyWindowTimeout {n : Nat} {tx : Txn} {s : State} (hphase : s.phase = .operating)
    (htxn : (lineAt s.lcs n).txn = some tx) (hleft : tx.left = 0) (hcoming : tx.coming = none) :
    exec (.replyWindowTimeout n) s = .next (flush (endedTxn false n idlePeriods tx s)) := by
  rw [← noAnswer_eq]
  show execReplyWindowTimeout n s = _
  rw [execReplyWindowTimeout, htxn]
  exact answer_takes _ hphase ((windowClosed_iff tx).2 ⟨hleft, hcoming⟩)

theorem endsUnanswered {c : Instr} {n : Nat} {tx : Txn} {s : State} (hphase : s.phase = .operating)
    (htxn : (lineAt s.lcs n).txn = some tx)
    (hc : c = .heldOff n ∧ Answerable tx ∧ tx.transfer ≠ none ∨ (c = .answerDiscarded n ∨ WrongKind c n tx) ∧ Answerable tx
      ∨ c = .replyWindowTimeout n ∧ tx.left = 0 ∧ tx.coming = none) :
    ∃ v held idle, EndsUnanswered c n tx s v held idle := by
  rcases hc with ⟨rfl, ha, hsome⟩ | ⟨rfl | hwrong, ha⟩ | ⟨rfl, hleft, hcoming⟩
  · exact ⟨s, true, 750, exec_heldOff hphase htxn ha hsome, by simp [hsome], .inl rfl,
      .inl ⟨rfl, by simp [WrongKind, hsome]⟩⟩
  · exact ⟨_, false, _, exec_answerDiscarded hphase htxn ha, by simp, (brokenIdle_cases s n).imp_right fun h => ⟨rfl, h⟩,
      .inr ⟨rfl, .inl rfl⟩⟩
  · refine ⟨_, false, 750, exec_wrongKind hphase htxn ha hwrong, ?_, .inl rfl, .inr ⟨rfl, .inr hwrong⟩⟩
    refine ⟨fun h => absurd h (by decide), fun ⟨hheld, hsome⟩ => ?_⟩
    rcases hwrong with ⟨hnone, -⟩ | ⟨-, flags, serial, service, assist, hstate⟩
    · exact absurd hnone hsome
    · rw [hheld] at hstate
      injection hstate
  · exact ⟨s, false, 750, exec_replyWindowTimeout hphase htxn hleft hcoming, by simp, .inl rfl,
      .inl ⟨rfl, by simp [WrongKind]⟩⟩

/-- An answer that begins outside the reply window is none. -/
theorem exec_outsideWindow {n : Nat} {tx : Txn} {s : State} (htxn : (lineAt s.lcs n).txn = some tx) (ha : ¬Answerable tx)
    (flags service assist : Byte) (serial : Word16) :
    exec (.stateAnswer n flags serial service assist) s = .next s ∧ exec (.takenToPageHead n) s = .next s
      ∧ exec (.takenToPageBlock n) s = .next s ∧ exec (.heldOff n) s = .next s ∧ exec (.answerDiscarded n) s = .next s := by
  have hawait := awaiting_none htxn ha
  have hnone : ∀ u : State, answer (awaiting s n).isSome u s = .next s := fun u => by
    rw [hawait, Option.isSome_none, answer, Bool.and_false]
    rfl
  exact ⟨hnone _, hnone _, hnone _, hnone _, hnone _⟩

/-- The line whose transaction ended, before and after the report writes begin. -/
theorem endedTxn_line {held : Bool} {n idle : Nat} {tx : Txn} {s v : State} (hframe : { v with xu := s.xu } = s)
    (hn : n < s.lcs.lines.length) :
    (lineAt (flush (endedTxn held n idle tx v)).lcs n).txn = none
      ∧ (lineAt (flush (endedTxn held n idle tx v)).lcs n).idle = idle := by
  have hlcs : (failCounted tx v).lcs = s.lcs :=
    (congrArg State.lcs (failCounted_frame tx v) :).trans (congrArg State.lcs hframe :)
  have hline : n < (failCounted tx v).lcs.lines.length := by rwa [hlcs]
  rw [flush_lcs]
  exact ⟨finishTxn_txn tx.station idle (endedRec held tx v) hline, finishTxn_idle tx.station idle (endedRec held tx v) hline⟩

section Ended

variable {c : Instr} {n idle : Nat} {tx : Txn} {s v : State} {held : Bool}

/-- The part with its faults counted differs from the part in the Exchange Unit alone. -/
theorem endsUnanswered_counted (h : EndsUnanswered c n tx s v held idle) :
    { v with xu := s.xu } = s ∧ Adds s.xu v.xu ∧ v.xu.counters.transferFail = s.xu.counters.transferFail := by
  rcases h.counted with ⟨rfl, -⟩ | ⟨rfl, -⟩
  · exact ⟨rfl, Adds.refl _, rfl⟩
  · exact ⟨rfl, adds_crcCounted _ s, crcCounted_transferFail _ s⟩

theorem endsUnanswered_base (h : EndsUnanswered c n tx s v held idle) :
    baseValid (endedTxn held n idle tx v).xu = baseValid s.xu :=
  (adds_endedTxn held n idle tx (endsUnanswered_counted h).2.1).baseValid

theorem endsUnanswered_crcKept (h : EndsUnanswered c n tx s v held idle) (hnot : ¬(c = .answerDiscarded n ∨ WrongKind c n tx)) :
    (flush (endedTxn held n idle tx v)).xu.counters.lineCrc = s.xu.counters.lineCrc := by
  rcases h.counted with ⟨hv, -⟩ | ⟨-, hcrc⟩
  · rw [lineCrc_of_counts (endedTxn_counts held n idle tx v), failCounted_lineCrc, hv]
  · exact absurd hcrc hnot

theorem endsUnanswered_crc (h : EndsUnanswered c n tx s v held idle) (hcrc : c = .answerDiscarded n ∨ WrongKind c n tx) :
    (flush (endedTxn held n idle tx v)).xu.counters.lineCrc = min 65535 (s.xu.counters.lineCrc + 1)
      ∧ CauseTold 4 s (flush (endedTxn held n idle tx v)) := by
  rcases h.counted with ⟨-, hnot⟩ | ⟨hv, -⟩
  · exact absurd hcrc hnot
  · refine ⟨?_, causeTold_flush (CauseHeld.mono (x := v.xu) ?_ (adds_endedTxn held n idle tx (Adds.refl v.xu)).holds)
      (endsUnanswered_base h)⟩
    · rw [lineCrc_of_counts (endedTxn_counts held n idle tx v), failCounted_lineCrc, hv, crcCounted_lineCrc]
    · rw [hv]
      exact causeHeld_crcCounted tx.station s

theorem endsUnanswered_failed (h : EndsUnanswered c n tx s v held idle) {p : SentPage} {k : Nat}
    (hk : tx.transfer = some (p, k + 1)) :
    (lineRec (flush (endedTxn held n idle tx v)).lcs tx.station).errors = min 255 ((lineRec s.lcs tx.station).errors + 1)
      ∧ (flush (endedTxn held n idle tx v)).xu.counters.transferFail = min 65535 (s.xu.counters.transferFail + 1)
      ∧ CauseTold 4 s (flush (endedTxn held n idle tx v)) := by
  have hblock : blockPending tx = true := (blockPending_iff tx).2 ⟨p, k, hk⟩
  obtain ⟨hframe, -, hfails⟩ := endsUnanswered_counted h
  refine ⟨(shedding_errors (recordTaken_endedTxn held n idle tx hframe).record).trans
      (endedRec_errors_failed held s hblock), ?_, ?_⟩
  · rw [transferFail_of_counts (endedTxn_counts held n idle tx v), failCounted_transferFail v hblock, hfails]
  · exact causeTold_flush ((causeHeld_failCounted v hblock).mono
      (adds_finishTxn n tx.station idle (endedRec held tx v) (failCounted tx v)).holds) (endsUnanswered_base h)

theorem endsUnanswered_notFailed (h : EndsUnanswered c n tx s v held idle) (hk : ∀ p k, tx.transfer ≠ some (p, k + 1)) :
    (lineRec (flush (endedTxn held n idle tx v)).lcs tx.station).errors = (lineRec s.lcs tx.station).errors
      ∧ (flush (endedTxn held n idle tx v)).xu.counters.transferFail = s.xu.counters.transferFail := by
  have hblock : ¬ blockPending tx = true := fun hb => by
    obtain ⟨p, k, hp⟩ := (blockPending_iff tx).1 hb
    exact hk p k hp
  obtain ⟨hframe, -, hfails⟩ := endsUnanswered_counted h
  refine ⟨(shedding_errors (recordTaken_endedTxn held n idle tx hframe).record).trans
      (endedRec_errors_kept held s hblock), ?_⟩
  rw [transferFail_of_counts (endedTxn_counts held n idle tx v), failCounted_transferFail_kept v hblock, hfails]

theorem endsUnanswered_missed (h : EndsUnanswered c n tx s v held idle) (hoff : ¬(c = .heldOff n ∧ tx.transfer ≠ none)) :
    (lineRec (flush (endedTxn held n idle tx v)).lcs tx.station).misses = min 255 ((lineRec s.lcs tx.station).misses + 1)
      ∧ (lineRec (flush (endedTxn held n idle tx v)).lcs tx.station).heard = (lineRec s.lcs tx.station).heard
      ∧ (lineRec (flush (endedTxn held n idle tx v)).lcs tx.station).lastHeard = (lineRec s.lcs tx.station).lastHeard := by
  obtain ⟨hframe, -, -⟩ := endsUnanswered_counted h
  obtain rfl : held = false := Bool.eq_false_iff.2 fun ht => hoff (h.held.1 ht)
  obtain ⟨hmisses, hheard, hlast⟩ := endedRec_missed tx s
  have hsame := shedding_heard (recordTaken_endedTxn false n idle tx hframe).record
  simp only [Prod.mk.injEq] at hsame
  obtain ⟨h1, h2, h3⟩ := hsame
  exact ⟨h2.trans hmisses, h1.trans hheard, h3.trans hlast⟩

theorem endsUnanswered_heard (h : EndsUnanswered c n tx s v held idle) (hoff : c = .heldOff n ∧ tx.transfer ≠ none) :
    HeardFrom s (flush (endedTxn held n idle tx v)) tx.station
      ∧ (flush (endedTxn held n idle tx v)).xu.counters.lineCrc = s.xu.counters.lineCrc := by
  obtain ⟨hframe, -, -⟩ := endsUnanswered_counted h
  obtain ⟨hc, hsome⟩ := hoff
  refine ⟨?_, endsUnanswered_crcKept h ?_⟩
  · obtain rfl : held = true := h.held.2 ⟨hc, hsome⟩
    have hrec := recordTaken_endedTxn true n idle tx hframe
    exact heardFrom_of (t := flush (endedTxn true n idle tx v)) hrec.record (endedRec_heard tx s) hrec.sms
  · rintro (hd | ⟨hnone, -⟩ | ⟨-, flags, serial, service, assist, hstate⟩)
    · rw [hc] at hd
      injection hd
    · exact hsome hnone
    · rw [hc] at hstate
      injection hstate

/-- The record, the recount and the other stations after such an end. -/
theorem endsUnanswered_leaves (h : EndsUnanswered c n tx s v held idle) :
    confirmedPage (flush (endedTxn held n idle tx v)) tx.station = confirmedPage s tx.station
      ∧ (lineRec (flush (endedTxn held n idle tx v)).lcs tx.station).waiting = (lineRec s.lcs tx.station).waiting
      ∧ (lineRec (flush (endedTxn held n idle tx v)).lcs tx.station).door = (lineRec s.lcs tx.station).door
      ∧ RecountTaken s.msc s (flush (endedTxn held n idle tx v))
      ∧ ∀ y, y ≠ tx.station → lineRec (flush (endedTxn held n idle tx v)).lcs y = lineRec s.lcs y := by
  have hrec := recordTaken_endedTxn held n idle tx (endsUnanswered_counted h).1
  obtain ⟨hwaiting, hdoor, -⟩ := endedRec_kept held tx s
  exact ⟨(shedding_conf hrec.record).trans (endedRec_conf held tx s), (shedding_waiting hrec.record).trans hwaiting,
    (shedding_door hrec.record).trans hdoor, recountTaken_flush hrec.msc (endsUnanswered_base h), hrec.others⟩

end Ended

/-- Settles O34: HELD_OFF, a discarded answer and none end the transaction in one way, with the station heard or missed and
the faults counted that apply. -/
theorem heldOffAndMissed : Obligations.HeldOffAndMissed := by
  unfold Obligations.HeldOffAndMissed
  refine ⟨?_, fun n tx flags service assist serial s _ htxn ha => exec_outsideWindow htxn ha flags service assist serial⟩
  rintro c n x tx s hphase hn htxn rfl hc
  obtain ⟨v, held, idle, h⟩ := endsUnanswered hphase htxn hc
  obtain ⟨htx, hidle⟩ := endedTxn_line (held := held) (idle := idle) (tx := tx) (endsUnanswered_counted h).1 hn
  obtain ⟨hconf, hwaiting, hdoor, hrecount, hothers⟩ := endsUnanswered_leaves h
  refine ⟨_, h.answers, htx, ?_, hconf, hwaiting, hdoor, endsUnanswered_heard h, endsUnanswered_missed h,
    endsUnanswered_crc h, fun htimeout => endsUnanswered_crcKept h ?_, fun p k => endsUnanswered_failed h,
    endsUnanswered_notFailed h, hrecount, hothers⟩
  · rw [hidle]
    exact h.idle
  · rw [htimeout]
    simp [WrongKind]

end Sys2Proof.Machine

/-! PROOFS. TAKEN answers to the frames of a page transfer, and what the reserve regime sheds (R130 to R133, R137, R142, R146,
R149). -/

namespace Sys2Proof.Machine

open Sys2Proof.Safety

/-! ## The record after a TAKEN -/

/-- The record of a station with the TAKEN to block `k` of a page taken, 0 being the head. -/
def takenRec (x k : Nat) (p : SentPage) (s : State) : LineRec :=
  if k = 0 then headTakenRec s.sms.settings.refreshInterval s.clk.second p (lineRec s.lcs x)
  else answered s.clk.second (lineRec s.lcs x)

/-- The record once the transfer has gone on, completed or been abandoned. -/
def finalRec (x k : Nat) (p : SentPage) (s : State) : LineRec :=
  if blockCount p.page.body ≤ k then completedRec p (takenRec x k p s) else takenRec x k p s

/-- A TAKEN to block `k`, 0 being the head. -/
def pageTaken (n x k : Nat) (p : SentPage) (s : State) : State := afterTaken n x p k (takenRec x k p s) s

theorem exec_taken {n k : Nat} {tx : Txn} {p : SentPage} {s : State} (hphase : s.phase = .operating)
    (htxn : (lineAt s.lcs n).txn = some tx) (hk : tx.transfer = some (p, k)) (ha : Answerable tx) :
    exec (if k = 0 then .takenToPageHead n else .takenToPageBlock n) s = .next (flush (pageTaken n tx.station k p s)) := by
  have hawait := awaiting_eq htxn ha
  cases k with
  | zero =>
    show execTakenToPageHead n s = _
    rw [execTakenToPageHead, hawait]
    dsimp only
    rw [hk]
    exact answer_takes _ hphase rfl
  | succ k =>
    show execTakenToPageBlock n s = _
    rw [execTakenToPageBlock, hawait]
    dsimp only
    rw [hk]
    exact answer_takes _ hphase rfl

theorem pageTaken_completed {n x k : Nat} {p : SentPage} {s : State} (h : blockCount p.page.body ≤ k) :
    pageTaken n x k p s = finishTxn n x idlePeriods (finalRec x k p s) s := by
  rw [pageTaken, afterTaken, finalRec, if_pos h, if_pos h]

theorem pageTaken_abandoned {n x k : Nat} {p : SentPage} {s : State} (h : k < blockCount p.page.body)
    (hab : abandons s x p = true) : pageTaken n x k p s = finishTxn n x idlePeriods (finalRec x k p s) s := by
  have hk : ¬ blockCount p.page.body ≤ k := Nat.not_le.2 h
  rw [pageTaken, afterTaken, finalRec, if_neg hk, if_neg hk, if_pos hab]

/-- The transfer goes on: the next block waits for the idle time (R124, R131). -/
def nextBlock (n x k : Nat) (p : SentPage) (s : State) : State :=
  { s with
    lcs := setLine n
      { lineAt s.lcs n with txn := some (startNextFrame { station := x, transfer := some (p, k + 1), left := 0 }) } s.lcs }

theorem pageTaken_goesOn {n x k : Nat} {p : SentPage} {s : State} (h : k < blockCount p.page.body)
    (hab : abandons s x p = false) : pageTaken n x k p s = withRecord x (finalRec x k p s) (nextBlock n x k p s) := by
  have hk : ¬ blockCount p.page.body ≤ k := Nat.not_le.2 h
  have hab : ¬ abandons s x p = true := Bool.eq_false_iff.1 hab
  rw [pageTaken, afterTaken, finalRec, if_neg hk, if_neg hk, if_neg hab]
  rfl

/-- The three ways on from a TAKEN change the record of the station in one way. -/
theorem recordTaken_pageTaken (n x k : Nat) (p : SentPage) (s : State) :
    RecordTaken x (finalRec x k p s) s (pageTaken n x k p s) ∧ Adds s.xu (pageTaken n x k p s).xu := by
  have hended : RecordTaken x (finalRec x k p s) s (finishTxn n x idlePeriods (finalRec x k p s) s)
      ∧ Adds s.xu (finishTxn n x idlePeriods (finalRec x k p s) s).xu :=
    ⟨recordTaken_finishTxn n x idlePeriods _ rfl rfl rfl rfl rfl, adds_finishTxn n x idlePeriods (finalRec x k p s) s⟩
  by_cases hk : blockCount p.page.body ≤ k
  · rw [pageTaken_completed hk]
    exact hended
  · cases hab : abandons s x p with
    | true =>
      rw [pageTaken_abandoned (Nat.not_le.1 hk) hab]
      exact hended
    | false =>
      rw [pageTaken_goesOn (Nat.not_le.1 hk) hab]
      exact ⟨recordTaken_withRecord x _ rfl rfl rfl rfl rfl, adds_withRecord x (finalRec x k p s) (nextBlock n x k p s)⟩

/-! ## The fields of that record -/

theorem takenRec_frame (x k : Nat) (p : SentPage) (s : State) :
    { takenRec x k p s with door := (lineRec s.lcs x).door } = answered s.clk.second (lineRec s.lcs x) := by
  unfold takenRec
  split <;> rfl

theorem finalRec_frame (x k : Nat) (p : SentPage) (s : State) :
    { finalRec x k p s with door := (lineRec s.lcs x).door, waiting := (lineRec s.lcs x).waiting }
      = answered s.clk.second (lineRec s.lcs x) := by
  have hbase : { takenRec x k p s with door := (lineRec s.lcs x).door, waiting := (lineRec s.lcs x).waiting }
      = answered s.clk.second (lineRec s.lcs x) :=
    (congrArg (fun r : LineRec => { r with waiting := (lineRec s.lcs x).waiting }) (takenRec_frame x k p s) :)
  unfold finalRec
  split
  · exact hbase
  · exact hbase

theorem finalRec_heard (x k : Nat) (p : SentPage) (s : State) : Heard s (finalRec x k p s) :=
  ⟨(congrArg LineRec.heard (finalRec_frame x k p s) :), (congrArg LineRec.misses (finalRec_frame x k p s) :),
    (congrArg LineRec.lastHeard (finalRec_frame x k p s) :)⟩

theorem finalRec_completed {x k : Nat} {p : SentPage} {s : State} (h : blockCount p.page.body ≤ k) :
    (finalRec x k p s).waiting
      = some { serial := p.serial, kind := bodyKind p.page.body, musterSerial := p.page.musterSerial } := by
  rw [finalRec, if_pos h]
  rfl

theorem finalRec_waiting {x k : Nat} {p : SentPage} {s : State} (h : k < blockCount p.page.body) :
    (finalRec x k p s).waiting = (lineRec s.lcs x).waiting := by
  rw [finalRec, if_neg (Nat.not_le.2 h)]
  exact (congrArg LineRec.waiting (takenRec_frame x k p s) :)

/-- The door with a TAKEN taken: a head loads the refresh countdown (R146, R147). -/
def takenDoor (k : Nat) (p : SentPage) (s : State) (d : DoorRec) : DoorRec :=
  if k = 0 then doorHeadTaken s.sms.settings.refreshInterval p.page.musterSerial d else d

/-- The door after a TAKEN: a completion counts towards the full refresh (R149). -/
def finalDoor (k : Nat) (p : SentPage) (s : State) (d : DoorRec) : DoorRec :=
  if blockCount p.page.body ≤ k then doorCompleted p.full (takenDoor k p s d) else takenDoor k p s d

theorem takenRec_door (x k : Nat) (p : SentPage) (s : State) :
    (takenRec x k p s).door = (lineRec s.lcs x).door.map (takenDoor k p s) := by
  unfold takenRec takenDoor
  split
  · rfl
  · exact (Option.map_id' ..).symm

theorem finalRec_door (x k : Nat) (p : SentPage) (s : State) :
    (finalRec x k p s).door = (lineRec s.lcs x).door.map (finalDoor k p s) := by
  unfold finalRec finalDoor
  split
  · show (takenRec x k p s).door.map (doorCompleted p.full) = _
    rw [takenRec_door, Option.map_map]
    rfl
  · exact takenRec_door x k p s

theorem finalDoor_frame (k : Nat) (p : SentPage) (s : State) (d : DoorRec) :
    { finalDoor k p s d with fullCount := d.fullCount } = takenDoor k p s d := by
  unfold finalDoor takenDoor
  split <;> split <;> rfl

theorem takenDoor_frame (k : Nat) (p : SentPage) (s : State) (d : DoorRec) :
    { takenDoor k p s d with refresh := d.refresh, afterMuster := d.afterMuster } = d := by
  unfold takenDoor
  split <;> rfl

theorem finalDoor_head (p : SentPage) (s : State) (d : DoorRec) :
    (finalDoor 0 p s d).refresh = some (s.sms.settings.refreshInterval * 25000000)
      ∧ ((finalDoor 0 p s d).afterMuster = true ↔ p.page.musterSerial ≠ 0) := by
  refine ⟨(congrArg DoorRec.refresh (finalDoor_frame 0 p s d) :), ?_⟩
  rw [(congrArg DoorRec.afterMuster (finalDoor_frame 0 p s d) :)]
  exact decide_eq_true_iff

theorem finalDoor_block {k : Nat} (hk : k ≠ 0) (p : SentPage) (s : State) (d : DoorRec) :
    (finalDoor k p s d).refresh = d.refresh ∧ (finalDoor k p s d).afterMuster = d.afterMuster := by
  have hframe := finalDoor_frame k p s d
  rw [takenDoor, if_neg hk] at hframe
  exact ⟨(congrArg DoorRec.refresh hframe :), (congrArg DoorRec.afterMuster hframe :)⟩

theorem finalDoor_presses (k : Nat) (p : SentPage) (s : State) (d : DoorRec) :
    (finalDoor k p s d).serviceTally = d.serviceTally ∧ (finalDoor k p s d).assistTally = d.assistTally
      ∧ (finalDoor k p s d).attention = d.attention := by
  have hfinal := finalDoor_frame k p s d
  have htaken := takenDoor_frame k p s d
  exact ⟨(congrArg DoorRec.serviceTally hfinal :).trans (congrArg DoorRec.serviceTally htaken :),
    (congrArg DoorRec.assistTally hfinal :).trans (congrArg DoorRec.assistTally htaken :),
    (congrArg DoorRec.attention hfinal :).trans (congrArg DoorRec.attention htaken :)⟩

theorem finalDoor_completed {k : Nat} {p : SentPage} (h : blockCount p.page.body ≤ k) (s : State) (d : DoorRec) :
    (finalDoor k p s d).fullCount = if p.full then 0 else min 31 (d.fullCount + 1) := by
  have hkept : (takenDoor k p s d).fullCount = d.fullCount := (congrArg DoorRec.fullCount (takenDoor_frame k p s d) :)
  rw [finalDoor, if_pos h, ← satAdd_eq, ← hkept]
  rfl

theorem finalDoor_notCompleted {k : Nat} {p : SentPage} (h : k < blockCount p.page.body) (s : State) (d : DoorRec) :
    (finalDoor k p s d).fullCount = d.fullCount := by
  rw [finalDoor, if_neg (Nat.not_le.2 h)]
  exact (congrArg DoorRec.fullCount (takenDoor_frame k p s d) :)

/-! ## Abandonment (R133) -/

theorem abandons_iff (s : State) (x : Nat) (p : SentPage) :
    abandons s x p = true ↔ tblHas s.sms.stations x = false
      ∨ (∃ g, desiredPage s.pco x = some g
          ∧ (bodyKind g.body = .doorMuster ∨ bodyKind g.body = .screenMuster) ∧ g.musterSerial = s.msc.serial)
        ∧ desiredSerial s.pco x ≠ p.serial := by
  simp only [abandons, Bool.or_eq_true, Bool.not_eq_true', Bool.and_eq_true, decide_eq_true_eq]
  refine or_congr_right (and_congr_left fun _ => ?_)
  unfold desiresMuster
  cases desiredPage s.pco x with
  | none => simp
  | some g => simp [isMusterPage]

/-! ## The line after a TAKEN -/

theorem pageTaken_ended {n x k : Nat} {p : SentPage} {s : State} (hn : n < s.lcs.lines.length)
    (h : blockCount p.page.body ≤ k ∨ abandons s x p = true) : (lineAt (flush (pageTaken n x k p s)).lcs n).txn = none := by
  rw [flush_lcs]
  by_cases hk : blockCount p.page.body ≤ k
  · rw [pageTaken_completed hk]
    exact finishTxn_txn x idlePeriods (finalRec x k p s) hn
  · rw [pageTaken_abandoned (Nat.not_le.1 hk) (h.resolve_left hk)]
    exact finishTxn_txn x idlePeriods (finalRec x k p s) hn

theorem pageTaken_nextBlock {n x k : Nat} {p : SentPage} {s : State} (hn : n < s.lcs.lines.length)
    (h : k < blockCount p.page.body) (hab : abandons s x p = false) :
    ((lineAt (flush (pageTaken n x k p s)).lcs n).txn.map fun u => (u.station, u.transfer)) = some (x, some (p, k + 1)) := by
  have hline : (lineAt (nextBlock n x k p s).lcs n).txn
      = some (startNextFrame { station := x, transfer := some (p, k + 1), left := 0 }) := by
    rw [nextBlock, lineAt_set_self _ hn]
  rw [flush_lcs, pageTaken_goesOn h hab, lineFrame_txn (withRecord_line x (finalRec x k p s) (nextBlock n x k p s) n), hline]
  rfl

/-- Settles O33: each TAKEN is taken in the record, the transfer completes, is abandoned or goes on, and the recount
follows. -/
theorem takenAnswers : Obligations.TakenAnswers := by
  unfold Obligations.TakenAnswers
  rintro n x k tx p s hphase hn htxn rfl hk ha
  obtain ⟨hrec, hadds⟩ := recordTaken_pageTaken n tx.station k p s
  have hframe := finalRec_frame tx.station k p s
  have hwaiting : (lineRec (flush (pageTaken n tx.station k p s)).lcs tx.station).waiting
      = (finalRec tx.station k p s).waiting := shedding_waiting hrec.record
  have hdoor : (lineRec (flush (pageTaken n tx.station k p s)).lcs tx.station).door
      = (finalRec tx.station k p s).door := shedding_door hrec.record
  refine ⟨_, exec_taken hphase htxn hk ha,
    heardFrom_of (t := flush (pageTaken n tx.station k p s)) hrec.record (finalRec_heard tx.station k p s) hrec.sms,
    (shedding_errors hrec.record).trans (congrArg LineRec.errors hframe :),
    (shedding_conf hrec.record).trans (congrArg recConf hframe :),
    fun hdone => ⟨hwaiting.trans (finalRec_completed hdone), pageTaken_ended hn (.inl hdone)⟩, abandons_iff s tx.station p,
    fun hmore hab => ⟨hwaiting.trans (finalRec_waiting hmore), pageTaken_ended hn (.inr hab)⟩,
    fun hmore hab => ⟨hwaiting.trans (finalRec_waiting hmore), pageTaken_nextBlock hn hmore hab⟩, fun d hd => ?_,
    recountTaken_flush hrec.msc hadds.baseValid, hrec.others⟩
  refine ⟨finalDoor k p s d, ?_, ?_, fun hk => finalDoor_block hk p s d, finalDoor_presses k p s d,
    fun hdone => finalDoor_completed hdone s d, fun hmore => finalDoor_notCompleted hmore s d⟩
  · rw [hdoor, finalRec_door, hd]
    rfl
  · rintro rfl
    exact finalDoor_head p s d

/-! ## Shedding (R142) -/

/-- The test of R142 at a configured station whose record is `r`. -/
theorem shedCondition_iff {x : Nat} {st : StationRec} {s : State} (hst : tblGet s.sms.stations x = some st) (r : LineRec) :
    shedCondition s x r = true ↔ ShedsBlank s x st r.confSerial
      ∨ s.msc.reserve = true ∧ st.essential = false ∧ lineStatus s x = .lost := by
  simp only [shedCondition, hst, excluded, Bool.and_eq_true, Bool.or_eq_true, Bool.not_eq_true', decide_eq_true_eq,
    ShedsBlank]
  tauto

theorem lineStatus_lost_iff {s : State} {x : Nat} {st : StationRec} (hst : tblGet s.sms.stations x = some st) :
    lineStatus s x = .lost ↔ s.sms.settings.missLimit ≤ (lineRec s.lcs x).misses := by
  have hhas : tblHas s.sms.stations x = true := by
    rw [tblHas, hst]
    rfl
  simp only [lineStatus, statusOf, hhas, Bool.not_true, Bool.false_eq_true, if_false]
  split
  · rename_i h
    exact ⟨fun _ => h, fun _ => rfl⟩
  · rename_i h
    refine ⟨fun hl => ?_, fun hm => absurd hm h⟩
    split at hl
    · injection hl
    · split at hl <;> injection hl

/-- What the test sets when the record of a configured station changes to `r`. -/
theorem recordTaken_shed {x : Nat} {st : StationRec} {r : LineRec} {s u : State} (h : RecordTaken x r s u)
    (hst : tblGet s.sms.stations x = some st) :
    (lineRec u.lcs x).shed = true ↔ r.shed = true ∨ ShedsBlank s x st r.confSerial
      ∨ s.msc.reserve = true ∧ st.essential = false ∧ s.sms.settings.missLimit ≤ r.misses := by
  have hiff := shedCondition_iff (s := { s with lcs := setLineRec x r s.lcs }) hst r
  rw [lineStatus_lost_iff (s := { s with lcs := setLineRec x r s.lcs }) hst, lineRec_set_self] at hiff
  rw [h.shed]
  exact or_congr_right hiff

/-! ## The beginning of the regime sheds (R86, R142) -/

/-- The regime holds and every station that is not essential has been composed. -/
def blanked (s : State) : State := composeMarked (nonEssential (withReserve true s)) (withReserve true s)

theorem candidate_excluded_eq {s : State} {st : StationRec} (h : excluded s st = true) (x : Nat) :
    candidate s x st = normalPage .blank [] [] false := if_pos h

theorem excluded_blanked {st : StationRec} (s : State) (hess : st.essential = false) : excluded (blanked s) st = true := by
  show (true && !st.essential) = true
  rw [hess]
  rfl

section Blanked

variable {x : Nat} {st : StationRec} {s : State} (hst : tblGet s.sms.stations x = some st) (hess : st.essential = false)

include hst hess

theorem pageRec_blanked :
    pageRec (blanked s).pco x = takeCandidate (normalPage .blank [] [] false) (pageRec s.pco x) := by
  have hx : x ∈ nonEssential (withReserve true s) := mem_nonEssential (s := withReserve true s) hst hess
  have hexcluded : excluded (withReserve true s) st = true := by
    show (true && !st.essential) = true
    rw [hess]
    rfl
  rw [blanked, composeMarked_pageRec_marked (s := withReserve true s) hst hx, candidate_excluded_eq hexcluded]
  rfl

/-- The end of CALLED composes the BLANK page again, which leaves it. -/
theorem pageRec_reserveBegun :
    pageRec (flush (completeTest (reserveBegun s))).pco x = pageRec (blanked s).pco x := by
  have hpco : (reserveBegun s).pco = (blanked s).pco := rfl
  rw [flush_pco, completeTest_eq]
  split
  · have hcand : candidate { reserveBegun s with msc := endedMsc (reserveBegun s).msc } x st
        = normalPage .blank [] [] false :=
      candidate_excluded_eq (s := { reserveBegun s with msc := endedMsc (reserveBegun s).msc })
        (excluded_blanked s hess) x
    have hcompose : pageRec (enterMustering (reserveBegun s)).pco x
        = takeCandidate (candidate { reserveBegun s with msc := endedMsc (reserveBegun s).msc } x st)
            (pageRec (reserveBegun s).pco x) :=
      composeMarked_pageRec_marked (s := { reserveBegun s with msc := endedMsc (reserveBegun s).msc }) hst
        (mem_keys_of_get hst)
    rw [hcompose, hcand, hpco, pageRec_blanked hst hess, takeCandidate_twice]
  · rw [hpco]

theorem desiredPage_blanked : desiredPage (blanked s).pco x = some { body := .blank, musterSerial := 0 } := by
  rw [desiredPage, pageRec_blanked hst hess]
  rfl

end Blanked

theorem shedTests_shed {x : Nat} (s : State) (hhas : tblHas s.lcs.recs x = true) :
    (lineRec (shedTests s).lcs x).shed = true ↔
      (lineRec s.lcs x).shed = true ∨ shedCondition s x (lineRec s.lcs x) = true := by
  obtain ⟨r, hr⟩ := Option.isSome_iff_exists.1 hhas
  have hbefore : lineRec s.lcs x = r := by rw [lineRec, tblGetD, hr]; rfl
  have hafter : lineRec (shedTests s).lcs x = if shedCondition s x r then { r with shed := true } else r := by
    simp only [lineRec, tblGetD, shedTests, tblGet_map, hr, Option.map_some, Option.getD_some]
  rw [hafter, hbefore]
  by_cases h : shedCondition s x r = true
  · rw [if_pos h]
    exact ⟨fun _ => .inr h, fun _ => rfl⟩
  · rw [if_neg h]
    exact ⟨.inl, fun hs => hs.resolve_right h⟩

theorem reserveBegun_shed {x : Nat} {st : StationRec} {s : State} (hst : tblGet s.sms.stations x = some st)
    (hhas : tblHas s.lcs.recs x = true) :
    (lineRec (flush (completeTest (reserveBegun s))).lcs x).shed = true ↔
      (lineRec s.lcs x).shed = true ∨ st.essential = false
        ∧ (lineStatus s x = .lost
          ∨ (lineRec s.lcs x).confSerial = desiredSerial (flush (completeTest (reserveBegun s))).pco x) := by
  have hlcs : lineRec (flush (completeTest (reserveBegun s))).lcs x = lineRec (shedTests (blanked s)).lcs x := rfl
  have hstatus : lineStatus (blanked s) x = lineStatus s x := rfl
  rw [hlcs, shedTests_shed (blanked s) hhas, shedCondition_iff (s := blanked s) hst, hstatus]
  refine or_congr_right ?_
  cases hess : st.essential with
  | true => simp [ShedsBlank, hess]
  | false =>
    have hpage := desiredPage_blanked hst hess
    have hserial : desiredSerial (flush (completeTest (reserveBegun s))).pco x = desiredSerial (blanked s).pco x := by
      unfold desiredSerial
      rw [pageRec_reserveBegun hst hess]
    have hreserve : (blanked s).msc.reserve = true := rfl
    rw [hserial, ShedsBlank, hpage, hreserve, hess]
    simp only [Option.map_some, true_and, and_true]
    exact or_comm

/-- Settles O35: a STATE leaves the station ONLINE, so that its page alone sheds it; a missed frame and the beginning of the
regime shed it when it is LOST too. -/
theorem shedUnderReserve : Obligations.ShedUnderReserve := by
  unfold Obligations.ShedUnderReserve
  refine ⟨?_, ?_, ?_⟩
  · rintro n x tx st flags service assist serial s hphase hn htxn rfl hnone ha hst hlimit
    have hrec := recordTaken_stateTaken n tx.station (stateFields flags service assist serial) s
    have hframe := stateLeft_frame tx.station (stateFields flags service assist serial) s
    have hmisses : (stateLeft tx.station (stateFields flags service assist serial) s).record.misses = 0 :=
      (congrArg LineRec.misses hframe :)
    have hshed : (stateLeft tx.station (stateFields flags service assist serial) s).record.shed
        = (lineRec s.lcs tx.station).shed := (congrArg LineRec.shed hframe :)
    have hconf : (lineRec (flush (stateTaken n tx.station (stateFields flags service assist serial) s)).lcs
          tx.station).confSerial = (stateLeft tx.station (stateFields flags service assist serial) s).record.confSerial :=
      congrArg Prod.fst (shedding_conf hrec.record)
    have hiff := recordTaken_shed hrec hst
    refine ⟨_, exec_stateAnswer hphase htxn hnone ha flags service assist serial, ?_⟩
    rw [flush_lcs, hiff, hshed, hmisses, ← hconf]
    refine or_congr_right ⟨fun h => h.resolve_right fun hl => ?_, .inl⟩
    have := hl.2.2
    omega
  · rintro n x tx st s hphase hn htxn rfl hleft hcoming hst
    have hrec := recordTaken_endedTxn false n idlePeriods tx (s := s) (v := s) rfl
    have hiff := recordTaken_shed hrec hst
    have hconf : (endedRec false tx s).confSerial = (lineRec s.lcs tx.station).confSerial :=
      congrArg Prod.fst (endedRec_conf false tx s)
    refine ⟨_, exec_replyWindowTimeout hphase htxn hleft hcoming, ?_⟩
    rw [flush_lcs, hiff, (endedRec_kept false tx s).2.2, hconf, (endedRec_missed tx s).1]
  · intro x st s hphase hanswered hpin hlevel hst hhas
    exact ⟨_, exec_reserveRise hphase hanswered hpin hlevel, reserveBegun_shed hst hhas⟩

end Sys2Proof.Machine

/-! PROOFS. The presses of a STATE and the acknowledge array (R150 to R154). -/

namespace Sys2Proof.Machine

open Sys2Proof.Safety

/-! ## Counting presses (R150, R151) -/

theorem add_sub_toNat {t ack : Byte} {n : Nat} (h : (t - ack).toNat + n < 256) :
    (t + BitVec.ofNat 8 n - ack).toNat = (t - ack).toNat + n := by
  have hswap : t + BitVec.ofNat 8 n - ack = t - ack + BitVec.ofNat 8 n := by
    rw [BitVec.sub_eq_add_neg, BitVec.sub_eq_add_neg, BitVec.add_assoc, BitVec.add_assoc, BitVec.add_comm (BitVec.ofNat 8 n)]
  rw [hswap, BitVec.toNat_add, BitVec.toNat_ofNat]
  omega

/-- An increment is counted up to 63 pending, and the rest is lost (R151). -/
theorem addPresses_eq {t ack : Byte} (k : Nat) (h : (t - ack).toNat ≤ 63) :
    ((addPresses t ack k).1 - ack).toNat = min 63 ((t - ack).toNat + k)
      ∧ (addPresses t ack k).2 = (t - ack).toNat + k - 63 := by
  unfold addPresses
  dsimp only
  split
  · rename_i hfits
    rw [add_sub_toNat (by omega)]
    exact ⟨by omega, by omega⟩
  · rename_i hover
    rw [add_sub_toNat (by omega)]
    exact ⟨by omega, rfl⟩

theorem pendingRose_iff (masked : Bool) (d e : DoorRec) :
    pendingRose masked d e = true ↔ masked = false ∧ pendingService d = 0 ∧ 0 < pendingService e
      ∨ pendingAssist d = 0 ∧ 0 < pendingAssist e := by
  simp only [pendingRose, Bool.or_eq_true, Bool.and_eq_true, decide_eq_true_eq, Bool.not_eq_true']
  tauto

section Presses

variable (masked : Bool) (service assist : Byte) (d : DoorRec)

theorem doorPresses_pendingService (h : pendingService d ≤ 63) :
    pendingService (doorPresses masked service assist d).door
      = min 63 (pendingService d + (service - d.lastService).toNat) := (addPresses_eq _ h).1

theorem doorPresses_pendingAssist (h : pendingAssist d ≤ 63) :
    pendingAssist (doorPresses masked service assist d).door
      = min 63 (pendingAssist d + (assist - d.lastAssist).toNat) := (addPresses_eq _ h).1

theorem doorPresses_lost (hservice : pendingService d ≤ 63) (hassist : pendingAssist d ≤ 63) :
    (doorPresses masked service assist d).lost
      = (pendingService d + (service - d.lastService).toNat - 63) + (pendingAssist d + (assist - d.lastAssist).toNat - 63) :=
  congrArg₂ (· + ·) (addPresses_eq _ hservice).2 (addPresses_eq _ hassist).2

/-- The event of the presses, in the pending counts before and after them. -/
theorem doorPresses_event : (doorPresses masked service assist d).event = true ↔
    masked = false ∧ pendingService d = 0 ∧ 0 < pendingService (doorPresses masked service assist d).door
      ∨ pendingAssist d = 0 ∧ 0 < pendingAssist (doorPresses masked service assist d).door :=
  pendingRose_iff masked d _

theorem doorPresses_attention : (doorPresses masked service assist d).door.attention = true ↔
    d.attention = true ∨ (doorPresses masked service assist d).event = true := by
  show (d.attention || (doorPresses masked service assist d).event) = true ↔ _
  rw [Bool.or_eq_true]

end Presses

/-! ## A STATE whose presses count, at a cabin -/

theorem comparedRec_door (a : StateFields) (r : LineRec) : (comparedRec a r).door = r.door :=
  (congrArg LineRec.door (comparedRec_frame a r) :)

/-- What the presses of a STATE come to at the cabin's door. -/
theorem stateLeft_door {x : Nat} {a : StateFields} {s : State} {d : DoorRec} (hbase : (lineRec s.lcs x).baseline = true)
    (hfresh : a.fresh = false) (hd : (lineRec s.lcs x).door = some d) :
    (stateLeft x a s).record.door = some (doorPresses (decide (s.msc.state ≠ .standby)) a.service a.assist d).door
      ∧ (stateLeft x a s).lost = (doorPresses (decide (s.msc.state ≠ .standby)) a.service a.assist d).lost
      ∧ (stateLeft x a s).event = (doorPresses (decide (s.msc.state ≠ .standby)) a.service a.assist d).event := by
  have hdoor : (comparedRec a (answered s.clk.second (lineRec s.lcs x))).door = some d :=
    (comparedRec_door a (answered s.clk.second (lineRec s.lcs x))).trans hd
  rw [stateLeft_compared hbase hfresh]
  simp only [pressEffect, hdoor, and_self]

theorem stateTaken_notFresh {n x : Nat} {a : StateFields} {s : State} (hfresh : a.fresh = false) :
    stateTaken n x a s = stateEnded n x a s := by
  rw [stateTaken_eq, if_neg (Bool.not_eq_true _ ▸ hfresh)]

theorem stateXu_event {x : Nat} {v : Word32} {e : StateEffect} (u : XuState) (h : e.event = true) :
    CauseHeld 1 (stateXu x v e u) := by
  unfold stateXu
  dsimp only
  rw [if_pos h]
  exact causeHeld_causeDue .attention _

theorem counters_causeDue (c : Cause) (x : XuState) : (causeDue c x).counters = x.counters := by
  unfold causeDue
  split <;> rfl

theorem stateXu_lost {x : Nat} {v : Word32} {e : StateEffect} (u : XuState) (h : e.lost ≠ 0) :
    (stateXu x v e u).counters.lostPresses = min 65535 (u.counters.lostPresses + e.lost) := by
  have hfault : (recordFault .lostPresses (some x) v e.lost u).counters.lostPresses
      = min 65535 (u.counters.lostPresses + e.lost) := by
    rw [recordFault_counters, ← satAdd_eq]
    rfl
  unfold stateXu
  dsimp only
  rw [if_pos (Nat.pos_of_ne_zero h)]
  split
  · rw [counters_causeDue, hfault]
  · exact hfault

theorem stateEnded_told {n x : Nat} {a : StateFields} {s : State} (h : (stateLeft x a s).event = true) :
    CauseTold 1 s (flush (stateEnded n x a s)) := by
  have hadds : Adds (stateXu x s.clk.second (stateLeft x a s) s.xu) (stateEnded n x a s).xu :=
    adds_finishTxn n x idlePeriods (stateLeft x a s).record { s with xu := stateXu x s.clk.second (stateLeft x a s) s.xu }
  have hbase : Adds s.xu (stateXu x s.clk.second (stateLeft x a s) s.xu) := adds_stateXu x _ _ (Adds.refl s.xu)
  exact causeTold_flush ((stateXu_event s.xu h).mono hadds.holds) (hadds.baseValid.trans hbase.baseValid)

theorem stateEnded_lost {n x : Nat} {a : StateFields} {s : State} (h : (stateLeft x a s).lost ≠ 0) :
    (flush (stateEnded n x a s)).xu.counters.lostPresses
      = min 65535 (s.xu.counters.lostPresses + (stateLeft x a s).lost) := by
  have hcounts : otherCounts (flush (stateEnded n x a s)).xu
      = otherCounts (stateXu x s.clk.second (stateLeft x a s) s.xu) := by
    rw [otherCounts_flush]
    exact otherCounts_finishTxn n x idlePeriods (stateLeft x a s).record
      { s with xu := stateXu x s.clk.second (stateLeft x a s) s.xu }
  rw [lostPresses_of_counts hcounts, stateXu_lost s.xu h]

theorem unmasked_iff (c : MusterState) : decide (c ≠ .standby) = false ↔ c = .standby := by
  rw [decide_eq_false_iff_not, not_not]

/-! ## One acknowledgement pair (R152, R154) -/

theorem takeAck_near {t ack : Byte} (h : (t - ack).toNat ≤ 63) : takeAck t ack = ack := if_pos h

theorem takeAck_far {t ack : Byte} (h : 63 < (t - ack).toNat) : takeAck t ack = t := if_neg (Nat.not_le.2 h)

theorem synchronised_pending (ack p : Byte) : (ack + BitVec.ofNat 8 p.toNat - ack).toNat = p.toNat := by
  rw [BitVec.ofNat_toNat, BitVec.setWidth_eq, BitVec.add_comm, BitVec.add_sub_cancel]

section Ack

variable (masked : Bool) (service assist : Byte) {d : DoorRec}

theorem ackedDoor_frame (d : DoorRec) : { ackedDoor service assist d with
    serviceTally := d.serviceTally, assistTally := d.assistTally, serviceAck := d.serviceAck, assistAck := d.assistAck
    synced := d.synced } = d := by
  unfold ackedDoor
  split
  · rfl
  · rfl

theorem ackedDoor_synced (d : DoorRec) : (ackedDoor service assist d).synced = true := by
  unfold ackedDoor
  split
  · rename_i h
    exact h
  · rfl

/-- A first pair synchronises, the pending counts kept. -/
theorem ackedDoor_first (h : d.synced = false) :
    (ackedDoor service assist d).serviceAck = service ∧ (ackedDoor service assist d).assistAck = assist
      ∧ pendingService (ackedDoor service assist d) = pendingService d
      ∧ pendingAssist (ackedDoor service assist d) = pendingAssist d := by
  rw [ackedDoor, if_neg (Bool.not_eq_true _ ▸ h)]
  exact ⟨rfl, rfl, synchronised_pending service (d.serviceTally - d.serviceAck),
    synchronised_pending assist (d.assistTally - d.assistAck)⟩

/-- A later pair is taken count by count. -/
theorem ackedDoor_later (h : d.synced = true) : ackedDoor service assist d
    = { d with serviceAck := takeAck d.serviceTally service, assistAck := takeAck d.assistTally assist } := if_pos h

theorem sub_self_toNat (t : Byte) : (t - t).toNat = 0 := by
  rw [BitVec.sub_self]
  rfl

theorem ackedDoor_later_fields (h : d.synced = true) :
    (ackedDoor service assist d).serviceTally = d.serviceTally ∧ (ackedDoor service assist d).assistTally = d.assistTally
      ∧ ((d.serviceTally - service).toNat ≤ 63 → (ackedDoor service assist d).serviceAck = service)
      ∧ (63 < (d.serviceTally - service).toNat → pendingService (ackedDoor service assist d) = 0)
      ∧ ((d.assistTally - assist).toNat ≤ 63 → (ackedDoor service assist d).assistAck = assist)
      ∧ (63 < (d.assistTally - assist).toNat → pendingAssist (ackedDoor service assist d) = 0) := by
  rw [ackedDoor_later service assist h]
  refine ⟨rfl, rfl, takeAck_near, fun hfar => ?_, takeAck_near, fun hfar => ?_⟩
  · show (d.serviceTally - takeAck d.serviceTally service).toNat = 0
    rw [takeAck_far hfar, sub_self_toNat]
  · show (d.assistTally - takeAck d.assistTally assist).toNat = 0
    rw [takeAck_far hfar, sub_self_toNat]

theorem doorAcks_attention (d : DoorRec) : (doorAcks masked service assist d).attention = true ↔
    ¬(pendingService (doorAcks masked service assist d) = 0 ∧ pendingAssist (doorAcks masked service assist d) = 0)
      ∧ (d.attention = true
        ∨ masked = false ∧ pendingService d = 0 ∧ 0 < pendingService (doorAcks masked service assist d)
        ∨ pendingAssist d = 0 ∧ 0 < pendingAssist (doorAcks masked service assist d)) := by
  show (!(decide (pendingService (ackedDoor service assist d) = 0) && decide (pendingAssist (ackedDoor service assist d) = 0))
    && (d.attention || pendingRose masked d (ackedDoor service assist d))) = true ↔ _
  rw [Bool.and_eq_true, Bool.or_eq_true, pendingRose_iff]
  simp only [Bool.not_eq_true', Bool.and_eq_false_iff, decide_eq_false_iff_not, not_and_or]
  exact Iff.rfl

end Ack

/-! ## The acknowledge array (R152, R181) -/

theorem exec_ackArrayRead {s : State} (hphase : s.phase = .operating) {left : Nat} (hsurvey : s.xu.survey = some (.acks true left))
    (bs : List Byte) : exec (.ackArrayRead bs) s = .next (flush (acksTaken bs s)) := by
  show execAckArrayRead bs s = _
  unfold execAckArrayRead
  rw [hsurvey]
  exact answer_takes _ hphase rfl

theorem acksLines_lineRec {masked : Bool} {bs : List Byte} {stations : Tbl StationRec} (l : LcsState) (x : Nat) :
    lineRec (acksLines masked bs stations l) x
      = if tblHas stations x then onDoor (doorAcks masked (byteAt bs (4 * x)) (byteAt bs (4 * x + 1))) (lineRec l x)
        else lineRec l x := by
  simp only [lineRec, tblGetD, acksLines, tblGet_map]
  cases tblGet l.recs x with
  | some r => rfl
  | none => split <;> rfl

theorem acksEvent_of {masked : Bool} {bs : List Byte} {stations : Tbl StationRec} {l : LcsState} {x : Nat} {d : DoorRec}
    (hhas : tblHas stations x = true) (hd : (lineRec l x).door = some d)
    (hrose : pendingRose masked d (ackedDoor (byteAt bs (4 * x)) (byteAt bs (4 * x + 1)) d) = true) :
    acksEvent masked bs stations l = true := by
  obtain ⟨r, hr⟩ := Option.isSome_iff_exists.1 ((mem_keys ..).1 (mem_keys_of_door hd))
  have hrec : lineRec l x = r := by rw [lineRec, tblGetD, hr]; rfl
  rw [hrec] at hd
  refine List.any_eq_true.2 ⟨(x, r), get_mem hr, ?_⟩
  simp only [hhas, hd, Option.map_some, Option.getD_some, Bool.true_and]
  exact hrose

/-- Step 4 of a survey begins no cause and drops none. -/
theorem holds_surveyWrites (n : Nat) (s : State) : Holds s.xu (surveyWrites n s).xu := by
  have hsame : (surveyWrites n s).xu.causes = s.xu.causes ∧ (surveyWrites n s).xu.waiting = s.xu.waiting
      ∧ (surveyWrites n s).xu.reportDue = s.xu.reportDue := by
    rcases surveyWrites_cases n s with ⟨-, ⟨x, -, h⟩ | ⟨-, h⟩⟩ | ⟨-, h⟩
    · rw [h]
      exact ⟨rfl, rfl, rfl⟩
    · rw [h]
      exact ⟨rfl, rfl, rfl⟩
    · rw [h]
      exact ⟨endSurvey_causes s.xu, endSurvey_waiting s.xu, endSurvey_reportDue s.xu⟩
  exact holds_of_same (surveyWrites_held n s) hsame.1 hsame.2.1 hsame.2.2

/-- The acknowledge array has been taken at the doors, before step 4 follows. -/
def acksAtDoors (bs : List Byte) (s : State) : State :=
  { s with
    lcs := acksLines (decide (s.msc.state ≠ .standby)) bs s.sms.stations s.lcs
    xu := if acksEvent (decide (s.msc.state ≠ .standby)) bs s.sms.stations s.lcs then causeDue .attention s.xu else s.xu }

theorem acksTaken_eq (bs : List Byte) (s : State) : acksTaken bs s = surveyWrites 0 (acksAtDoors bs s) := rfl

theorem acksTaken_lineRec (bs : List Byte) (s : State) (x : Nat) :
    lineRec (flush (acksTaken bs s)).lcs x = if tblHas s.sms.stations x then
      onDoor (doorAcks (decide (s.msc.state ≠ .standby)) (byteAt bs (4 * x)) (byteAt bs (4 * x + 1))) (lineRec s.lcs x)
      else lineRec s.lcs x := acksLines_lineRec s.lcs x

theorem acksTaken_told {bs : List Byte} {s : State}
    (h : acksEvent (decide (s.msc.state ≠ .standby)) bs s.sms.stations s.lcs = true) :
    CauseTold 1 s (flush (acksTaken bs s)) := by
  have hxu : (acksAtDoors bs s).xu = causeDue .attention s.xu := if_pos h
  have hheld : CauseHeld 1 (acksAtDoors bs s).xu := by
    rw [hxu]
    exact causeHeld_causeDue .attention s.xu
  have hbase : baseValid (acksAtDoors bs s).xu = baseValid s.xu := by
    rw [hxu]
    exact (adds_causeDue .attention (Adds.refl s.xu)).baseValid
  have hholds := holds_surveyWrites 0 (acksAtDoors bs s)
  exact causeTold_flush (hheld.mono hholds) (hholds.valid.trans hbase)

/-- Settles O32: the presses are counted at the door with what they lose, and each acknowledgement pair is taken at its
door. -/
theorem pressesAndAcks : Obligations.PressesAndAcks := by
  unfold Obligations.PressesAndAcks
  refine ⟨?_, ?_⟩
  · rintro n x tx d flags service assist serial s hphase htxn rfl hnone ha hbase hflag hd hservice hassist
    have hfresh : (stateFields flags service assist serial).fresh = false := hflag
    obtain ⟨hdoor, hlost, hevent⟩ := stateLeft_door hbase hfresh hd
    have hrose := doorPresses_event (decide (s.msc.state ≠ .standby)) service assist d
    rw [unmasked_iff] at hrose
    have hlosses : (stateLeft tx.station (stateFields flags service assist serial) s).lost
        = (pendingService d + (service - d.lastService).toNat - 63) + (pendingAssist d + (assist - d.lastAssist).toNat - 63) :=
      hlost.trans (doorPresses_lost (decide (s.msc.state ≠ .standby)) service assist d hservice hassist)
    refine ⟨_, _, exec_stateAnswer hphase htxn hnone ha flags service assist serial,
      (stateTaken_door n tx.station (stateFields flags service assist serial) s).trans hdoor,
      doorPresses_pendingService _ service assist d hservice, doorPresses_pendingAssist _ service assist d hassist, rfl, rfl,
      rfl, rfl, rfl, rfl, rfl, ?_, fun hr => ?_, fun hl => ?_⟩
    · exact (doorPresses_attention _ service assist d).trans (or_congr_right hrose)
    · rw [stateTaken_notFresh hfresh]
      exact stateEnded_told (hevent.trans (hrose.2 hr))
    · rw [← hlosses] at hl ⊢
      rw [stateTaken_notFresh hfresh]
      exact stateEnded_lost hl
  · intro bs left s hphase hsurvey
    refine ⟨_, exec_ackArrayRead hphase hsurvey bs, fun x d hhas hd => ?_, fun x hhas => ?_, fun x => ?_, rfl, rfl⟩
    · have hframe := ackedDoor_frame (byteAt bs (4 * x)) (byteAt bs (4 * x + 1)) d
      refine ⟨doorAcks (decide (s.msc.state ≠ .standby)) (byteAt bs (4 * x)) (byteAt bs (4 * x + 1)) d, ?_,
        ackedDoor_synced _ _ d, ackedDoor_first _ _, ackedDoor_later_fields _ _, ?_, fun hr => ?_,
        (congrArg DoorRec.refresh hframe :), (congrArg DoorRec.lastService hframe :),
        (congrArg DoorRec.lastAssist hframe :)⟩
      · rw [acksTaken_lineRec, if_pos hhas, onDoor, hd]
        rfl
      · have hattention := doorAcks_attention (decide (s.msc.state ≠ .standby)) (byteAt bs (4 * x)) (byteAt bs (4 * x + 1)) d
        rwa [unmasked_iff] at hattention
      · refine acksTaken_told (acksEvent_of hhas hd ((pendingRose_iff _ d _).2 ?_))
        rw [unmasked_iff]
        exact hr
    · rw [acksTaken_lineRec, if_neg (Bool.not_eq_true _ ▸ hhas)]
    · rw [confirmedPage_eq, acksTaken_lineRec, confirmedPage_eq]
      split <;> rfl

end Sys2Proof.Machine

/-! PROOFS. The end of a status record write and of a report write, and the next write that begins (R183, R186 to R188). -/

namespace Sys2Proof.Machine

open Sys2Proof.Safety

/-! ## Step 4 of a survey from a station on (R181, R186) -/

theorem surveyWrites_frame (n : Nat) (s : State) :
    { (surveyWrites n s).xu with
      survey := s.xu.survey, surveyPending := s.xu.surveyPending, surveyBase := s.xu.surveyBase, status := s.xu.status }
      = s.xu := by
  rcases surveyWrites_cases n s with ⟨-, ⟨x, -, h⟩ | ⟨-, h⟩⟩ | ⟨-, h⟩
  · rw [h]
    rfl
  · rw [h]
  · rw [h]
    exact (congrArg (fun x : XuState => { x with status := s.xu.status }) (endSurvey_frame s.xu) :)

theorem statusHold_markStatus_self (x : Nat) (b : Bool) (u : XuState) :
    statusHold (markStatus x b u) x = { statusHold u x with mark := b } := by
  simp only [statusHold, markStatus, tblGetD_put_self]

theorem statusHold_markStatus_ne {x y : Nat} (b : Bool) (u : XuState) (h : y ≠ x) :
    statusHold (markStatus x b u) y = statusHold u y := tblGetD_put_ne u.status _ _ h

theorem nextStatus_ge {s : State} {n x : Nat} (h : nextStatus s n = some x) : n ≤ x := by
  have hx := List.find?_some h
  simp only [Bool.and_eq_true, decide_eq_true_eq] at hx
  exact hx.1

/-- A record below the station from which step 4 goes on is not touched. -/
theorem surveyWrites_hold {n x : Nat} (s : State) (h : x < n) : statusHold (surveyWrites n s).xu x = statusHold s.xu x := by
  rcases surveyWrites_cases n s with ⟨-, ⟨y, hy, hxu⟩ | ⟨-, hxu⟩⟩ | ⟨-, hxu⟩
  · have hne : x ≠ y := by
      have := nextStatus_ge hy
      omega
    rw [hxu, statusHold_markStatus_ne false _ hne]
    rfl
  · rw [hxu]
    rfl
  · rw [hxu, statusHold, endSurvey_status]
    rfl

theorem endSurvey_not_status (u : XuState) (x left : Nat) (r : StatusRec) : (endSurvey u).survey ≠ some (.status x r left) := by
  rcases endSurvey_cases u with h | ⟨-, -, -, h⟩
  · rw [h]
    intro hf
    injection hf
  · rw [h]
    intro hf
    injection hf with hf
    injection hf

/-- Nor is a write of its begun. -/
theorem surveyWrites_not_status {n x : Nat} (s : State) (h : x < n) (r : StatusRec) (left : Nat) :
    (surveyWrites n s).xu.survey ≠ some (.status x r left) := by
  rcases surveyWrites_cases n s with ⟨-, ⟨y, hy, hxu⟩ | ⟨-, hxu⟩⟩ | ⟨-, hxu⟩
  · have := nextStatus_ge hy
    rw [hxu]
    intro hf
    injection hf with hf
    injection hf with hf
    omega
  · rw [hxu]
    intro hf
    injection hf with hf
    injection hf
  · rw [hxu]
    exact endSurvey_not_status s.xu x left r

/-- The end of a command begins no status write. -/
theorem startReports_not_status {f : ReportFields} {u : XuState} {x left : Nat} {r : StatusRec}
    (h : u.survey ≠ some (.status x r left)) : (startReports f u).survey ≠ some (.status x r left) := by
  rcases startReports_cases f u with hu | ⟨-, ⟨-, ⟨q, rest, -, hu⟩ | ⟨-, hu⟩ | ⟨-, -, -, hu⟩⟩ | ⟨-, hu | ⟨-, hu⟩⟩⟩
  · rwa [hu]
  · rw [hu]
    exact h
  · rw [hu]
    exact h
  · rw [hu]
    exact endSurvey_not_status u x left r
  · rw [hu]
    exact h
  · rw [hu]
    exact endSurvey_not_status _ x left r

theorem flush_not_status {s : State} {x left : Nat} {r : StatusRec} (h : s.xu.survey ≠ some (.status x r left)) :
    (flush s).xu.survey ≠ some (.status x r left) := startReports_not_status h

/-! ## The end of a status write (R183, R186) -/

theorem exec_statusRecordWritten {s : State} (hphase : s.phase = .operating) {x left : Nat} {r : StatusRec}
    (h : s.xu.survey = some (.status x r left)) : exec .statusRecordWritten s = .next (flush (statusDone x r s)) := by
  show execStatusRecordWritten s = _
  unfold execStatusRecordWritten
  rw [h]
  exact answer_takes _ hphase rfl

theorem exec_statusWriteFailed {s : State} (hphase : s.phase = .operating) {x left : Nat} {r : StatusRec}
    (h : s.xu.survey = some (.status x r left)) : exec .statusWriteFailed s = .next (flush (statusFailed x s)) := by
  show execStatusWriteFailed s = _
  unfold execStatusWriteFailed
  rw [h]
  exact answer_takes _ hphase rfl

/-- A status record is held as written. -/
def statusHeld (x : Nat) (r : StatusRec) (s : State) : State :=
  { s with xu := { s.xu with status := tblPut s.xu.status x { statusHold s.xu x with written := some r } } }

/-- A status write failed: counted, and the record marked. -/
def statusMarked (x : Nat) (s : State) : State :=
  { s with xu := markStatus x true (recordFault .reportWrite none s.clk.second 1 s.xu) }

/-- What step 4 leaves of the rest of the Exchange Unit once its report writes have begun. -/
theorem flush_surveyWrites (n : Nat) (s : State) :
    (flush (surveyWrites n s)).xu.counters = s.xu.counters ∧ (flush (surveyWrites n s)).xu.causes = s.xu.causes
      ∧ (flush (surveyWrites n s)).xu.lastFault = s.xu.lastFault
      ∧ (flush (surveyWrites n s)).xu.status = (surveyWrites n s).xu.status
      ∧ xuHeld (flush (surveyWrites n s)).xu = xuHeld s.xu := by
  have hframe := surveyWrites_frame n s
  refine ⟨(startReports_counters ..).trans (congrArg XuState.counters hframe :),
    (startReports_causes ..).trans (congrArg XuState.causes hframe :),
    (startReports_lastFault ..).trans (congrArg XuState.lastFault hframe :), startReports_status .., ?_⟩
  exact (startReports_held _ _).trans (surveyWrites_held n s)

theorem statusHold_of_status {u v : XuState} (h : u.status = v.status) (x : Nat) : statusHold u x = statusHold v x := by
  rw [statusHold, h]
  rfl

theorem reportWriteFault (v : Word32) (u : XuState) : recordFault .reportWrite none v 1 u
    = { u with
        counters := { u.counters with reportWrite := min 65535 (u.counters.reportWrite + 1) }
        lastFault := { kind := .reportWrite, subject := none, second := v }
        causes := (latch .fault u).causes, msiSent := (latch .fault u).msiSent } := by
  rw [← satAdd_eq]
  rfl

theorem statusDone_leaves {x left : Nat} {r : StatusRec} {s : State} (hphase : s.phase = .operating)
    (hsurvey : s.xu.survey = some (.status x r left)) :
    ∃ t, exec .statusRecordWritten s = .next t ∧ (statusHold t.xu x).written = some r
      ∧ (∀ c l, t.xu.survey ≠ some (.status x c l))
      ∧ (statusHold t.xu x).mark = (statusHold s.xu x).mark ∧ t.xu.counters = s.xu.counters
      ∧ t.xu.causes = s.xu.causes ∧ SameRegisters s.xu t.xu ∧ { t with xu := s.xu } = s := by
  obtain ⟨hcounters, hcauses, -, hstatus, hheld⟩ := flush_surveyWrites (x + 1) (statusHeld x r s)
  have hne : ∀ c l, (flush (surveyWrites (x + 1) (statusHeld x r s))).xu.survey ≠ some (.status x c l) := fun c l =>
    flush_not_status (surveyWrites_not_status (statusHeld x r s) (Nat.lt_add_one x) c l)
  have hhold : statusHold (flush (surveyWrites (x + 1) (statusHeld x r s))).xu x
      = { statusHold s.xu x with written := some r } :=
    ((statusHold_of_status hstatus x).trans (surveyWrites_hold _ (Nat.lt_add_one x))).trans (tblGetD_put_self ..)
  refine ⟨_, exec_statusRecordWritten hphase hsurvey, (congrArg StatusHold.written hhold :),
    hne, (congrArg StatusHold.mark hhold :),
    hcounters, hcauses, sameRegisters_of_held hheld, rfl⟩

theorem statusFailed_leaves {x left : Nat} {r : StatusRec} {s : State} (hphase : s.phase = .operating)
    (hsurvey : s.xu.survey = some (.status x r left)) :
    ∃ t, exec .statusWriteFailed s = .next t ∧ (statusHold t.xu x).mark = true
      ∧ (∀ c l, t.xu.survey ≠ some (.status x c l))
      ∧ (statusHold t.xu x).written = (statusHold s.xu x).written
      ∧ t.xu.counters = { s.xu.counters with reportWrite := min 65535 (s.xu.counters.reportWrite + 1) }
      ∧ t.xu.lastFault = { kind := .reportWrite, subject := none, second := s.clk.second }
      ∧ t.xu.causes = s.xu.causes ||| 16#7 ∧ SameRegisters s.xu t.xu ∧ { t with xu := s.xu } = s := by
  obtain ⟨hcounters, hcauses, hfault, hstatus, hheld⟩ := flush_surveyWrites (x + 1) (statusMarked x s)
  have hrecorded := reportWriteFault s.clk.second s.xu
  have hmarked : statusHold (statusMarked x s).xu x = { statusHold s.xu x with mark := true } := by
    show statusHold (markStatus x true (recordFault .reportWrite none s.clk.second 1 s.xu)) x = _
    rw [statusHold_markStatus_self, hrecorded]
    rfl
  have hne : ∀ c l, (flush (surveyWrites (x + 1) (statusMarked x s))).xu.survey ≠ some (.status x c l) := fun c l =>
    flush_not_status (surveyWrites_not_status (statusMarked x s) (Nat.lt_add_one x) c l)
  have hhold : statusHold (flush (surveyWrites (x + 1) (statusMarked x s))).xu x = { statusHold s.xu x with mark := true } :=
    ((statusHold_of_status hstatus x).trans (surveyWrites_hold _ (Nat.lt_add_one x))).trans hmarked
  refine ⟨_, exec_statusWriteFailed hphase hsurvey, (congrArg StatusHold.mark hhold :),
    hne,
    (congrArg StatusHold.written hhold :), hcounters.trans (congrArg XuState.counters hrecorded :),
    hfault.trans (congrArg XuState.lastFault hrecorded :), hcauses, sameRegisters_of_held ?_, rfl⟩
  exact hheld.trans (recordFault_held .reportWrite none s.clk.second 1 s.xu)

/-! ## The end of a report write (R183, R187, R188) -/

theorem exec_reportWriteDone {s : State} (hphase : s.phase = .operating) {w : ReportWrite} (h : s.xu.reportWrite = some w) :
    exec .reportWriteDone s = .next (flush { s with xu := reportDone w s.xu }) := by
  show execReportWriteDone s = _
  unfold execReportWriteDone
  rw [h]
  exact answer_takes _ hphase rfl

theorem exec_reportWriteFailed {s : State} (hphase : s.phase = .operating) {w : ReportWrite} (h : s.xu.reportWrite = some w) :
    exec .reportWriteFailed s = .next (flush { s with xu := reportFailed s.clk.second w s.xu }) := by
  show execReportWriteFailed s = _
  unfold execReportWriteFailed
  rw [h]
  exact answer_takes _ hphase rfl

/-- The end of a report write touches the causes and the survey alone. -/
theorem reportEnded_frame (w : ReportWrite) (u : XuState) :
    { reportEnded w u with
      causes := u.causes, msiSent := u.msiSent, survey := u.survey, surveyPending := u.surveyPending
      surveyBase := u.surveyBase } = u := by
  unfold reportEnded
  cases w.reason
  case immediate => rfl
  case halt => rfl
  case survey =>
    exact (congrArg (fun x : XuState => { x with causes := u.causes, msiSent := u.msiSent }) (endSurvey_frame u) :)

theorem reportEnded_causes (w : ReportWrite) (u : XuState) :
    (reportEnded w u).causes = u.causes ||| (if w.reason = .halt then 32#7 else 0) := by
  unfold reportEnded
  cases w.reason
  case halt => rfl
  case immediate => exact (BitVec.or_zero ..).symm
  case survey => exact (endSurvey_causes u).trans (BitVec.or_zero ..).symm

section Starts

variable {f : ReportFields} {u : XuState} (hnone : u.reportWrite = none)

include hnone

/-- A report write that begins has the next serial (log 60). -/
theorem startReports_serial (v : ReportWrite) (h : (startReports f u).reportWrite = some v) :
    v.serial = u.reportSerial + 1 := by
  rcases startReports_cases f u with hu | ⟨-, ⟨-, ⟨q, rest, -, hu⟩ | ⟨-, hu⟩ | ⟨-, -, -, hu⟩⟩ | ⟨-, hu | ⟨-, hu⟩⟩⟩
  · rw [hu, hnone] at h
    injection h
  · rw [hu] at h
    injection h with h
    rw [← h]
  · rw [hu] at h
    injection h with h
    rw [← h]
  · rw [hu, endSurvey_reportWrite, hnone] at h
    injection h
  · rw [hu] at h
    exact absurd (hnone.symm.trans h) (by simp)
  · rw [hu, endSurvey_reportWrite] at h
    exact absurd (hnone.symm.trans h) (by simp)

/-- The causes that waited wait on, or are covered by the write that begins (R187). -/
theorem startReports_waiting (hbase : baseValid u = true) :
    (startReports f u).waiting ||| ((startReports f u).reportWrite.map ReportWrite.covers).getD 0 = u.waiting := by
  rcases startReports_cases f u with hu | ⟨-, ⟨-, ⟨q, rest, -, hu⟩ | ⟨-, hu⟩ | ⟨-, -, -, hu⟩⟩ | ⟨hinvalid, -⟩⟩
  · rw [hu, hnone]
    exact BitVec.or_zero ..
  · rw [hu]
    exact BitVec.zero_or ..
  · rw [hu]
    exact BitVec.zero_or ..
  · rw [hu, endSurvey_reportWrite, endSurvey_waiting, hnone]
    exact BitVec.or_zero ..
  · rw [hbase] at hinvalid
    injection hinvalid

omit hnone in
/-- A marked block stays marked, unless the survey's own write of it begins (R183). -/
theorem startReports_keepsMark (hmark : u.reportMark = true) :
    (startReports f u).reportMark = true ∨ ∃ v, (startReports f u).reportWrite = some v ∧ v.reason = .survey := by
  rcases startReports_cases f u with hu | ⟨-, ⟨-, ⟨q, rest, -, hu⟩ | ⟨-, hu⟩ | ⟨-, -, -, hu⟩⟩ | ⟨-, hu | ⟨-, hu⟩⟩⟩
  · exact .inl (by rw [hu, hmark])
  · rw [hu]
    cases q
    case immediate => exact .inl (by simp [beginReport, hmark, keepsMark])
    case halt => exact .inl (by simp [beginReport, hmark, keepsMark])
    case survey => exact .inr ⟨_, rfl, rfl⟩
  · rw [hu]
    exact .inr ⟨_, rfl, rfl⟩
  · exact .inl (by rw [hu, endSurvey_reportMark, hmark])
  · exact .inl (by rw [hu]; exact hmark)
  · exact .inl (by rw [hu, endSurvey_reportMark]; exact hmark)

/-- The next write that is due begins (log 55). -/
theorem startReports_next (hbase : baseValid u = true) {r : WriteReason} {rest : List WriteReason}
    (hdue : u.reportDue = r :: rest) :
    (startReports f u).reportDue = rest ∧ ∃ v, (startReports f u).reportWrite = some v ∧ v.reason = r := by
  rw [startReports_due hnone hbase hdue]
  exact ⟨rfl, _, rfl, rfl⟩

end Starts

/-- What the end of a report write leaves, whichever it is, once the next write has begun; `u` is the Exchange Unit with the
write's own outcome taken. -/
theorem reportEnded_next {w : ReportWrite} {s : State} {u : XuState} (hnone : u.reportWrite = none)
    (hserial : u.reportSerial = s.xu.reportSerial) (hdue : u.reportDue = s.xu.reportDue) (hheld : xuHeld u = xuHeld s.xu) :
    (∀ v, (flush { s with xu := reportEnded w u }).xu.reportWrite = some v → v.serial = s.xu.reportSerial + 1)
      ∧ (∀ r rest, baseValid s.xu = true → s.xu.reportDue = r :: rest →
          (flush { s with xu := reportEnded w u }).xu.reportDue = rest
            ∧ ∃ v, (flush { s with xu := reportEnded w u }).xu.reportWrite = some v ∧ v.reason = r)
      ∧ (flush { s with xu := reportEnded w u }).xu.causes = u.causes ||| (if w.reason = .halt then 32#7 else 0)
      ∧ (flush { s with xu := reportEnded w u }).xu.counters = u.counters
      ∧ (flush { s with xu := reportEnded w u }).xu.lastFault = u.lastFault
      ∧ (flush { s with xu := reportEnded w u }).xu.reportLast = u.reportLast
      ∧ SameRegisters s.xu (flush { s with xu := reportEnded w u }).xu := by
  have hframe := reportEnded_frame w u
  have hended : (reportEnded w u).reportWrite = none := (congrArg XuState.reportWrite hframe :).trans hnone
  have hendedHeld : xuHeld (reportEnded w u) = xuHeld s.xu := (reportEnded_held w u).trans hheld
  have hendedDue : (reportEnded w u).reportDue = s.xu.reportDue := (congrArg XuState.reportDue hframe :).trans hdue
  have hendedSerial : (reportEnded w u).reportSerial = s.xu.reportSerial :=
    (congrArg XuState.reportSerial hframe :).trans hserial
  refine ⟨fun v hv => ?_, fun r rest hbase hr => ?_, (startReports_causes ..).trans (reportEnded_causes w u),
    (startReports_counters ..).trans (congrArg XuState.counters hframe :),
    (startReports_lastFault ..).trans (congrArg XuState.lastFault hframe :),
    (startReports_reportLast ..).trans (congrArg XuState.reportLast hframe :),
    sameRegisters_of_held ((startReports_held _ _).trans hendedHeld)⟩
  · rw [← hendedSerial]
    exact startReports_serial hended v hv
  · exact startReports_next hended ((baseValid_of_held hendedHeld).trans hbase) (hendedDue.trans hr)

/-- A report write has failed, before its end is taken. -/
def reportLost (v : Word32) (w : ReportWrite) (x : XuState) : XuState :=
  recordFault .reportWrite none v 1 { x with reportWrite := none, reportMark := true, waiting := x.waiting ||| w.covers }

theorem reportLost_eq (v : Word32) (w : ReportWrite) (x : XuState) :
    reportFailed v w x = reportEnded w (reportLost v w x) := rfl

/-- What a failed report write leaves in the Exchange Unit (R183, R185). -/
theorem reportLost_fields (v : Word32) (w : ReportWrite) (x : XuState) :
    (reportLost v w x).reportWrite = none ∧ (reportLost v w x).reportSerial = x.reportSerial
      ∧ (reportLost v w x).reportDue = x.reportDue ∧ xuHeld (reportLost v w x) = xuHeld x
      ∧ (reportLost v w x).reportMark = true ∧ (reportLost v w x).waiting = x.waiting ||| w.covers
      ∧ (reportLost v w x).counters = { x.counters with reportWrite := min 65535 (x.counters.reportWrite + 1) }
      ∧ (reportLost v w x).lastFault = { kind := .reportWrite, subject := none, second := v }
      ∧ (reportLost v w x).causes = x.causes ||| 16#7 ∧ (reportLost v w x).reportLast = x.reportLast := by
  rw [← satAdd_eq]
  exact ⟨rfl, rfl, rfl, rfl, rfl, rfl, rfl, rfl, rfl, rfl⟩

theorem reportFailed_leaves {w : ReportWrite} {s : State} (hphase : s.phase = .operating) (hw : s.xu.reportWrite = some w) :
    ∃ t, exec .reportWriteFailed s = .next t ∧ t.xu.reportLast = s.xu.reportLast
      ∧ (∀ v, t.xu.reportWrite = some v → v.serial = s.xu.reportSerial + 1)
      ∧ (∀ r rest, baseValid s.xu = true → s.xu.reportDue = r :: rest →
          t.xu.reportDue = rest ∧ ∃ v, t.xu.reportWrite = some v ∧ v.reason = r)
      ∧ (t.xu.reportMark = true ∨ ∃ v, t.xu.reportWrite = some v ∧ v.reason = .survey)
      ∧ (baseValid s.xu = true → t.xu.waiting ||| (t.xu.reportWrite.map ReportWrite.covers).getD 0
          = s.xu.waiting ||| w.covers)
      ∧ t.xu.counters = { s.xu.counters with reportWrite := min 65535 (s.xu.counters.reportWrite + 1) }
      ∧ t.xu.lastFault = { kind := .reportWrite, subject := none, second := s.clk.second }
      ∧ t.xu.causes = s.xu.causes ||| 16#7 ||| (if w.reason = .halt then 32#7 else 0)
      ∧ SameRegisters s.xu t.xu ∧ { t with xu := s.xu } = s := by
  obtain ⟨hnone, hserial, hdue, hheld, hmark, hwaiting, hcounters, hfault, hcauses, hlast⟩ :=
    reportLost_fields s.clk.second w s.xu
  obtain ⟨hserials, hnext, hendCauses, hendCounters, hendFault, hendLast, hregisters⟩ :=
    reportEnded_next (w := w) (s := s) hnone hserial hdue hheld
  have hframe := reportEnded_frame w (reportLost s.clk.second w s.xu)
  have hendMark : (reportEnded w (reportLost s.clk.second w s.xu)).reportMark = true :=
    (congrArg XuState.reportMark hframe :).trans hmark
  have hendNone : (reportEnded w (reportLost s.clk.second w s.xu)).reportWrite = none :=
    (congrArg XuState.reportWrite hframe :).trans hnone
  have hendHeld : xuHeld (reportEnded w (reportLost s.clk.second w s.xu)) = xuHeld s.xu := (reportEnded_held w _).trans hheld
  have hexec : exec .reportWriteFailed s = .next (flush { s with xu := reportEnded w (reportLost s.clk.second w s.xu) }) := by
    rw [← reportLost_eq]
    exact exec_reportWriteFailed hphase hw
  refine ⟨_, hexec, hendLast.trans hlast, hserials, hnext, startReports_keepsMark hendMark, fun hbase => ?_,
    hendCounters.trans hcounters, hendFault.trans hfault, by rw [hendCauses, hcauses], hregisters, rfl⟩
  rw [← hwaiting]
  exact (startReports_waiting hendNone ((baseValid_of_held hendHeld).trans hbase)).trans
    (congrArg XuState.waiting hframe :)

/-- Settles O39: the end of a status write goes on with the next record, that of a report write with the next write that is
due, and each takes its own outcome first. -/
theorem busWritesEnd : Obligations.BusWritesEnd := by
  unfold Obligations.BusWritesEnd
  refine ⟨fun x left r s hphase hsurvey => ⟨statusDone_leaves hphase hsurvey, statusFailed_leaves hphase hsurvey⟩,
    fun w s hphase hw => ⟨?_, ?_⟩⟩
  · obtain ⟨hserial, hnext, hcauses, hcounters, -, hlast, hregisters⟩ :=
      reportEnded_next (w := w) (s := s) (u := latchBits w.covers { s.xu with reportWrite := none, reportLast := some w.fields })
        rfl rfl rfl rfl
    exact ⟨_, exec_reportWriteDone hphase hw, hlast, hserial, hnext, hcauses, hcounters, hregisters, rfl⟩
  · exact reportFailed_leaves hphase hw

end Sys2Proof.Machine

/-! PROOFS. Failed reads of a survey and of a staging, and the rejection of an edition (R165, R171, R172, R182). -/

namespace Sys2Proof.Machine

open Sys2Proof.Safety

/-! ## A failed survey read (R182) -/

theorem exec_surveyReadFailed {s : State} (hphase : s.phase = .operating) {v : Survey} (hv : s.xu.survey = some v)
    (hreads : surveyReads v = true) : exec (.busReadFailed .survey) s = .next (flush (surveyReadFailed v s)) := by
  show execBusReadFailed .survey s = _
  unfold execBusReadFailed
  dsimp only
  rw [hv]
  exact answer_takes _ hphase hreads

/-- FETCH_FAILED is counted for a survey read (R182). -/
def fetchCounted (s : State) : State := { s with xu := recordFault .fetchFailed none s.clk.second 1 s.xu }

/-- The counters and the fault record of a part that holds all else of another's causes and registers. -/
structure FaultKept (s u : State) : Prop where
  counters : u.xu.counters = s.xu.counters
  lastFault : u.xu.lastFault = s.xu.lastFault
  holds : Holds s.xu u.xu
  held : xuHeld u.xu = xuHeld s.xu
  frame : { u with xu := s.xu } = s

theorem faultKept_surveyWrites (n : Nat) (s : State) : FaultKept s (surveyWrites n s) where
  counters := (congrArg XuState.counters (surveyWrites_frame n s) :)
  lastFault := (congrArg XuState.lastFault (surveyWrites_frame n s) :)
  holds := holds_surveyWrites n s
  held := surveyWrites_held n s
  frame := rfl

theorem faultKept_survey (v : Survey) (b : Word64) (s : State) :
    FaultKept s { s with xu := { s.xu with survey := some v, surveyBase := b } } where
  counters := rfl
  lastFault := rfl
  holds := holds_of_same rfl rfl rfl rfl
  held := rfl
  frame := rfl

theorem surveyReadFailed_kept {v : Survey} (s : State) (h : surveyReads v = true) :
    FaultKept (fetchCounted s) (surveyReadFailed v s) := by
  cases v with
  | publish b l => exact faultKept_survey _ _ (fetchCounted s)
  | live b l => exact faultKept_survey _ _ (fetchCounted s)
  | acks b l => exact faultKept_surveyWrites 0 (fetchCounted s)
  | status x r l => injection h
  | report => injection h

theorem fetchCounted_held (s : State) : xuHeld (fetchCounted s).xu = xuHeld s.xu := recordFault_held ..

theorem recordFault_lastFault (k : FaultKind) (u : Option Nat) (v : Word32) (n : Nat) (x : XuState) :
    (recordFault k u v n x).lastFault = { kind := k, subject := u, second := v } := by
  unfold recordFault
  dsimp only
  split
  · rfl
  · unfold causeDue
    split <;> rfl

theorem surveyReadFailed_leaves {v : Survey} {s : State} (h : surveyReads v = true) :
    (flush (surveyReadFailed v s)).xu.counters
        = { s.xu.counters with fetchFailed := min 65535 (s.xu.counters.fetchFailed + 1) }
      ∧ (flush (surveyReadFailed v s)).xu.lastFault = { kind := .fetchFailed, subject := none, second := s.clk.second }
      ∧ CauseTold 4 s (flush (surveyReadFailed v s)) ∧ SameRegisters s.xu (flush (surveyReadFailed v s)).xu
      ∧ { flush (surveyReadFailed v s) with xu := s.xu } = s := by
  have hkept := surveyReadFailed_kept s h
  have hheld : xuHeld (surveyReadFailed v s).xu = xuHeld s.xu := hkept.held.trans (fetchCounted_held s)
  refine ⟨?_, ?_, ?_, sameRegisters_of_held ((startReports_held _ _).trans hheld), ?_⟩
  · rw [← satAdd_eq]
    exact ((startReports_counters ..).trans hkept.counters).trans (recordFault_counters ..)
  · exact ((startReports_lastFault ..).trans hkept.lastFault).trans (recordFault_lastFault ..)
  · have hcounted : CauseHeld 4 (fetchCounted s).xu :=
      causeHeld_recordFault (k := .fetchFailed) rfl none s.clk.second 1 s.xu
    exact causeTold_flush (hcounted.mono hkept.holds) (baseValid_of_held hheld)
  · exact (congrArg (fun u : State => { u with xu := s.xu }) hkept.frame :)

/-- The survey goes on with the read that follows (R181, R182). -/
theorem surveyReadFailed_next (s : State) :
    (∀ b l, (flush (surveyReadFailed (.publish b l) s)).xu.survey = some (.live (inSpan s.xu.span 0x440 12) 1250000))
      ∧ ∀ b l, (flush (surveyReadFailed (.live b l) s)).xu.survey = some (.acks (inSpan s.xu.span 0x1000 1984) 1250000) := by
  have hspan : (fetchCounted s).xu.span = s.xu.span := congrArg XuHeld.span (fetchCounted_held s)
  rw [← hspan]
  exact ⟨fun b l => (startReports_survey_of_ne_report (x := readLive (fetchCounted s).xu) (by simp [readLive])).1,
    fun b l => (startReports_survey_of_ne_report (x := readAcks (fetchCounted s).xu) (by simp [readAcks])).1⟩

/-! ## The rejection of an edition (R171, R172) -/

theorem reportCause_counters (c : Cause) (s : State) :
    (reportCause c s).xu.counters = s.xu.counters ∧ (reportCause c s).xu.lastFault = s.xu.lastFault := by
  have hnow : (reportNow .immediate s.xu).counters = s.xu.counters
      ∧ (reportNow .immediate s.xu).lastFault = s.xu.lastFault := by
    unfold reportNow
    split <;> exact ⟨rfl, rfl⟩
  have hdue : ∀ x : XuState, (causeDue c x).counters = x.counters ∧ (causeDue c x).lastFault = x.lastFault := by
    intro x
    unfold causeDue
    split <;> exact ⟨rfl, rfl⟩
  exact ⟨(hdue _).1.trans hnow.1, (hdue _).2.trans hnow.2⟩

/-- The Exchange Unit with the settlement of a rejected edition, before the fault is recorded. -/
def settledRejected (number : Word32) (f : Failure) (x : XuState) : XuState :=
  { x with
    settled := number, stage := none
    settle := { outcome := .rejected, reason := f.reason, entry := f.entry, record := f.record } }

/-- The part with its edition rejected, before the report is asked for. -/
def rejected (number : Word32) (f : Failure) (s : State) : State := { s with xu := rejectXu s.clk.second number f s.xu }

theorem rejectEdition_eq (number : Word32) (f : Failure) (s : State) :
    rejectEdition number f s = reportCause .settled (rejected number f s) := rfl

theorem rejected_held (number : Word32) (f : Failure) (s : State) :
    xuHeld (rejected number f s).xu = xuHeld (settledRejected number f s.xu) := recordFault_held ..

theorem adds_rejectEdition (number : Word32) (f : Failure) (s : State) :
    Adds (rejected number f s).xu (rejectEdition number f s).xu :=
  adds_reportCause (s := rejected number f s) (Adds.refl (rejected number f s).xu) .settled

theorem flush_rejectEdition_held (number : Word32) (f : Failure) (s : State) :
    xuHeld (flush (rejectEdition number f s)).xu = xuHeld (settledRejected number f s.xu) :=
  ((startReports_held _ _).trans (adds_rejectEdition number f s).held).trans (rejected_held number f s)

theorem rejectEdition_baseValid (number : Word32) (f : Failure) (s : State) :
    baseValid (rejectEdition number f s).xu = baseValid s.xu :=
  (adds_rejectEdition number f s).baseValid.trans
    ((baseValid_of_held (rejected_held number f s)).trans (rfl : baseValid (settledRejected number f s.xu) = baseValid s.xu))

/-- What a rejection leaves of the edition and the faults, with its report told. -/
theorem rejectEdition_leaves (number : Word32) (f : Failure) (s : State) :
    (flush (rejectEdition number f s)).xu.stage = none ∧ (flush (rejectEdition number f s)).xu.settled = number
      ∧ (flush (rejectEdition number f s)).xu.applied = s.xu.applied
      ∧ (flush (rejectEdition number f s)).xu.settle
          = { outcome := .rejected, reason := f.reason, entry := f.entry, record := f.record }
      ∧ (flush (rejectEdition number f s)).xu.counters
          = { s.xu.counters with rejected := min 65535 (s.xu.counters.rejected + 1) }
      ∧ (flush (rejectEdition number f s)).xu.lastFault = { kind := .rejected, subject := f.leaf, second := s.clk.second }
      ∧ ReportTold 0 s (flush (rejectEdition number f s)) ∧ CauseTold 4 s (flush (rejectEdition number f s))
      ∧ { flush (rejectEdition number f s) with xu := s.xu } = s := by
  have hheld := flush_rejectEdition_held number f s
  have hbase := rejectEdition_baseValid number f s
  obtain ⟨hcounters, hfault⟩ := reportCause_counters .settled (rejected number f s)
  have hcause : CauseHeld 4 (rejected number f s).xu :=
    causeHeld_recordFault (k := .rejected) rfl f.leaf s.clk.second 1 (settledRejected number f s.xu)
  refine ⟨(congrArg XuHeld.stage hheld :), (congrArg XuHeld.settled hheld :), (congrArg XuHeld.applied hheld :),
    (congrArg XuHeld.settle hheld :), ?_, ?_, reportTold_flush (reportAsked_reportCause .settled _) hbase,
    causeTold_flush (hcause.mono (adds_rejectEdition number f s).holds) hbase, rfl⟩
  · rw [← satAdd_eq]
    exact ((startReports_counters ..).trans hcounters).trans (recordFault_counters ..)
  · exact ((startReports_lastFault ..).trans hfault).trans (recordFault_lastFault ..)

/-! ## A failed staging read (R165) -/

theorem exec_stagingReadFailed {s : State} (hphase : s.phase = .operating) {g : Staging} (hg : s.xu.stage = some g)
    (h : g.phase ≠ .validating) : exec (.busReadFailed .staging) s = .next (flush (stagingFailed g s)) := by
  show execBusReadFailed .staging s = _
  unfold execBusReadFailed
  dsimp only
  rw [hg]
  exact answer_takes _ hphase (stagingReads_ne_nil h)

/-- FETCH_FAILED is counted for a read of the staging (R165, R185). -/
def stagingCounted (g : Staging) (s : State) : State :=
  { s with xu := recordFault .fetchFailed (fetchSubject g) s.clk.second 1 s.xu }

theorem stagingFailed_eq (g : Staging) (s : State) :
    stagingFailed g s = rejectEdition g.number (fetchFailure g) (stagingCounted g s) := rfl

theorem fetchFailure_reason (g : Staging) : (fetchFailure g).reason = .fetchFailed := by
  unfold fetchFailure
  split <;> rfl

/-- Settles O41: a survey read that fails is counted and the survey goes on; a staging read that fails is counted and the
edition rejected. -/
theorem busReadFails : Obligations.BusReadFails := by
  unfold Obligations.BusReadFails
  refine ⟨fun v s hphase hv hreads => ?_, fun g s hphase hg hvalidating => ?_⟩
  · obtain ⟨hcounters, hfault, htold, hregisters, hframe⟩ := surveyReadFailed_leaves (s := s) hreads
    obtain ⟨hpublish, hlive⟩ := surveyReadFailed_next s
    exact ⟨_, exec_surveyReadFailed hphase hv hreads, hcounters, hfault, htold, fun b l hb => hb ▸ hpublish b l,
      fun b l hb => hb ▸ hlive b l, hregisters, hframe⟩
  · have hheld : xuHeld (stagingCounted g s).xu = xuHeld s.xu := recordFault_held ..
    have hcounted : (stagingCounted g s).xu.counters
        = { s.xu.counters with fetchFailed := min 65535 (s.xu.counters.fetchFailed + 1) } := by
      rw [← satAdd_eq]
      exact recordFault_counters ..
    obtain ⟨hstage, hsettled, happlied, hsettle, hcounters, hfault, hreport, htold, hframe⟩ :=
      rejectEdition_leaves g.number (fetchFailure g) (stagingCounted g s)
    rw [hcounted] at hcounters
    have hvalid : baseValid (stagingCounted g s).xu = baseValid s.xu := baseValid_of_held hheld
    refine ⟨_, exec_stagingReadFailed hphase hg hvalidating, hstage, hsettled,
      happlied.trans (congrArg XuHeld.applied hheld :), (congrArg SettleRec.outcome hsettle :),
      ((congrArg SettleRec.reason hsettle :).trans (fetchFailure_reason g)), fun e leaf sub i last hphase' => ?_,
      (congrArg Counters.fetchFailed hcounters :), (congrArg Counters.rejected hcounters :), ?_, ?_, ?_, rfl⟩
    · have hfetch : fetchFailure g = entryFailure .fetchFailed e (some leaf) (some i) := by
        rw [fetchFailure, hphase']
      rw [stagingFailed_eq, hsettle, hfetch]
      exact ⟨rfl, rfl⟩
    · rw [stagingFailed_eq, hfault]
      unfold fetchFailure
      cases g.phase <;> rfl
    · unfold ReportTold at hreport ⊢
      rwa [hvalid] at hreport
    · unfold CauseTold at htold ⊢
      rwa [hvalid] at htold

end Sys2Proof.Machine

/-! PROOFS. The reads of a staging: the notice header, the directory, the entries, the records and the final re-read of the
publish word (R161 to R166, R171, R172). -/

namespace Sys2Proof.Machine

open Sys2Proof.Safety

/-! ## How a staging goes on -/

/-- A staging that goes on changes the stage alone. -/
theorem applyProgress_going (number : Word32) (h : Staging) (s : State) :
    (flush (applyProgress number (.going h) s)).xu.stage = some h
      ∧ (flush (applyProgress number (.going h) s)).xu.settled = s.xu.settled
      ∧ (flush (applyProgress number (.going h) s)).xu.settle = s.xu.settle
      ∧ (flush (applyProgress number (.going h) s)).xu.applied = s.xu.applied := by
  have hheld : xuHeld (flush (applyProgress number (.going h) s)).xu = xuHeld { s.xu with stage := some h } :=
    startReports_held ..
  exact ⟨(congrArg XuHeld.stage hheld :), (congrArg XuHeld.settled hheld :), (congrArg XuHeld.settle hheld :),
    (congrArg XuHeld.applied hheld :)⟩

/-- A failure rejects the edition, and the report is told. -/
theorem applyProgress_failed (number : Word32) (f : Failure) (s : State) :
    (flush (applyProgress number (.failed f) s)).xu.stage = none
      ∧ (flush (applyProgress number (.failed f) s)).xu.settled = number
      ∧ ReportTold 0 s (flush (applyProgress number (.failed f) s))
      ∧ (flush (applyProgress number (.failed f) s)).xu.settle
          = { outcome := .rejected, reason := f.reason, entry := f.entry, record := f.record } := by
  obtain ⟨hstage, hsettled, -, hsettle, -, -, hreport, -, -⟩ := rejectEdition_leaves number f s
  exact ⟨hstage, hsettled, hreport, hsettle⟩

/-- Neither touches the applied edition or anything outside the Exchange Unit. -/
theorem applyProgress_leaves (number : Word32) (p : Progress) (s : State) :
    (flush (applyProgress number p s)).xu.applied = s.xu.applied
      ∧ { flush (applyProgress number p s) with xu := s.xu } = s := by
  cases p with
  | failed f => exact ⟨(rejectEdition_leaves number f s).2.2.1, rfl⟩
  | going h => exact ⟨(applyProgress_going number h s).2.2.2, rfl⟩

section Reads

variable {g : Staging} {s : State} (hphase : s.phase = .operating) (hg : s.xu.stage = some g) (hissued : readIssued g = true)

include hphase hg hissued

theorem exec_noticeHeaderRead (h : g.phase = .header) (bs : List Byte) :
    exec (.noticeHeaderRead bs) s = .next (flush (applyProgress g.number (headerTaken bs g) s)) := by
  show execNoticeHeaderRead bs s = _
  unfold execNoticeHeaderRead
  rw [hg]
  exact answer_takes _ hphase (by simp [h, hissued])

theorem exec_directoryRead (h : g.phase = .directory) (bs : List Byte) :
    exec (.directoryRead bs) s = .next (flush (applyProgress g.number (directoryTaken bs g) s)) := by
  show execDirectoryRead bs s = _
  unfold execDirectoryRead
  rw [hg]
  exact answer_takes _ hphase (by simp [h, hissued])

theorem exec_noticeEntriesRead (h : g.phase = .entries) (bs : List Byte) :
    exec (.noticeEntriesRead bs) s
      = .next (flush (applyProgress g.number (takeEntries g (parseEntries bs g.count)) s)) := by
  show execNoticeEntriesRead bs s = _
  unfold execNoticeEntriesRead
  rw [hg]
  exact answer_takes _ hphase (by simp [h, hissued])

theorem exec_recordRead {e leaf sub i last : Nat} (h : g.phase = .record e leaf sub i last) (bs : List Byte) :
    exec (.recordRead bs) s = .next (flush (applyProgress g.number (takeRecord g e leaf sub i last bs) s)) := by
  show execRecordRead bs s = _
  unfold execRecordRead
  rw [hg]
  dsimp only
  rw [h]
  exact answer_takes _ hphase hissued

theorem exec_publishWordReread (h : g.phase = .reread) (bs : List Byte) :
    exec (.publishWordReread bs) s = .next (flush (applyProgress g.number (rereadTaken bs g) s)) := by
  show execPublishWordReread bs s = _
  unfold execPublishWordReread
  rw [hg]
  exact answer_takes _ hphase (by simp [h, hissued])

end Reads

/-! ## The header of the notice (R161, R191) -/

theorem headerTaken_disturbed {bs : List Byte} {g : Staging} (h : u32 bs 0 ≠ g.number.toNat) :
    headerTaken bs g = .failed (plainFailure .disturbed) := by
  rw [headerTaken, headerFailure, if_pos h]

theorem headerTaken_badField {bs : List Byte} {g : Staging} (h : u32 bs 0 = g.number.toNat) (hz : zeroBytes bs 6 2 = false) :
    headerTaken bs g = .failed (plainFailure .badField) := by
  rw [headerTaken, headerFailure, if_neg (not_not.2 h), hz]
  rfl

theorem headerTaken_oversize {bs : List Byte} {g : Staging} (h : u32 bs 0 = g.number.toNat) (hz : zeroBytes bs 6 2 = true)
    (hcount : 96 < u16 bs 4) : headerTaken bs g = .failed (plainFailure .oversize) := by
  have hcapacity : Config.entryCapacity < u16 bs 4 := hcount
  have hzero : ¬ (!zeroBytes bs 6 2) = true := by simp [hz]
  rw [headerTaken, headerFailure, if_neg (not_not.2 h), if_neg hzero, if_pos hcapacity]

theorem headerTaken_directory {bs : List Byte} {g : Staging} (h : u32 bs 0 = g.number.toNat) (hz : zeroBytes bs 6 2 = true)
    (hcount : u16 bs 4 ≤ 96) :
    headerTaken bs g = .going { g with phase := .directory, count := u16 bs 4, left := 1250000 } := by
  have hcapacity : ¬ Config.entryCapacity < u16 bs 4 := Nat.not_lt.2 hcount
  have hzero : ¬ (!zeroBytes bs 6 2) = true := by simp [hz]
  rw [headerTaken, headerFailure, if_neg (not_not.2 h), if_neg hzero, if_neg hcapacity]
  rfl

/-! ## The directory (R163, R180) -/

theorem readDirectory_get {bs : List Byte} {i : Nat} (h : i < 23) :
    (readDirectory bs).getD i noEntry =
      if 1 ≤ i ∧ i ≤ 11 then directoryEntry bs (16 * i)
      else if 16 ≤ i then directoryEntry bs (192 + 16 * (i - 16)) else noEntry := by
  rw [List.getD_eq_getElem?_getD, readDirectory, getElem?_map_range _ h]
  rfl

theorem readDirectory_leaf {bs : List Byte} {leaf : Nat} (hlow : 1 ≤ leaf) (hhigh : leaf ≤ 11) :
    (readDirectory bs).getD (directorySlot leaf 0) noEntry = directoryEntry bs (16 * leaf) := by
  have hslot : directorySlot leaf 0 = leaf := if_neg fun h => absurd h.2 (Nat.lt_irrefl 0)
  rw [hslot, readDirectory_get (by omega), if_pos ⟨hlow, hhigh⟩]

theorem readDirectory_line {bs : List Byte} {line : Nat} (hlow : 1 ≤ line) (hhigh : line ≤ 7) :
    (readDirectory bs).getD (directorySlot 3 line) noEntry = directoryEntry bs (176 + 16 * line) := by
  have hslot : directorySlot 3 line = 15 + line := if_pos ⟨rfl, hlow⟩
  have hleaf : ¬(1 ≤ 15 + line ∧ 15 + line ≤ 11) := by omega
  have hrun : 192 + 16 * (15 + line - 16) = 176 + 16 * line := by omega
  rw [hslot, readDirectory_get (by omega), if_neg hleaf, if_pos (by omega), hrun]

/-! ## The final re-read (R166) -/

theorem rereadTaken_same {bs : List Byte} {g : Staging} (h : u32 bs 0 = g.number.toNat) :
    rereadTaken bs g = .going { g with phase := .validating } := if_pos h

theorem rereadTaken_disturbed {bs : List Byte} {g : Staging} (h : u32 bs 0 ≠ g.number.toNat) :
    rereadTaken bs g = .failed (plainFailure .disturbed) := if_neg h

/-- Settles O42: each read of the staging either goes on or rejects the edition, and the directory is read entry by
entry. -/
theorem headerDirectoryReread : Obligations.HeaderDirectoryReread := by
  unfold Obligations.HeaderDirectoryReread
  refine ⟨fun bs g s hphase hg hissued => ⟨fun hheader => ?_, fun hdirectory => ?_⟩, fun g hg => ?_,
    fun g => ⟨_, rfl, rfl, rfl, rfl, rfl⟩, fun bs s hnone => ?_, fun bs g s hphase hg hreread hissued => ?_⟩
  · obtain ⟨happlied, hframe⟩ := applyProgress_leaves g.number (headerTaken bs g) s
    refine ⟨_, exec_noticeHeaderRead hphase hg hissued hheader bs, happlied, hframe, fun hne => ?_, fun heq hz => ?_,
      fun heq hz hcount => ?_, fun heq hz hcount => ?_⟩
    · rw [headerTaken_disturbed hne]
      exact applyProgress_failed ..
    · rw [headerTaken_badField heq hz]
      exact applyProgress_failed ..
    · rw [headerTaken_oversize heq hz hcount]
      exact applyProgress_failed ..
    · rw [headerTaken_directory heq hz hcount]
      obtain ⟨hstage, hsettled, -, -⟩ :=
        applyProgress_going g.number { g with phase := .directory, count := u16 bs 4, left := 1250000 } s
      exact ⟨hsettled, hstage⟩
  · refine ⟨_, _, exec_directoryRead hphase hg hissued hdirectory bs, (applyProgress_going ..).1, rfl, rfl, rfl, rfl, rfl,
      fun leaf hlow hhigh => readDirectory_leaf hlow hhigh, fun line hlow hhigh => ?_⟩
    exact (readDirectory_line hlow hhigh).trans (by simp only [directoryEntry, Nat.add_right_comm])
  · rw [stagingReads, hg]
    rfl
  · show execPublishWordReread bs s = _
    rw [execPublishWordReread, hnone]
  · obtain ⟨happlied, hframe⟩ := applyProgress_leaves g.number (rereadTaken bs g) s
    refine ⟨_, exec_publishWordReread hphase hg hissued hreread bs, happlied, hframe, fun heq => ?_, fun hne => ?_⟩
    · rw [rereadTaken_same heq]
      obtain ⟨hstage, hsettled, hsettle, -⟩ := applyProgress_going g.number { g with phase := .validating } s
      exact ⟨hstage, hsettled, hsettle⟩
    · rw [rereadTaken_disturbed hne]
      obtain ⟨hstage, hsettled, hreport, hsettle⟩ := applyProgress_failed g.number (plainFailure .disturbed) s
      exact ⟨hstage, hsettled, hreport, hsettle,
        (congrArg Counters.rejected (rejectEdition_leaves g.number (plainFailure .disturbed) s).2.2.2.2.1 :)⟩

/-! ## The entries of a notice (R161 to R164) -/

theorem checkEntry_entry {g : Staging} {n : Nat} {e : Entry} {f : Failure} (h : checkEntry g n e = some f) :
    f.entry = some n := by
  have hrange : ∀ leaf sub first count put, rangeFailure g n leaf sub first count put = some f → f.entry = some n := by
    intro leaf sub first count put hf
    unfold rangeFailure at hf
    split at hf
    · cases hf
      rfl
    · split at hf
      · cases hf
        rfl
      · split at hf
        · cases hf
          rfl
        · split at hf
          · cases hf
            rfl
          · cases hf
  cases e with
  | put leaf sub first count single => exact hrange leaf sub first count true h
  | clear leaf sub first count single => exact hrange leaf sub first count false h
  | setClock v =>
    simp only [checkEntry] at h
    split at h
    · cases h
      rfl
    · cases h
  | bad leaf =>
    cases h
    rfl

theorem takeEntries_failed {g : Staging} {n : Nat} {e : Entry} {f : Failure} (rest : List (Nat × Entry))
    (h : checkEntry g n e = some f) : takeEntries g ((n, e) :: rest) = .failed f := by
  unfold takeEntries
  rw [h]

section Taken

variable {g : Staging} {n leaf sub first count : Nat} {single : Bool} (rest : List (Nat × Entry))

theorem takeEntries_empty (h : checkEntry g n (.put leaf sub first count single) = none) (hcount : count = 0) :
    takeEntries g ((n, .put leaf sub first count single) :: rest) = takeEntries g rest := by
  rw [takeEntries, h]
  exact if_pos hcount

theorem takeEntries_put (h : checkEntry g n (.put leaf sub first count single) = none) (hcount : 0 < count) :
    takeEntries g ((n, .put leaf sub first count single) :: rest)
      = .going { g with rest, phase := .record n leaf sub first (first + count - 1), left := 1250000 } := by
  rw [takeEntries, h]
  exact if_neg (Nat.pos_iff_ne_zero.1 hcount)

theorem takeEntries_clear (h : checkEntry g n (.clear leaf sub first count single) = none) :
    takeEntries g ((n, .clear leaf sub first count single) :: rest)
      = takeEntries { g with staged := stageClears n leaf sub first count g.staged } rest := by
  rw [takeEntries, h]

theorem takeEntries_setClock {v : Word32} (h : checkEntry g n (.setClock v) = none) :
    takeEntries g ((n, .setClock v) :: rest) = takeEntries { g with clock := some v } rest := by
  rw [takeEntries, h]

end Taken

theorem parseEntries_first {bs : List Byte} {count : Nat} (h : 0 < count) :
    ∃ rest, parseEntries bs count = (0, parseEntry bs 0) :: rest := by
  obtain ⟨k, rfl⟩ := Nat.exists_eq_succ_of_ne_zero (Nat.pos_iff_ne_zero.1 h)
  rw [parseEntries, List.range_succ_eq_map]
  exact ⟨_, rfl⟩

/-! ## Records in the stage (R162, R165) -/

theorem mem_stageRecord (r q : Staged) (staged : List Staged) :
    q ∈ stageRecord r staged ↔ q ∈ staged ∧ ¬(q.leaf = r.leaf ∧ q.sub = r.sub ∧ q.index = r.index) ∨ q = r := by
  simp only [stageRecord, List.mem_append, List.mem_filter, List.mem_singleton, Bool.not_eq_true', Bool.and_eq_false_iff,
    decide_eq_false_iff_not, not_and_or, or_assoc]

/-- The empty records of a CLEAR stand in place of what the stage held for them. -/
theorem mem_stageClears (n leaf sub first count : Nat) (staged : List Staged) (q : Staged) :
    q ∈ stageClears n leaf sub first count staged ↔
      q ∈ staged ∧ ¬(q.leaf = leaf ∧ q.sub = sub ∧ first ≤ q.index ∧ q.index < first + count)
        ∨ ∃ k, k < count ∧ q = { leaf, sub, index := first + k, entry := n, bytes := none } := by
  induction count with
  | zero =>
    simp [stageClears]
  | succ count ih =>
    have hstep : stageClears n leaf sub first (count + 1) staged
        = stageRecord { leaf, sub, index := first + count, entry := n, bytes := none }
            (stageClears n leaf sub first count staged) := by
      simp only [stageClears, List.range_succ, List.foldl_append, List.foldl_cons, List.foldl_nil]
    rw [hstep, mem_stageRecord, ih]
    constructor
    · rintro (⟨⟨hq, hout⟩ | ⟨k, hk, rfl⟩, hne⟩ | rfl)
      · refine .inl ⟨hq, fun ⟨hleaf, hsub, hlow, hhigh⟩ => ?_⟩
        by_cases hlast : q.index = first + count
        · exact hne ⟨hleaf, hsub, hlast⟩
        · exact hout ⟨hleaf, hsub, hlow, by omega⟩
      · exact .inr ⟨k, by omega, rfl⟩
      · exact .inr ⟨count, by omega, rfl⟩
    · rintro (⟨hq, hout⟩ | ⟨k, hk, rfl⟩)
      · refine .inl ⟨.inl ⟨hq, fun ⟨hleaf, hsub, hlow, hhigh⟩ => hout ⟨hleaf, hsub, hlow, by omega⟩⟩,
          fun ⟨hleaf, hsub, hindex⟩ => hout ⟨hleaf, hsub, ?_, ?_⟩⟩
        · have : q.index = first + count := hindex
          omega
        · have : q.index = first + count := hindex
          omega
      · by_cases hlast : k = count
        · exact .inr (by rw [hlast])
        · refine .inl ⟨.inr ⟨k, by omega, rfl⟩, fun h => ?_⟩
          have : first + k = first + count := h.2.2
          omega

theorem isStaged_append (staged : List Staged) (r : Staged) : isStaged (staged ++ [r]) r.leaf r.sub r.index = true := by
  simp [isStaged]

/-- The stage with a record read put in. -/
def recordStaged (g : Staging) (e leaf sub i : Nat) (bs : List Byte) : Staging :=
  { g with staged := stageRecord { leaf, sub, index := i, entry := e, bytes := some bs } g.staged }

theorem takeRecord_next {g : Staging} {e leaf sub i last : Nat} {bs : List Byte} (h : i < last) :
    takeRecord g e leaf sub i last bs
      = .going { recordStaged g e leaf sub i bs with phase := .record e leaf sub (i + 1) last, left := busPeriods } :=
  if_pos h

theorem takeRecord_last {g : Staging} {e leaf sub i last : Nat} {bs : List Byte} (h : ¬i < last) :
    takeRecord g e leaf sub i last bs = takeEntries (recordStaged g e leaf sub i bs) g.rest := if_neg h

/-- Settles O43: the entries are taken one by one, each by its kind, and a record read goes on in its range or to the next
entry. -/
theorem entriesAndRecords : Obligations.EntriesAndRecords := by
  unfold Obligations.EntriesAndRecords
  refine ⟨fun bs g s hphase hg hentries hissued hcount => ?_, fun g n e rest => ⟨fun f => takeEntries_failed rest,
    fun hcheck => ⟨?_, ?_, ?_⟩⟩, fun g => rfl, fun bs g e leaf sub i last s hphase hg hrecord hissued => ?_⟩
  · obtain ⟨happlied, hframe⟩ := applyProgress_leaves g.number (takeEntries g (parseEntries bs g.count)) s
    obtain ⟨rest, hfirst⟩ := parseEntries_first (bs := bs) hcount
    refine ⟨_, exec_noticeEntriesRead hphase hg hissued hentries bs, happlied, hframe, fun f hf => ?_, fun h hh => ?_,
      fun f hf => ?_, fun leaf sub first count single hput hpos hcheck => ?_⟩
    · rw [hf]
      exact applyProgress_failed ..
    · rw [hh]
      obtain ⟨hstage, hsettled, hsettle, -⟩ := applyProgress_going g.number h s
      exact ⟨hstage, hsettled, hsettle⟩
    · rw [hfirst, takeEntries_failed rest hf, ← checkEntry_entry hf]
      exact applyProgress_failed ..
    · rw [hput] at hcheck
      rw [hfirst, hput, takeEntries_put rest hcheck hpos]
      obtain ⟨hstage, hsettled, -, -⟩ := applyProgress_going g.number
        { g with rest, phase := .record 0 leaf sub first (first + count - 1), left := 1250000 } s
      exact ⟨_, hstage, rfl, rfl, hsettled⟩
  · rintro leaf sub first count single rfl
    exact ⟨takeEntries_empty rest hcheck, takeEntries_put rest hcheck⟩
  · rintro leaf sub first count single rfl
    exact ⟨_, takeEntries_clear rest hcheck, mem_stageClears n leaf sub first count g.staged⟩
  · rintro v rfl
    exact takeEntries_setClock rest hcheck
  · obtain ⟨happlied, hframe⟩ := applyProgress_leaves g.number (takeRecord g e leaf sub i last bs) s
    refine ⟨_, exec_recordRead hphase hg hissued hrecord bs, happlied, hframe, fun hlt => ?_, fun hlt hrest => ?_,
      fun hlt h hh => ?_⟩
    · rw [takeRecord_next hlt]
      exact ⟨_, (applyProgress_going ..).1, rfl, rfl⟩
    · rw [takeRecord_last hlt, hrest]
      exact ⟨_, (applyProgress_going ..).1, rfl, isStaged_append _ { leaf, sub, index := i, entry := e, bytes := some bs }⟩
    · have hstaged : recordStaged g e leaf sub i bs = h := hh.symm
      rw [takeRecord_last hlt, hstaged]
      refine ⟨fun k hk => ?_, fun f hf => ?_⟩
      · rw [hk]
        obtain ⟨hstage, hsettled, -, -⟩ := applyProgress_going g.number k s
        exact ⟨hstage, hsettled⟩
      · rw [hf]
        exact applyProgress_failed ..

end Sys2Proof.Machine

/-! PROOFS. The bytes of the report block and of a station status record (R180, R184, R186, R192, R195, R198). -/

namespace Sys2Proof.Machine

open Sys2Proof.Safety

section Layout

variable {bs : List Byte} {off : Nat}

theorem u32_of_word {w : Word32} (h : SegAt bs off (w32 w.toNat)) : u32 bs off = w.toNat := by
  rw [u32_of_seg h, Nat.mod_eq_of_lt w.isLt]

theorem u16_of_word {w : Word16} (h : SegAt bs off (w16 w.toNat)) : u16 bs off = w.toNat := by
  rw [u16_of_seg h, Nat.mod_eq_of_lt w.isLt]

theorem u16_of_index {n : Option Nat} (h : SegAt bs off (wIndex n)) : u16 bs off = n.getD 65535 % 65536 := u16_of_seg h

theorem u8_of_code {n : Nat} (hn : n < 256) (h : SegAt bs off (w8 n)) : u8 bs off = n := by
  rw [u8_of_seg h, Nat.mod_eq_of_lt hn]

theorem u8_of_flag {b : Bool} (h : SegAt bs off (w8 (flagNat b))) : u8 bs off = if b then 1 else 0 := by
  rw [u8_of_seg h]
  cases b <;> rfl

theorem i16_of_seg {i : Int} (h : SegAt bs off (wInt16 i)) (hlow : -32768 ≤ i) (hhigh : i < 32768) : i16 bs off = i := by
  rw [i16, u16_of_word h, BitVec.ofNat_toNat, BitVec.setWidth_eq, BitVec.toInt_ofInt]
  exact Int.bmod_eq_of_le (by omega) (by omega)

end Layout

@[simp] theorem wIndex_length (n : Option Nat) : (wIndex n).length = 2 := w16_length _

/-! ## Codes (R198) -/

theorem settleOutcomeCode_lt (o : SettleOutcome) : settleOutcomeCode o < 256 := by cases o <;> decide
theorem reasonCode_lt (r : Reason) : reasonCode r < 256 := by cases r <;> decide
theorem musterStateCode_lt (m : MusterState) : musterStateCode m < 256 := by cases m <;> decide
theorem musterKindCode_lt (k : MusterKind) : musterKindCode k < 256 := by cases k <;> decide
theorem orderOutcomeCode_lt (o : OrderOutcome) : orderOutcomeCode o < 256 := by cases o <;> decide
theorem faultKindCode_lt (k : FaultKind) : faultKindCode k < 256 := by cases k <;> decide
theorem lineStatusCode_lt (l : LineStatus) : lineStatusCode l < 256 := by cases l <;> decide

theorem confKindCode_eq (k : Option PageKind) : confKindCode k = (k.map pageKindCode).getD 255 := by cases k <;> rfl

theorem confKindCode_lt (k : Option PageKind) : confKindCode k < 256 := by
  cases k with
  | none => decide
  | some k => cases k <;> decide

/-! ## The report block (R195) -/

theorem reportBytes_length (serial : Word32) (f : ReportFields) : (reportBytes serial f).length = 256 := by
  unfold reportBytes
  simp -implicitDefEqProofs only [List.length_append, w8_length, w16_length, w32_length, wIndex_length, wInt16_length,
    wZero_length]

theorem reportBytes_fields {serial : Word32} {f : ReportFields} {bs : List Byte} (hbs : bs = reportBytes serial f) :
    bs.length = 256 ∧ u32 bs 0 = serial.toNat ∧ u32 bs 252 = serial.toNat
      ∧ u32 bs 4 = f.applied.toNat ∧ u32 bs 8 = f.settled.toNat ∧ u8 bs 12 = settleOutcomeCode f.settle.outcome
      ∧ u8 bs 13 = reasonCode f.settle.reason ∧ u16 bs 14 = f.settle.entry.getD 65535 % 65536
      ∧ u16 bs 16 = f.settle.record.getD 65535 % 65536 ∧ u8 bs 18 = musterStateCode f.musterState
      ∧ u8 bs 19 = musterKindCode f.musterKind ∧ u16 bs 20 = f.musterSerial.toNat ∧ u16 bs 22 = f.tally % 65536
      ∧ u8 bs 24 = orderOutcomeCode f.outcome ∧ u8 bs 25 = (if f.reserve then 1 else 0)
      ∧ u8 bs 26 = (if f.halted then 1 else 0) ∧ u8 bs 27 = 0 ∧ u16 bs 28 = f.configured % 65536
      ∧ u16 bs 30 = f.online % 65536 ∧ u16 bs 32 = f.doubtful % 65536 ∧ u16 bs 34 = f.lost % 65536
      ∧ u16 bs 36 = f.attention % 65536 ∧ u8 bs 38 = f.slotsInUse % 256 ∧ u8 bs 39 = 0
      ∧ u16 bs 40 = f.waitingLength % 65536 ∧ (-32768 ≤ f.offset → f.offset < 32768 → i16 bs 42 = f.offset)
      ∧ u32 bs 44 = f.epoch.toNat ∧ u32 bs 48 = f.second.toNat ∧ u16 bs 52 = f.counters.fetchFailed % 65536
      ∧ u16 bs 54 = f.counters.reportWrite % 65536 ∧ u16 bs 56 = f.counters.lineCrc % 65536
      ∧ u16 bs 58 = f.counters.transferFail % 65536 ∧ u16 bs 60 = f.counters.claimWait % 65536
      ∧ u16 bs 62 = f.counters.unlistedExit % 65536 ∧ u16 bs 64 = f.counters.lostPresses % 65536
      ∧ u16 bs 66 = f.counters.rejected % 65536 ∧ u8 bs 68 = faultKindCode f.lastFault.kind ∧ u8 bs 69 = 0
      ∧ u16 bs 70 = f.lastFault.subject.getD 65535 % 65536 ∧ u32 bs 72 = f.lastFault.second.toNat
      ∧ zeroBytes bs 76 176 = true := by
  have hlen : bs.length = 256 := by rw [hbs, reportBytes_length]
  have h := segAt_of_eq hbs
  unfold reportBytes at h
  simp only [List.append_assoc] at h
  simp -implicitDefEqProofs only [segAt_append, w8_length, w16_length, w32_length, wIndex_length, wInt16_length, wZero_length, Nat.zero_add,
    Nat.reduceAdd] at h
  obtain ⟨h0, h4, h8, h12, h13, h14, h16, h18, h19, h20, h22, h24, h25, h26, h27, h28, h30, h32, h34, h36, h38, h39, h40,
    h42, h44, h48, h52, h54, h56, h58, h60, h62, h64, h66, h68, h69, h70, h72, h76, h252⟩ := h
  exact ⟨hlen, u32_of_word h0, u32_of_word h252, u32_of_word h4, u32_of_word h8, u8_of_code (settleOutcomeCode_lt _) h12,
    u8_of_code (reasonCode_lt _) h13, u16_of_index h14, u16_of_index h16, u8_of_code (musterStateCode_lt _) h18,
    u8_of_code (musterKindCode_lt _) h19, u16_of_word h20, u16_of_seg h22, u8_of_code (orderOutcomeCode_lt _) h24,
    u8_of_flag h25, u8_of_flag h26, u8_of_zero h27, u16_of_seg h28, u16_of_seg h30, u16_of_seg h32, u16_of_seg h34,
    u16_of_seg h36, u8_of_seg h38, u8_of_zero h39, u16_of_seg h40, i16_of_seg h42, u32_of_word h44, u32_of_word h48,
    u16_of_seg h52, u16_of_seg h54, u16_of_seg h56, u16_of_seg h58, u16_of_seg h60, u16_of_seg h62, u16_of_seg h64,
    u16_of_seg h66, u8_of_code (faultKindCode_lt _) h68, u8_of_zero h69, u16_of_index h70, u32_of_word h72,
    zeroBytes_of_seg h76⟩

theorem reportParts_layout (w : ReportWrite) :
    (reportParts w).map (fun p => (p.address, p.bytes.length))
        = [(w.base + 0x800#64, 4), (w.base + 0x804#64, 248), (w.base + 0x8FC#64, 4)]
      ∧ (reportParts w).flatMap BusWrite.bytes = reportBytes w.serial w.fields := by
  have hlen := reportBytes_length w.serial w.fields
  unfold reportParts
  generalize reportBytes w.serial w.fields = bs at hlen
  have h252 : bs.drop 252 = (bs.drop 4).drop 248 := by rw [List.drop_drop]
  refine ⟨?_, ?_⟩
  · simp only [List.map_cons, List.map_nil, List.length_take, List.length_drop, hlen, areaAddress, reportOffset]
    rfl
  · simp only [List.flatMap_cons, List.flatMap_nil, List.append_nil, h252, List.take_append_drop]

/-! ## A station status record (R195) -/

theorem statusBytes_length (r : StatusRec) : (statusBytes r).length = 32 := by
  simp only [statusBytes, List.length_append, w8_length, w16_length, w32_length, wZero_length, Nat.reduceAdd]

theorem statusFlags {b : Byte} {dnd fault busy : Bool}
    (h : b.toNat = (flagNat dnd + 2 * flagNat fault + 4 * flagNat busy) % 256) :
    b.getLsbD 0 = dnd ∧ b.getLsbD 1 = fault ∧ b.getLsbD 2 = busy ∧ b.toNat < 8 := by
  have hb : b = BitVec.ofNat 8 (flagNat dnd + 2 * flagNat fault + 4 * flagNat busy) :=
    BitVec.eq_of_toNat_eq (by rw [h, BitVec.toNat_ofNat])
  rw [hb]
  cases dnd <;> cases fault <;> cases busy <;> decide

theorem statusBytes_fields {r : StatusRec} {bs : List Byte} (hbs : bs = statusBytes r) :
    u8 bs 0 = lineStatusCode r.status ∧ u8 bs 1 = r.misses % 256 ∧ u16 bs 2 = r.desired.toNat
      ∧ u16 bs 4 = r.confirmed.toNat ∧ u8 bs 6 = (r.confKind.map pageKindCode).getD 255
      ∧ ((byteAt bs 7).getLsbD 0 = r.dnd ∧ (byteAt bs 7).getLsbD 1 = r.fault ∧ (byteAt bs 7).getLsbD 2 = r.busy
          ∧ u8 bs 7 < 8)
      ∧ u8 bs 8 = r.pendingService % 256 ∧ u8 bs 9 = r.pendingAssist % 256 ∧ u8 bs 10 = r.serviceTally % 256
      ∧ u8 bs 11 = r.assistTally % 256 ∧ u8 bs 12 = r.errors % 256 ∧ zeroBytes bs 13 3 = true
      ∧ u32 bs 16 = r.lastHeard % 4294967296 ∧ zeroBytes bs 20 12 = true := by
  have h := segAt_of_eq hbs
  simp only [statusBytes, List.append_assoc] at h
  simp only [segAt_append, w8_length, w16_length, w32_length, wZero_length, Nat.zero_add, Nat.reduceAdd] at h
  obtain ⟨h0, h1, h2, h4, h6, h7, h8, h9, h10, h11, h12, h13, h16, h20⟩ := h
  exact ⟨u8_of_code (lineStatusCode_lt _) h0, u8_of_seg h1, u16_of_word h2, u16_of_word h4,
    (u8_of_code (confKindCode_lt _) h6).trans (confKindCode_eq _), statusFlags (u8_of_seg h7), u8_of_seg h8, u8_of_seg h9,
    u8_of_seg h10, u8_of_seg h11, u8_of_seg h12, zeroBytes_of_seg h13, u32_of_seg h16, zeroBytes_of_seg h20⟩

theorem absentStatus_bytes : ∀ k, k < 32 → byteAt (statusBytes absentStatus) k = if k = 6 then 0xFF#8 else 0#8 := by
  decide

/-! ## The fields of a status record (R186) -/

theorem statusRec_absent {s : State} {x : Nat} (h : tblHas s.sms.stations x = false) : statusRec s x = absentStatus :=
  if_neg (Bool.not_eq_true _ ▸ h)

theorem statusRec_fields {s : State} {x : Nat} (h : tblHas s.sms.stations x = true) :
    (statusRec s x).status = lineStatus s x ∧ (statusRec s x).misses = (lineRec s.lcs x).misses
      ∧ (statusRec s x).desired = desiredSerial s.pco x ∧ (statusRec s x).confirmed = (lineRec s.lcs x).confSerial
      ∧ (statusRec s x).confKind = (lineRec s.lcs x).confKind ∧ (statusRec s x).dnd = (lineRec s.lcs x).dnd
      ∧ (statusRec s x).fault = (lineRec s.lcs x).fault ∧ (statusRec s x).busy = (lineRec s.lcs x).busy
      ∧ (statusRec s x).errors = (lineRec s.lcs x).errors
      ∧ (statusRec s x).lastHeard = ((lineRec s.lcs x).lastHeard.map BitVec.toNat).getD 0
      ∧ ((lineRec s.lcs x).door = none → (statusRec s x).pendingService = 0 ∧ (statusRec s x).pendingAssist = 0
          ∧ (statusRec s x).serviceTally = 0 ∧ (statusRec s x).assistTally = 0)
      ∧ (∀ d, (lineRec s.lcs x).door = some d →
          (statusRec s x).pendingService = pendingService d ∧ (statusRec s x).pendingAssist = pendingAssist d
          ∧ (statusRec s x).serviceTally = d.serviceTally.toNat ∧ (statusRec s x).assistTally = d.assistTally.toNat) := by
  unfold statusRec
  rw [if_pos h]
  dsimp only
  refine ⟨rfl, rfl, rfl, rfl, rfl, rfl, rfl, rfl, rfl, ?_, fun hd => ?_, fun d hd => ?_⟩
  · cases (lineRec s.lcs x).lastHeard <;> rfl
  · rw [hd]
    exact ⟨rfl, rfl, rfl, rfl⟩
  · rw [hd]
    exact ⟨rfl, rfl, rfl, rfl⟩

end Sys2Proof.Machine

/-! PROOFS. The report and status writes that begin (R183, R184, R186): no operation begins one but the end of a command and
step 4 of a survey, and what each of the two carries. -/

namespace Sys2Proof.Machine

open Sys2Proof.Safety

/-! ## What an operation leaves of the writes in progress -/

/-- From `x` to `y` no report write and no status write began. -/
structure WritesKept (x y : XuState) : Prop where
  serial : y.reportSerial = x.reportSerial
  report : y.reportWrite = x.reportWrite ∨ y.reportWrite = none
  survey : y.survey = x.survey ∨ ∀ n r left, y.survey ≠ some (.status n r left)

theorem WritesKept.refl (x : XuState) : WritesKept x x := ⟨rfl, .inl rfl, .inl rfl⟩

theorem WritesKept.trans {x y z : XuState} (h : WritesKept x y) (k : WritesKept y z) : WritesKept x z := by
  obtain ⟨hn, hw, hs⟩ := h
  obtain ⟨kn, kw, ks⟩ := k
  refine ⟨kn.trans hn, ?_, ?_⟩
  · obtain e | e := kw
    · exact hw.imp e.trans e.trans
    · exact .inr e
  · obtain e | e := ks
    · rwa [e]
    · exact .inr e

theorem Adds.writesKept {x y : XuState} (h : Adds x y) : WritesKept x y := ⟨h.reportSerial, .inl h.reportWrite, .inl h.survey⟩

/-- The fields that the writes in progress are told by. -/
def xuWrites (x : XuState) : Word32 × Option ReportWrite × Option Survey := (x.reportSerial, x.reportWrite, x.survey)

theorem WritesKept.of_same {x y z : XuState} (h : WritesKept x y) (e : xuWrites z = xuWrites y) : WritesKept x z := by
  simp only [xuWrites, Prod.mk.injEq] at e
  obtain ⟨en, ew, es⟩ := e
  exact h.trans ⟨en, .inl ew, .inl es⟩

section KeptXu

variable {x y : XuState} (h : WritesKept x y)

include h

theorem writesKept_recordFault (k : FaultKind) (u : Option Nat) (v : Word32) (n : Nat) :
    WritesKept x (recordFault k u v n y) := h.trans (adds_recordFault k u v n (Adds.refl y)).writesKept

theorem writesKept_noBase (v : Word32) : WritesKept x (noBase v y) := writesKept_recordFault h .noBase none v 0

theorem writesKept_latch (c : Cause) : WritesKept x (latch c y) := h.of_same rfl

theorem writesKept_reportNow (r : WriteReason) : WritesKept x (reportNow r y) :=
  h.trans (adds_reportNow r (Adds.refl y)).writesKept

theorem writesKept_beginSurvey : WritesKept x (beginSurvey y) := by
  refine h.trans ?_
  unfold beginSurvey
  split
  · exact ⟨rfl, .inl rfl, .inl rfl⟩
  · exact ⟨rfl, .inl rfl, .inr (by simp)⟩

theorem writesKept_endSurvey : WritesKept x (endSurvey y) :=
  h.trans ⟨(congrArg XuState.reportSerial (endSurvey_frame y) :), .inl (endSurvey_reportWrite y),
    .inr fun n r left => endSurvey_not_status y n left r⟩

theorem writesKept_reloadSurvey : WritesKept x (reloadSurvey y) := (writesKept_beginSurvey h).of_same rfl

theorem writesKept_startSurveys : WritesKept x (startSurveys y) := by
  unfold startSurveys
  split
  · exact writesKept_reloadSurvey h
  · exact h

theorem writesKept_dropWrites : WritesKept x (dropWrites y) := by
  have hdropped : WritesKept x (latchBits (strandedCauses y) { y with reportWrite := none, reportDue := [], waiting := 0 }) :=
    h.trans ⟨rfl, .inr rfl, .inl rfl⟩
  unfold dropWrites
  dsimp only
  split
  · exact writesKept_endSurvey hdropped
  · exact hdropped

theorem writesKept_baseLost (v : Word32) : WritesKept x (baseLost v y) := by
  have hdrop := writesKept_dropWrites h
  unfold baseLost
  dsimp only
  split
  · exact writesKept_noBase (hdrop.of_same (z := { dropWrites y with countdown := none }) rfl) v
  · exact hdrop

theorem writesKept_xbaseXu (v value : Word32) : WritesKept x (xbaseXu v value y) := by
  have hmarked : WritesKept x (if writtenBase y.pendingHi value = y.base ∧ writtenSpan value = y.span then
      { y with base := writtenBase y.pendingHi value, span := writtenSpan value }
      else markAll { y with base := writtenBase y.pendingHi value, span := writtenSpan value }) := by
    split <;> exact h.of_same rfl
  unfold xbaseXu
  dsimp only
  split
  · split
    · exact writesKept_startSurveys hmarked
    · exact hmarked
  · split
    · exact writesKept_baseLost hmarked _
    · exact hmarked

theorem writesKept_surveyXu (v : Word32) : WritesKept x (surveyXu v y) := by
  have hinterval := h.of_same (z := { y with interval := writtenInterval v }) rfl
  unfold surveyXu
  dsimp only
  split
  · exact writesKept_reloadSurvey hinterval
  · exact hinterval

theorem writesKept_readLive : WritesKept x (readLive y) := h.trans ⟨rfl, .inl rfl, .inr (by simp [readLive])⟩

theorem writesKept_readAcks : WritesKept x (readAcks y) := h.trans ⟨rfl, .inl rfl, .inr (by simp [readAcks])⟩

theorem writesKept_publishTaken (bs : List Byte) : WritesKept x (publishTaken bs y) := by
  refine writesKept_readLive (y := takePublish bs y) ?_
  unfold takePublish
  dsimp only
  split
  · exact h
  · split
    · exact h.of_same rfl
    · exact h

theorem writesKept_reportEnded (w : ReportWrite) : WritesKept x (reportEnded w y) := by
  unfold reportEnded
  split
  · exact h
  · exact h.of_same rfl
  · exact writesKept_endSurvey h

theorem writesKept_reportDone (w : ReportWrite) : WritesKept x (reportDone w y) := by
  refine writesKept_reportEnded (h.trans ?_) w
  exact ⟨rfl, .inr rfl, .inl rfl⟩

theorem writesKept_reportFailed (v : Word32) (w : ReportWrite) : WritesKept x (reportFailed v w y) := by
  refine writesKept_reportEnded (writesKept_recordFault ?_ ..) w
  exact h.trans ⟨rfl, .inr rfl, .inl rfl⟩

end KeptXu

section KeptState

variable {x : XuState} {s : State} (h : WritesKept x s.xu)

include h

theorem writesKept_enterRunning : WritesKept x (enterRunning s).xu := by
  have hstart := writesKept_startSurveys (h.of_same (z := { s.xu with runState := .running }) rfl)
  unfold enterRunning
  dsimp only
  split
  · exact hstart
  · exact writesKept_noBase hstart _

theorem writesKept_runRequest : WritesKept x (runRequest s).xu := by
  unfold runRequest
  split
  · exact h
  · exact writesKept_enterRunning h
  · split
    · exact writesKept_enterRunning h
    · exact writesKept_noBase h _

theorem writesKept_musterResume : WritesKept x (musterResume s).xu := by
  unfold musterResume
  split
  · exact h
  · exact writesKept_latch (writesKept_enterRunning h) _
  · exact writesKept_latch (writesKept_runRequest h) _

theorem writesKept_haltRequest : WritesKept x (haltRequest s).xu := by
  unfold haltRequest
  split
  · split <;> exact h.of_same rfl
  · exact h

theorem writesKept_completeHalt : WritesKept x (completeHalt s).xu := by
  have hhalted := h.of_same (z := { s.xu with runState := .halted }) rfl
  unfold completeHalt
  dsimp only
  split
  · exact writesKept_reportNow hhalted _
  · exact writesKept_latch hhalted _

theorem writesKept_callMuster (k : MusterKind) : WritesKept x (callMuster k s).xu := by
  have hbuilt : WritesKept x (if s.msc.state = .standby then recomputeMap (claimOp { s with msc := calledMsc k s.msc })
      else { s with msc := calledMsc k s.msc }).xu := by
    split
    · exact h.trans (adds_claimOp (s := { s with msc := calledMsc k s.msc }) (Adds.refl s.xu)).writesKept
    · exact h
  have hshown := hbuilt.trans (adds_announceMuster (Adds.refl _)).writesKept
  exact (writesKept_musterResume (hshown.trans (adds_mapNotices (Adds.refl _) _).writesKept)).trans
    (adds_completeTest (Adds.refl _)).writesKept

theorem writesKept_realCall : WritesKept x (realCall s).xu := by
  have hescalated : WritesKept x (escalate s).xu := h.trans (adds_escalate (Adds.refl s.xu)).writesKept
  unfold realCall
  split
  · exact writesKept_callMuster h _
  · exact writesKept_callMuster h _
  · split
    · exact h
    · exact hescalated
  · split
    · exact h
    · exact hescalated

theorem writesKept_levelTest : WritesKept x (levelTest s).xu := by
  unfold levelTest
  rw [musterBlocks_xu]
  split
  · exact writesKept_realCall h
  · exact h

theorem writesKept_endCalled : WritesKept x (endCalled s).xu :=
  writesKept_levelTest (s := enterMustering s) (h.trans (adds_enterMustering (Adds.refl s.xu)).writesKept)

theorem writesKept_recount : WritesKept x (recount s).xu := h.trans (adds_recount s).writesKept

theorem writesKept_reportCause (c : Cause) : WritesKept x (reportCause c s).xu :=
  h.trans (adds_reportCause (Adds.refl s.xu) c).writesKept

theorem writesKept_orderCallDrill : WritesKept x (orderCallDrill s).xu := by
  unfold orderCallDrill
  dsimp only
  rw [musterBlocks_xu]
  split
  · exact writesKept_levelTest (writesKept_callMuster (s := withOutcome (callDrillOutcome s.msc) s) h _)
  · exact h

theorem writesKept_orderStandDown : WritesKept x (orderStandDown s).xu := by
  unfold orderStandDown
  dsimp only
  rw [musterBlocks_xu]
  split
  · refine writesKept_levelTest (h.trans (adds_announceMuster ?_).writesKept)
    exact Adds.refl s.xu
  · exact h

theorem writesKept_returnToStandby : WritesKept x (returnToStandby s).xu := by
  have hback := h.trans
    (adds_raiseStandbyAttention (adds_claimOp (s := { s with msc := standbyMsc s.msc }) (Adds.refl s.xu))).writesKept
  simp only [returnToStandby, musterBlocks_xu]
  refine writesKept_levelTest ((hback.trans (adds_markMoved ?_ _).writesKept).trans (adds_announceMuster (Adds.refl _)).writesKept)
  exact Adds.refl _

theorem writesKept_reserveBegin : WritesKept x (reserveBegin s).xu := by
  refine writesKept_recount (h.trans (adds_reportCause (adds_composeMarked _ ?_) _).writesKept)
  exact Adds.refl s.xu

theorem writesKept_reserveFinish : WritesKept x (reserveFinish s).xu := by
  refine writesKept_recount (h.trans (adds_reportCause (adds_composeMarked _ ?_) _).writesKept)
  exact Adds.refl s.xu

theorem writesKept_liveTaken (bs : List Byte) : WritesKept x (liveTaken bs s).xu :=
  writesKept_readAcks
    (h.trans (adds_deliverExterior (adds_deliverClosure (Adds.refl s.xu) (closureWord bs)) (exteriorFlag bs)).writesKept)

theorem writesKept_rejectEdition (number : Word32) (f : Failure) : WritesKept x (rejectEdition number f s).xu := by
  refine WritesKept.trans ?_ (adds_rejectEdition number f s).writesKept
  exact writesKept_recordFault (h.of_same (z := { s.xu with
    settled := number, stage := none
    settle := { outcome := .rejected, reason := f.reason, entry := f.entry, record := f.record } }) rfl)
    .rejected f.leaf s.clk.second 1

theorem writesKept_applyProgress (number : Word32) (p : Progress) : WritesKept x (applyProgress number p s).xu := by
  cases p with
  | failed f => exact writesKept_rejectEdition h number f
  | going g => exact h.of_same rfl

theorem writesKept_commitTests (b : State) : WritesKept x (commitTests b s).xu := by
  have hsensed : WritesKept x (if b.sms.settings.alarmSense ≠ s.sms.settings.alarmSense ∧ s.sms.settings.alarmSense = .level
      then levelTest s else s).xu := by
    split
    · exact writesKept_levelTest h
    · exact h
  refine writesKept_reportCause (writesKept_recount ?_) _
  exact hsensed

theorem writesKept_finishValidation (g : Staging) : WritesKept x (finishValidation g s).xu := by
  unfold finishValidation
  split
  · exact writesKept_rejectEdition h _ _
  · have hinstalled : WritesKept x (installEdition g s).1.xu := h.of_same rfl
    refine writesKept_commitTests ?_ s
    exact hinstalled.trans (adds_commitNotices (adds_commitRoutes (Adds.refl _) s) s _).writesKept

end KeptState

theorem writesKept_discards {n : Nat} {s u : State} (h : Discards n s u) : WritesKept s.xu u.xu := by
  obtain ⟨t, idle, -, rfl⟩ := h
  rw [discardAnswer_eq]
  exact (adds_endedTxn false n idle t (adds_crcCounted t.station s)).writesKept

/-! ## Step 4 of a survey -/

/-- `u` is step 4 of a survey, from station `n` on, on a state `v` whose writes and whose status records from `n` on are
those of `s` (R181, R186). -/
structure SurveyStep (c : Instr) (s u v : State) (n : Nat) : Prop where
  step : u = surveyWrites n v
  writes : WritesKept s.xu v.xu
  holds : ∀ x, n ≤ x → statusHold v.xu x = statusHold s.xu x
  first : ∀ bs, c = .ackArrayRead bs → n = 0

theorem surveyStep_acks (bs : List Byte) (s : State) :
    SurveyStep (.ackArrayRead bs) s (acksTaken bs s) (acksAtDoors bs s) 0 := by
  have hadds : Adds s.xu (acksAtDoors bs s).xu := by
    unfold acksAtDoors
    dsimp only
    split
    · exact adds_causeDue _ (Adds.refl _)
    · exact Adds.refl _
  exact ⟨acksTaken_eq bs s, hadds.writesKept, fun x _ => statusHold_of_status hadds.status x, fun _ _ => rfl⟩

theorem surveyStep_statusDone (x : Nat) (r : StatusRec) (s : State) :
    SurveyStep .statusRecordWritten s (statusDone x r s) (statusHeld x r s) (x + 1) :=
  ⟨rfl, (WritesKept.refl _).of_same rfl, fun _ h => tblGetD_put_ne _ _ _ (by omega), fun _ h => nomatch h⟩

theorem surveyStep_statusFailed (x : Nat) (s : State) :
    SurveyStep .statusWriteFailed s (statusFailed x s) (statusMarked x s) (x + 1) := by
  have hadds : Adds s.xu (recordFault .reportWrite none s.clk.second 1 s.xu) := adds_recordFault _ _ _ _ (Adds.refl _)
  refine ⟨rfl, hadds.writesKept.of_same rfl, fun y h => ?_, fun _ h => nomatch h⟩
  exact (statusHold_markStatus_ne true _ (by omega)).trans (statusHold_of_status hadds.status y)

theorem surveyStep_readFailed (b : Bool) (left : Nat) (s : State) :
    SurveyStep (.busReadFailed .survey) s (surveyReadFailed (.acks b left) s) (fetchCounted s) 0 := by
  have hadds : Adds s.xu (recordFault .fetchFailed none s.clk.second 1 s.xu) := adds_recordFault _ _ _ _ (Adds.refl _)
  exact ⟨rfl, hadds.writesKept, fun x _ => statusHold_of_status hadds.status x, fun _ _ => rfl⟩

/-! ## No effect begins a write, but step 4 of a survey -/

theorem effect_writes {c : Instr} {s u : State} (h : Effect c s u) (hq : quiet c = false) :
    WritesKept s.xu u.xu ∨ ∃ n v, SurveyStep c s u v n := by
  have hs := WritesKept.refl s.xu
  cases c <;> simp only [Effect] at h
  case powerOnReset | functionReset | functionResetEnd | powerOnResetEnd | voyageSecond => cases hq
  case ackArrayRead bs => subst h; exact .inr ⟨_, _, surveyStep_acks bs s⟩
  case statusRecordWritten => obtain ⟨x, r, left, -, rfl⟩ := h; exact .inr ⟨_, _, surveyStep_statusDone x r s⟩
  case statusWriteFailed => obtain ⟨x, r, left, -, rfl⟩ := h; exact .inr ⟨_, _, surveyStep_statusFailed x s⟩
  case busReadFailed side =>
    cases side with
    | survey =>
      obtain ⟨v, -, hreads, rfl⟩ := h
      cases v with
      | publish => exact .inl (writesKept_readLive (writesKept_recordFault hs ..))
      | live => exact .inl (writesKept_readAcks (writesKept_recordFault hs ..))
      | acks b left => exact .inr ⟨_, _, surveyStep_readFailed b left s⟩
      | status | report => cases hreads
    | staging =>
      obtain ⟨g, -, -, rfl⟩ := h
      refine .inl (writesKept_rejectEdition (s := stagingCounted g s) ?_ _ _)
      exact writesKept_recordFault hs .fetchFailed (fetchSubject g) s.clk.second 1
  all_goals left
  case causeEnablesWrite | causeClear | xbaseHiWrite => subst h; exact hs.of_same rfl
  case badOrder | refreshCountdownExpiry => subst h; exact hs
  case silentCycleExpiry => rw [h.2]; exact hs
  case turn => rw [h.2.2]; exact hs
  case xbaseLoWrite => subst h; exact writesKept_xbaseXu hs ..
  case surveyWrite => subst h; exact writesKept_surveyXu hs _
  case surveyCountdownExpiry => subst h; exact writesKept_reloadSurvey hs
  case publishWordRead => subst h; exact writesKept_publishTaken hs _
  case liveWordsRead => subst h; exact writesKept_liveTaken hs _
  case runRequest => subst h; exact writesKept_runRequest hs
  case haltRequest => subst h; exact writesKept_haltRequest hs
  case haltComplete => rw [h.2]; exact writesKept_completeHalt hs
  case callReal => subst h; exact writesKept_realCall (s := withOutcome (callRealOutcome s.msc) s) hs
  case callDrill => subst h; exact writesKept_orderCallDrill hs
  case standDown => subst h; exact writesKept_orderStandDown hs
  case minuteEvent => subst h; exact (adds_minuteTaken (Adds.refl s.xu)).writesKept
  case alarmQualifiedTransition level =>
    obtain ⟨-, -, ⟨-, rfl⟩ | ⟨-, -, rfl⟩ | ⟨-, -, rfl⟩⟩ := h
    · exact writesKept_levelTest (s := { s with msc := { s.msc with alarm := some level } }) hs
    · exact writesKept_realCall (s := { s with msc := { s.msc with alarm := some level } }) hs
    · exact hs
  case alarmInitialLevel level =>
    rw [h.2.2]; exact writesKept_levelTest (s := { s with msc := { s.msc with alarm := some level } }) hs
  case reserveQualifiedRise =>
    rw [h.2.2]; exact writesKept_reserveBegin (s := { s with msc := { s.msc with reserveLevel := some true } }) hs
  case reserveQualifiedFall =>
    rw [h.2.2]; exact writesKept_reserveFinish (s := { s with msc := { s.msc with reserveLevel := some false } }) hs
  case reserveInitialLevel level =>
    obtain ⟨-, -, ⟨-, rfl⟩ | ⟨-, rfl⟩⟩ := h
    · exact writesKept_reserveBegin (s := { s with msc := { s.msc with reserveLevel := some true } }) hs
    · exact hs
  case calledTimerExpiry => rw [h.2.2]; exact writesKept_endCalled hs
  case standDownHoldExpiry => rw [h.2.2]; exact writesKept_returnToStandby hs
  case stepCountdownExpiry => obtain ⟨r, n, -, rfl⟩ := h; exact (adds_moveRot (Adds.refl s.xu) ..).writesKept
  case interjectionCountdownExpiry => obtain ⟨r, -, rfl⟩ := h; exact (adds_moveRot (Adds.refl s.xu) ..).writesKept
  case solveComplete => obtain ⟨p, -, rfl⟩ := h; exact (adds_solveTaken (Adds.refl s.xu) p).writesKept
  case stateAnswer =>
    obtain ⟨t, -, -, rfl⟩ | h := h
    · exact (adds_stateTaken ..).writesKept
    · exact writesKept_discards h
  case takenToPageHead =>
    obtain ⟨t, p, -, -, rfl⟩ | h | rfl := h
    · exact (recordTaken_pageTaken _ _ 0 p s).2.writesKept
    · exact writesKept_discards h
    · exact hs
  case takenToPageBlock =>
    obtain ⟨t, p, k, -, -, rfl⟩ | h | rfl := h
    · exact (recordTaken_pageTaken _ _ (k + 1) p s).2.writesKept
    · exact writesKept_discards h
    · exact hs
  case heldOff =>
    obtain ⟨t, -, -, rfl⟩ | h := h
    · rw [heldOffAnswer_eq]; exact (adds_endedTxn true _ _ t (Adds.refl s.xu)).writesKept
    · exact writesKept_discards h
  case answerDiscarded => exact writesKept_discards h
  case replyWindowTimeout =>
    obtain ⟨t, -, -, rfl⟩ := h
    rw [noAnswer_eq]; exact (adds_endedTxn false _ _ t (Adds.refl s.xu)).writesKept
  case reportWriteDone => obtain ⟨w, -, rfl⟩ := h; exact writesKept_reportDone hs w
  case reportWriteFailed => obtain ⟨w, -, rfl⟩ := h; exact writesKept_reportFailed hs _ w
  case noticeHeaderRead | directoryRead | noticeEntriesRead | publishWordReread =>
    obtain ⟨g, -, -, rfl⟩ := h
    exact writesKept_applyProgress hs ..
  case recordRead =>
    obtain ⟨g, entry, leaf, sub, index, last, -, -, rfl⟩ := h
    exact writesKept_applyProgress hs ..
  case validationDone => obtain ⟨g, -, -, rfl⟩ := h; exact writesKept_finishValidation hs g

/-- The five commands that begin no report write leave every write as it is, or drop it. -/
theorem quietEffect_writes {c : Instr} {s u : State} (h : Effect c s u) (hq : quiet c = true) :
    (u.xu.reportWrite = s.xu.reportWrite ∨ u.xu.reportWrite = none) ∧ (u.xu.survey = s.xu.survey ∨ u.xu.survey = none) := by
  cases c <;> simp only [Effect] at h
  case powerOnReset | functionReset => subst h; exact ⟨.inr rfl, .inr rfl⟩
  case functionResetEnd | powerOnResetEnd => rw [h.2]; exact ⟨.inl rfl, .inl rfl⟩
  case voyageSecond => subst h; exact ⟨.inl rfl, .inl rfl⟩
  all_goals cases hq

/-! ## A report write that begins (R183, R184) -/

theorem reportFields_flush (u : State) : reportFields (flush u) = reportFields u := by
  have h := startReports_frame (reportFields u) u.xu
  have happlied : (flush u).xu.applied = u.xu.applied := (congrArg XuState.applied h :)
  have hsettled : (flush u).xu.settled = u.xu.settled := (congrArg XuState.settled h :)
  have hsettle : (flush u).xu.settle = u.xu.settle := (congrArg XuState.settle h :)
  have hrun : (flush u).xu.runState = u.xu.runState := startReports_runState _ _
  have hcounters : (flush u).xu.counters = u.xu.counters := startReports_counters _ _
  have hfault : (flush u).xu.lastFault = u.xu.lastFault := startReports_lastFault _ _
  simp only [reportFields, happlied, hsettled, hsettle, hrun, hcounters, hfault]
  rfl

/-- A report write that is there at the end of a command, and was not in progress before, began there. -/
theorem startReports_begun {f : ReportFields} {x : XuState} {w : ReportWrite} (h : (startReports f x).reportWrite = some w)
    (hx : x.reportWrite ≠ some w) :
    w.serial = x.reportSerial + 1 ∧ (startReports f x).reportSerial = x.reportSerial + 1 ∧ w.base = x.base
      ∧ baseValid x = true ∧ w.left = busPeriods ∧ w.fields = f := by
  have begun : ∀ r y, (beginReport f r y).reportWrite = some w → w.serial = y.reportSerial + 1 ∧ w.base = y.base
      ∧ w.left = busPeriods ∧ w.fields = f := fun r y e => by
    injection e with e
    subst e
    exact ⟨rfl, rfl, rfl, rfl⟩
  obtain e | ⟨hnone, ⟨hbase, ⟨r, rest, -, e⟩ | ⟨-, e⟩ | ⟨-, -, -, e⟩⟩ | ⟨-, e | ⟨-, e⟩⟩⟩ := startReports_cases f x <;>
    rw [e] at h ⊢
  · exact absurd h hx
  · obtain ⟨hserial, hb, hleft, hf⟩ := begun r _ h
    exact ⟨hserial, rfl, hb, hbase, hleft, hf⟩
  · obtain ⟨hserial, hb, hleft, hf⟩ := begun .survey _ h
    exact ⟨hserial, rfl, hb, hbase, hleft, hf⟩
  · rw [endSurvey_reportWrite] at h
    exact absurd h hx
  · exact absurd h hx
  · rw [endSurvey_reportWrite] at h
    exact absurd h hx

theorem surveyWrites_writes (n : Nat) (v : State) :
    (surveyWrites n v).xu.reportWrite = v.xu.reportWrite ∧ (surveyWrites n v).xu.reportSerial = v.xu.reportSerial :=
  ⟨(congrArg XuState.reportWrite (surveyWrites_frame n v) :), (congrArg XuState.reportSerial (surveyWrites_frame n v) :)⟩

theorem effect_reportWrite {c : Instr} {s u : State} (h : Effect c s u) (hq : quiet c = false) :
    u.xu.reportSerial = s.xu.reportSerial ∧ (u.xu.reportWrite = s.xu.reportWrite ∨ u.xu.reportWrite = none) := by
  obtain hkept | ⟨n, v, hstep⟩ := effect_writes h hq
  · exact ⟨hkept.serial, hkept.report⟩
  · obtain ⟨hwrite, hserial⟩ := surveyWrites_writes n v
    rw [hstep.step, hwrite, hserial]
    exact ⟨hstep.writes.serial, hstep.writes.report⟩

theorem reportWrite_begun {c : Instr} {s t : State} {w : ReportWrite} (h : exec c s = .next t)
    (hw : t.xu.reportWrite = some w) (hnew : t.xu.reportWrite ≠ s.xu.reportWrite) :
    w.serial = s.xu.reportSerial + 1 ∧ t.xu.reportSerial = s.xu.reportSerial + 1 ∧ w.base = t.xu.base
      ∧ baseValid t.xu = true ∧ w.left = busPeriods ∧ w.fields = reportFields t := by
  have stale : ∀ {y : Option ReportWrite}, t.xu.reportWrite = y → ¬(y = s.xu.reportWrite ∨ y = none) := by
    rintro y rfl (e | e)
    · exact hnew e
    · rw [e] at hw; cases hw
  obtain rfl | ⟨hq, heff⟩ | ⟨hq, u, heff, rfl⟩ := exec_effect h
  · exact absurd rfl hnew
  · exact absurd (quietEffect_writes heff hq).1 (stale rfl)
  · obtain ⟨hserial, hwrite⟩ := effect_reportWrite heff hq
    have hx : u.xu.reportWrite ≠ some w := fun e => stale hw (e ▸ hwrite)
    obtain ⟨wserial, tserial, wbase, hbase, wleft, wfields⟩ := startReports_begun hw hx
    rw [reportFields_flush]
    exact ⟨wserial.trans (by rw [hserial]), tserial.trans (by rw [hserial]), wbase.trans (startReports_base _ _).symm,
      (startReports_baseValid _ _).trans hbase, wleft, wfields⟩

/-! ## A status write that begins (R186) -/

theorem statusRec_withXu (s : State) (y : XuState) (x : Nat) : statusRec { s with xu := y } x = statusRec s x := rfl

theorem statusRec_surveyWrites (n : Nat) (v : State) (x : Nat) : statusRec (flush (surveyWrites n v)) x = statusRec v x :=
  (statusRec_withXu (surveyWrites n v) _ x).trans (statusRec_withXu v _ x)

theorem statusDue_iff (s : State) (x : Nat) :
    statusDue s x = true ↔ (statusHold s.xu x).mark = true ∨ (statusHold s.xu x).written ≠ some (statusRec s x) := by
  simp only [statusDue, Bool.or_eq_true, decide_eq_true_eq]

theorem nextStatus_spec {s : State} {n x : Nat} (h : nextStatus s n = some x) :
    n ≤ x ∧ x < 496 ∧ statusDue s x = true ∧ ∀ y, n ≤ y → y < x → statusDue s y = false := by
  unfold nextStatus at h
  rw [List.find?_range_eq_some] at h
  obtain ⟨hfound, hrange, hleast⟩ := h
  simp only [Bool.and_eq_true, decide_eq_true_eq] at hfound
  refine ⟨hfound.1, List.mem_range.mp hrange, hfound.2, fun y hn hy => ?_⟩
  have hnot := hleast y hy
  simpa only [hn, decide_true, Bool.true_and, Bool.not_eq_true', Bool.not_eq_true] using hnot

theorem surveyWrites_begun {n x left : Nat} {r : StatusRec} {v : State}
    (h : (surveyWrites n v).xu.survey = some (.status x r left)) :
    baseValid v.xu = true ∧ nextStatus v n = some x ∧ r = statusRec v x ∧ left = busPeriods
      ∧ (surveyWrites n v).xu.surveyBase = v.xu.base ∧ (statusHold (surveyWrites n v).xu x).mark = false := by
  obtain ⟨hbase, ⟨y, hnext, e⟩ | ⟨-, e⟩⟩ | ⟨-, e⟩ := surveyWrites_cases n v <;> rw [e] at h ⊢
  · simp only [markStatus, Option.some.injEq, Survey.status.injEq] at h
    obtain ⟨rfl, rfl, rfl⟩ := h
    exact ⟨hbase, hnext, rfl, rfl, rfl, by rw [statusHold_markStatus_self]⟩
  · cases h
  · exact absurd h (endSurvey_not_status _ _ _ _)

theorem startReports_surveyBase {f : ReportFields} {x : XuState} (hne : x.survey ≠ some .report) :
    (startReports f x).surveyBase = x.surveyBase := by
  obtain h | ⟨-, ⟨-, ⟨r, rest, -, h⟩ | ⟨hreport, -⟩ | ⟨hreport, -⟩⟩ | ⟨-, h | ⟨hreport, -⟩⟩⟩ := startReports_cases f x
  case inr.inl.inr.inl | inr.inl.inr.inr | inr.inr.inr => exact absurd hreport hne
  all_goals exact (congrArg XuState.surveyBase h :)

theorem flush_status_before {u : State} {x left : Nat} {r : StatusRec} (h : (flush u).xu.survey = some (.status x r left)) :
    u.xu.survey = some (.status x r left) := by
  by_contra hne
  exact flush_not_status hne h

theorem statusWrite_begun {c : Instr} {s t : State} {x left : Nat} {r : StatusRec} (h : exec c s = .next t)
    (hsurvey : t.xu.survey = some (.status x r left)) (hnew : t.xu.survey ≠ s.xu.survey) :
    r = statusRec t x ∧ x < 496 ∧ left = busPeriods ∧ t.xu.surveyBase = t.xu.base ∧ baseValid t.xu = true
      ∧ (statusHold t.xu x).mark = false
      ∧ ((statusHold s.xu x).mark = true ∨ (statusHold s.xu x).written ≠ some r)
      ∧ (∀ bs, c = .ackArrayRead bs → ∀ y, y < x →
          (statusHold s.xu y).mark = false ∧ (statusHold s.xu y).written = some (statusRec t y)) := by
  obtain rfl | ⟨hq, heff⟩ | ⟨hq, u, heff, rfl⟩ := exec_effect h
  · exact absurd rfl hnew
  · obtain e | e := (quietEffect_writes heff hq).2
    · exact absurd e hnew
    · rw [e] at hsurvey; cases hsurvey
  · have hbefore := flush_status_before hsurvey
    obtain hkept | ⟨n, v, hstep, -, hholds, hfirst⟩ := effect_writes heff hq
    · obtain e | e := hkept.survey
      · rw [hsurvey, ← hbefore, e] at hnew
        exact absurd rfl hnew
      · exact absurd hbefore (e x r left)
    · subst hstep
      obtain ⟨hbase, hnext, hr, hleft, hsbase, hmark⟩ := surveyWrites_begun hbefore
      obtain ⟨hn, hx, hdue, hleast⟩ := nextStatus_spec hnext
      have hframe := surveyWrites_frame n v
      have hbaseU : (surveyWrites n v).xu.base = v.xu.base := (congrArg XuState.base hframe :)
      have hvalidU : baseValid (surveyWrites n v).xu = baseValid v.xu := by
        exact baseValid_of_held (congrArg xuHeld hframe :)
      have hne : (surveyWrites n v).xu.survey ≠ some .report := by rw [hbefore]; simp
      have hstatus := statusHold_of_status (startReports_status (reportFields (surveyWrites n v)) (surveyWrites n v).xu) x
      refine ⟨hr.trans (statusRec_surveyWrites n v x).symm, hx, hleft, ?_, ?_, ?_, ?_, fun bs hc y hy => ?_⟩
      · exact (startReports_surveyBase hne).trans (hsbase.trans (hbaseU.symm.trans (startReports_base _ _).symm))
      · exact (startReports_baseValid _ _).trans (hvalidU.trans hbase)
      · exact (congrArg StatusHold.mark hstatus).trans hmark
      · rw [statusDue_iff, hholds x hn, ← hr] at hdue
        exact hdue
      · have hzero := hfirst bs hc
        have hidle := hleast y (by omega) hy
        rw [← Bool.not_eq_true, statusDue_iff, hholds y (by omega)] at hidle
        rw [statusRec_surveyWrites]
        simpa using hidle

/-! ## The settled obligation -/

/-- Settles O40: a write that is new at the end of a command was begun by that end or by step 4 of a survey, and the bytes
of both layouts lie where `reportBytes_fields` and `statusBytes_fields` say. -/
theorem reportsBegin : Obligations.ReportsBegin :=
  ⟨fun _ _ _ _ => reportWrite_begun, fun _ _ _ _ _ _ => statusWrite_begun,
    fun _ _ => ⟨fun h => statusRec_absent h ▸ absentStatus_bytes, statusRec_fields⟩, reportParts_layout,
    fun _ _ r => ⟨rfl, statusBytes_length r, rfl⟩, fun _ _ _ => reportBytes_fields, fun _ _ => statusBytes_fields,
    rfl, rfl, rfl, rfl, rfl, rfl, rfl, rfl⟩

end Sys2Proof.Machine

/-! PROOFS. The words that a survey reads (R16, R17, R28, R160, R181): the staging that the publish word begins, and the graph
epoch and the pages after the live words. -/

namespace Sys2Proof.Machine

open Sys2Proof.Safety

/-! ## A candidate depends on the graph through the arrows it draws (R93) -/

section Arrows

variable {m m' : SmsState} {slots slots' : List Slot} {st : StationRec}
variable (hm : { m' with closure := m.closure, exterior := m.exterior, epoch := m.epoch } = m)

/-- The arrows of a station toward these pairs are the same in two states of the graph and the solver. -/
def SameArrows (m m' : SmsState) (slots slots' : List Slot) (st : StationRec) (draws : List Pair) : Prop :=
  ∀ p ∈ draws, arrowFor m' slots' st p = arrowFor m slots st p

include hm

theorem composeDoor_congr : composeDoor m' st = composeDoor m st := by
  have hmusters : m'.musters = m.musters := (congrArg SmsState.musters hm :)
  rw [composeDoor, composeDoor, hmusters]

theorem composeDoorMuster_congr {c : MscState} {x : Nat}
    (h : SameArrows m m' slots slots' st (composeDoorMuster m slots c x st).draws) :
    composeDoorMuster m' slots' c x st = composeDoorMuster m slots c x st := by
  have hmusters : m'.musters = m.musters := (congrArg SmsState.musters hm :)
  unfold composeDoorMuster at h ⊢
  rw [hmusters]
  split
  · rename_i k redirected hentry
    simp only [hentry] at h
    split
    · rfl
    · rename_i r hr
      simp only [hr] at h
      have harrow := h { node := r.node, regime := .muster } (List.mem_singleton_self _)
      simp only [harrow]
  · rfl

theorem musterLine_congr {k : Nat} (h : ∀ l, musterLine m slots st k = some l →
    arrowFor m' slots' st l.2.1 = arrowFor m slots st l.2.1) : musterLine m' slots' st k = musterLine m slots st k := by
  have hmusters : m'.musters = m.musters := (congrArg SmsState.musters hm :)
  have hnodes : m'.nodes = m.nodes := (congrArg SmsState.nodes hm :)
  unfold musterLine at h ⊢
  rw [hmusters, hnodes]
  cases hr : tblGet m.musters k with
  | none => rfl
  | some r =>
    rw [hr] at h
    simp only [Option.map_some]
    rw [h _ rfl]

theorem landLine_congr {k : Nat} (h : ∀ l, landLine m slots st k = some l →
    arrowFor m' slots' st l.2.1 = arrowFor m slots st l.2.1) : landLine m' slots' st k = landLine m slots st k := by
  have hlandmarks : m'.landmarks = m.landmarks := (congrArg SmsState.landmarks hm :)
  have hnodes : m'.nodes = m.nodes := (congrArg SmsState.nodes hm :)
  unfold landLine at h ⊢
  rw [hlandmarks, hnodes]
  cases hr : tblGet m.landmarks k with
  | none => rfl
  | some r =>
    rw [hr] at h
    simp only [Option.map_some]
    rw [h _ rfl]

theorem composeScreenMuster_congr {c : MscState} {x : Nat}
    (h : SameArrows m m' slots slots' st (composeScreenMuster m slots c x st).draws) :
    composeScreenMuster m' slots' c x st = composeScreenMuster m slots c x st := by
  unfold composeScreenMuster at h ⊢
  dsimp only at h ⊢
  rw [List.filterMap_congr fun k hk => musterLine_congr hm fun l hl =>
    h l.2.1 (List.mem_map.mpr ⟨l, List.mem_filterMap.mpr ⟨k, hk, hl⟩, rfl⟩)]

theorem composeLandmarks_congr (h : SameArrows m m' slots slots' st (composeLandmarks m slots st).draws) :
    composeLandmarks m' slots' st = composeLandmarks m slots st := by
  unfold composeLandmarks at h ⊢
  dsimp only [normalPage] at h ⊢
  rw [List.filterMap_congr fun k hk => landLine_congr hm fun l hl =>
    h l.2.1 (List.mem_map.mpr ⟨l, List.mem_filterMap.mpr ⟨k, hk, hl⟩, rfl⟩)]

omit hm in
theorem wayLine_congr {l : ListLine} (h : ∀ v, l.route = some v →
    arrowFor m' slots' st { node := v, regime := .normal } = arrowFor m slots st { node := v, regime := .normal }) :
    wayLine m' slots' st l = wayLine m slots st l := by
  unfold wayLine
  cases hroute : l.route with
  | none => rfl
  | some v => simp only [Option.map_some, h v hroute]

omit hm in
theorem composeWay_congr {list : List ListLine} (h : SameArrows m m' slots slots' st (composeWay m slots list st).draws) :
    composeWay m' slots' list st = composeWay m slots list st := by
  unfold composeWay at h ⊢
  dsimp only [normalPage] at h ⊢
  have hlines : list.map (wayLine m' slots' st) = list.map (wayLine m slots st) :=
    List.map_congr_left fun l hl => wayLine_congr fun v hv =>
      h { node := v, regime := .normal } (List.mem_filterMap.mpr ⟨l, hl, by rw [hv]; rfl⟩)
  rw [hlines]

omit hm in
theorem composeNotice_congr {i : Nat} {n : NoticeRec}
    (h : SameArrows m m' slots slots' st (composeNotice m slots st i n).draws) :
    composeNotice m' slots' st i n = composeNotice m slots st i n := by
  unfold composeNotice at h ⊢
  cases hdest : n.dest with
  | none => rfl
  | some d =>
    rw [hdest] at h
    have harrow := h { node := d, regime := .normal } (List.mem_singleton_self _)
    simp only [harrow]

end Arrows

section Candidates

variable {s t : State} {x : Nat} {st : StationRec}

theorem composeProgramme_congr (hpgu : t.pgu = s.pgu)
    (h : SameArrows s.sms t.sms s.rsv.slots t.rsv.slots st (composeProgramme s x st).draws) :
    composeProgramme t x st = composeProgramme s x st := by
  unfold composeProgramme at h ⊢
  rw [hpgu]
  cases hkind : st.kind with
  | waypoint => rw [hkind] at h; exact composeWay_congr h
  | cabin | lobby => rfl

theorem composeScreen_congr (hm : { t.sms with closure := s.sms.closure, exterior := s.sms.exterior, epoch := s.sms.epoch } = s.sms)
    (hpgu : t.pgu = s.pgu) (hpco : { t.pco with pages := s.pco.pages } = s.pco)
    (h : SameArrows s.sms t.sms s.rsv.slots t.rsv.slots st (composeScreen s x st).draws) :
    composeScreen t x st = composeScreen s x st := by
  have hrots : t.pco.rots = s.pco.rots := (congrArg PcoState.rots hpco :)
  have hrotations : t.pco.rotations = s.pco.rotations := (congrArg PcoState.rotations hpco :)
  have hnotices : t.pco.notices = s.pco.notices := (congrArg PcoState.notices hpco :)
  have hinterj : t.pco.interjections = s.pco.interjections := (congrArg PcoState.interjections hpco :)
  have hshows : positionShows t.pco x = positionShows s.pco x := by
    unfold positionShows
    rw [hrots, hrotations, hinterj]
  unfold composeScreen at h ⊢
  rw [hshows, hnotices]
  cases hpos : positionShows s.pco x with
  | notice i =>
    simp only [hpos] at h
    cases hn : tblGet s.pco.notices i with
    | some n => simp only [hn] at h ⊢; exact composeNotice_congr h
    | none => simp only [hn] at h ⊢; exact composeProgramme_congr hpgu h
  | landmarks =>
    simp only [hpos] at h
    cases hkind : st.kind with
    | waypoint => simp only [hkind] at h; exact composeLandmarks_congr hm h
    | cabin | lobby => simp only [hkind] at h; exact composeProgramme_congr hpgu h
  | programme =>
    simp only [hpos] at h
    exact composeProgramme_congr hpgu h

/-- Two states with the same tables call for the same page where the arrows that it draws are the same (R93). -/
theorem candidate_congr_arrows
    (hm : { t.sms with closure := s.sms.closure, exterior := s.sms.exterior, epoch := s.sms.epoch } = s.sms)
    (hpgu : t.pgu = s.pgu) (hmsc : t.msc = s.msc) (hpco : { t.pco with pages := s.pco.pages } = s.pco)
    (h : SameArrows s.sms t.sms s.rsv.slots t.rsv.slots st (candidate s x st).draws) :
    candidate t x st = candidate s x st := by
  have hexcluded : excluded t st = excluded s st := by rw [excluded, excluded, hmsc]
  unfold candidate at h ⊢
  rw [hexcluded, hmsc]
  by_cases hdark : excluded s st = true
  · rw [if_pos hdark, if_pos hdark]
  · rw [if_neg hdark] at h ⊢
    rw [if_neg hdark]
    by_cases hstate : s.msc.state = .standby
    · cases hkind : st.kind with
      | cabin => simp only [if_pos hstate]; exact composeDoor_congr hm
      | waypoint | lobby =>
        simp only [hkind, if_pos hstate] at h ⊢
        exact composeScreen_congr hm hpgu hpco h
    · cases hkind : st.kind with
      | cabin => simp only [hkind, if_neg hstate] at h ⊢; exact composeDoorMuster_congr hm h
      | waypoint | lobby => simp only [hkind, if_neg hstate] at h ⊢; exact composeScreenMuster_congr hm h

end Candidates

/-! ## A rise of the epoch in the solver (R28) -/

theorem staleSlot_fields (sl : Slot) :
    (staleSlot sl).pair = sl.pair ∧ (staleSlot sl).vector = sl.vector ∧ (staleSlot sl).vectorEpoch = sl.vectorEpoch
      ∧ (staleSlot sl).holders = sl.holders ∧ (staleSlot sl).state ≠ .ready := by
  unfold staleSlot
  split
  · exact ⟨rfl, rfl, rfl, rfl, fun h => nomatch h⟩
  · exact ⟨rfl, rfl, rfl, rfl, fun h => nomatch h⟩
  · rename_i h _
    exact ⟨rfl, rfl, rfl, rfl, h⟩

/-- What a slot holds, but for its state. -/
def slotContent (sl : Slot) : Pair × List Claimant × Option RouteVec × Word32 :=
  (sl.pair, sl.holders, sl.vector, sl.vectorEpoch)

theorem solverSelect_content (slots : List Slot) : (solverSelect slots).map slotContent = slots.map slotContent :=
  (solverSelect_spec slots).2.2.1

theorem raiseEpoch_content (s : State) : (raiseEpoch s).rsv.slots.map slotContent = s.rsv.slots.map slotContent := by
  refine (solverSelect_content _).trans ?_
  rw [List.map_map]
  refine List.map_congr_left fun sl _ => ?_
  obtain ⟨hpair, hvector, hepoch, hholders, -⟩ := staleSlot_fields sl
  simp only [Function.comp_apply, slotContent, hpair, hvector, hepoch, hholders]

theorem raiseEpoch_not_ready (s : State) : ∀ sl ∈ (raiseEpoch s).rsv.slots, sl.state ≠ .ready := by
  intro sl hsl
  obtain ⟨j, hj, rfl⟩ := List.mem_iff_getElem.mp hsl
  have hat := solverSelect_getElem? (s.rsv.slots.map staleSlot) j
  rw [show (solverSelect (s.rsv.slots.map staleSlot))[j]? = some _ from List.getElem?_eq_getElem hj] at hat
  obtain hsame | ⟨a, -, -, hsolving⟩ := hat
  · rw [List.getElem?_map] at hsame
    obtain ⟨a, -, ha⟩ := Option.map_eq_some_iff.mp hsame.symm
    exact ha ▸ (staleSlot_fields a).2.2.2.2
  · rw [Option.some.inj hsolving]
    exact fun h => nomatch h

theorem map_of_content {α : Type} {a b : List Slot} (h : a.map slotContent = b.map slotContent)
    (f : Pair × List Claimant × Option RouteVec × Word32 → α) :
    a.map (fun sl => f (slotContent sl)) = b.map (fun sl => f (slotContent sl)) := by
  have hf := congrArg (List.map f) h
  rwa [List.map_map, List.map_map] at hf

theorem mem_vectorPairs {slots : List Slot} {p : Pair} :
    p ∈ vectorPairs slots ↔ ∃ sl ∈ slots, sl.vector ≠ none ∧ sl.pair = p := by
  simp only [vectorPairs, List.mem_filterMap, Option.ite_none_right_eq_some, Option.some.injEq, Option.isSome_iff_ne_none]

theorem vectorPairs_of_content {a b : List Slot} (h : a.map slotContent = b.map slotContent) : vectorPairs a = vectorPairs b := by
  have key : ∀ l : List Slot, vectorPairs l
      = (l.map slotContent).filterMap fun c => if c.2.2.1.isSome then some c.1 else none := fun l => by
    rw [List.filterMap_map]
    rfl
  rw [key, key, h]

/-- Toward a pair that no slot holds a vector for, the arrow is pending, whatever the graph (R40). -/
theorem arrowFor_no_vector {m : SmsState} {slots : List Slot} {st : StationRec} {p : Pair} (h : p ∉ vectorPairs slots) :
    arrowFor m slots st p = plainArrow .pending := by
  refine arrowFor_pending fun sl hsl => ?_
  have hfound := List.find?_some hsl
  simp only [Bool.and_eq_true, decide_eq_true_eq] at hfound
  by_contra hv
  exact h (mem_vectorPairs.mpr ⟨sl, List.mem_of_find?_eq_some hsl, hv, hfound.2⟩)

/-! ## The live words (R16, R17, R28) -/

theorem deliverClosure_same {w : Word64} {s : State} (h : w = s.sms.closure) : deliverClosure w s = s := by
  unfold deliverClosure
  simp only [if_pos h]

theorem deliverClosure_moved {w : Word64} {s : State} (h : w ≠ s.sms.closure) :
    deliverClosure w s = graphMoved { s with sms := { s.sms with closure := w } } := by
  unfold deliverClosure
  simp only [if_neg h]
  rfl

theorem deliverExterior_same {b : Bool} {s : State} (h : b = s.sms.exterior) : deliverExterior b s = s := by
  unfold deliverExterior
  simp only [if_pos h]

theorem deliverExterior_moved {b : Bool} {s : State} (h : b ≠ s.sms.exterior) :
    deliverExterior b s = graphMoved { s with sms := { s.sms with exterior := b } } := by
  unfold deliverExterior
  simp only [if_neg h]
  rfl

/-- The state that both live words have been delivered to, before the read that follows (R17). -/
def liveDelivered (bs : List Byte) (s : State) : State := deliverExterior (exteriorFlag bs) (deliverClosure (closureWord bs) s)

theorem liveTaken_eq (bs : List Byte) (s : State) :
    liveTaken bs s = { liveDelivered bs s with xu := readAcks (liveDelivered bs s).xu } := rfl

theorem adds_liveDelivered (bs : List Byte) (s : State) : Adds s.xu (liveDelivered bs s).xu :=
  adds_deliverExterior (adds_deliverClosure (Adds.refl s.xu) _) _

/-- The four ways the live words can compare with those held (R17). -/
theorem liveDelivered_cases (bs : List Byte) (s : State) :
    closureWord bs = s.sms.closure ∧ exteriorFlag bs = s.sms.exterior ∧ liveDelivered bs s = s
      ∨ closureWord bs ≠ s.sms.closure ∧ exteriorFlag bs = s.sms.exterior
        ∧ liveDelivered bs s = graphMoved { s with sms := { s.sms with closure := closureWord bs } }
      ∨ closureWord bs = s.sms.closure ∧ exteriorFlag bs ≠ s.sms.exterior
        ∧ liveDelivered bs s = graphMoved { s with sms := { s.sms with exterior := exteriorFlag bs } }
      ∨ closureWord bs ≠ s.sms.closure ∧ exteriorFlag bs ≠ s.sms.exterior
        ∧ ∃ u, u = graphMoved { s with sms := { s.sms with closure := closureWord bs } }
          ∧ liveDelivered bs s = graphMoved { u with sms := { u.sms with exterior := exteriorFlag bs } } := by
  unfold liveDelivered
  by_cases hc : closureWord bs = s.sms.closure
  · rw [deliverClosure_same hc]
    by_cases he : exteriorFlag bs = s.sms.exterior
    · exact .inl ⟨hc, he, deliverExterior_same he⟩
    · exact .inr (.inr (.inl ⟨hc, he, deliverExterior_moved he⟩))
  · rw [deliverClosure_moved hc]
    by_cases he : exteriorFlag bs = s.sms.exterior
    · exact .inr (.inl ⟨hc, he, deliverExterior_same he⟩)
    · exact .inr (.inr (.inr ⟨hc, he, _, rfl, deliverExterior_moved he⟩))

/-- The epoch and the live words after both were delivered (R16, R17). -/
theorem liveDelivered_sms (bs : List Byte) (s : State) :
    (liveDelivered bs s).sms = { s.sms with
      closure := closureWord bs, exterior := exteriorFlag bs
      epoch := s.sms.epoch + (if closureWord bs = s.sms.closure then 0 else 1)
        + (if exteriorFlag bs = s.sms.exterior then 0 else 1) } := by
  obtain ⟨hc, he, e⟩ | ⟨hc, he, e⟩ | ⟨hc, he, e⟩ | ⟨hc, he, u, rfl, e⟩ := liveDelivered_cases bs s <;> rw [e]
  · simp only [hc, he, if_true, add_zero]
  · simp only [hc, he, if_true, if_false, add_zero]
    rfl
  · simp only [hc, he, if_true, if_false, add_zero]
    rfl
  · rw [if_neg hc, if_neg he]
    rfl

theorem liveDelivered_content (bs : List Byte) (s : State) :
    (liveDelivered bs s).rsv.slots.map slotContent = s.rsv.slots.map slotContent := by
  obtain ⟨-, -, e⟩ | ⟨-, -, e⟩ | ⟨-, -, e⟩ | ⟨-, -, u, rfl, e⟩ := liveDelivered_cases bs s <;> rw [e]
  · exact raiseEpoch_content _
  · exact raiseEpoch_content _
  · exact (raiseEpoch_content _).trans (raiseEpoch_content _)

theorem liveDelivered_not_ready {bs : List Byte} {s : State} (h : closureWord bs ≠ s.sms.closure ∨ exteriorFlag bs ≠ s.sms.exterior) :
    ∀ sl ∈ (liveDelivered bs s).rsv.slots, sl.state ≠ .ready := by
  obtain ⟨hc, he, -⟩ | ⟨-, -, e⟩ | ⟨-, -, e⟩ | ⟨-, -, u, -, e⟩ := liveDelivered_cases bs s
  · exact absurd h (by simp [hc, he])
  all_goals rw [e]; exact raiseEpoch_not_ready _

/-! ## The pages after the live words (R28, R94) -/

theorem mem_drawnFrom_vector {s : State} {x : Nat} {st : StationRec} (hst : tblGet s.sms.stations x = some st)
    (h : DrawsVector s x) : x ∈ drawnFrom s (vectorPairs s.rsv.slots) := by
  obtain ⟨sl, hsl, hv, hdraw⟩ := h
  exact mem_drawnFrom hst (mem_vectorPairs.mpr ⟨sl, hsl, hv, rfl⟩) hdraw

theorem pageShown_graphMoved {s : State} {x : Nat} {st : StationRec} (hst : tblGet s.sms.stations x = some st)
    (h : DrawsVector s x) : PageShown (graphMoved s) x :=
  pageShown_marked (s := raiseEpoch s) (mem_drawnFrom_vector hst h)

/-- A page that a rise of the epoch composed stands at a second rise, or is composed again (R28). -/
theorem pageShown_graphMoved_twice {s : State} {b : Bool} {x : Nat} {st : StationRec}
    (hst : tblGet s.sms.stations x = some st) (h : DrawsVector s x) :
    PageShown (graphMoved { graphMoved s with sms := { (graphMoved s).sms with exterior := b } }) x := by
  have hcontent : vectorPairs (raiseEpoch { graphMoved s with sms := { (graphMoved s).sms with exterior := b } }).rsv.slots
      = vectorPairs (graphMoved s).rsv.slots := vectorPairs_of_content (raiseEpoch_content _)
  have hrec : pageRec (graphMoved s).pco x = takeCandidate (candidate (graphMoved s) x st) (pageRec s.pco x) :=
    (composeMarked_pageRec_marked (s := raiseEpoch s) hst (mem_drawnFrom_vector hst h)).trans
      (by rw [← candidate_composeMarked]; rfl)
  by_cases hdrawn : DrawsVector { graphMoved s with sms := { (graphMoved s).sms with exterior := b } } x
  · exact pageShown_graphMoved (s := { graphMoved s with sms := { (graphMoved s).sms with exterior := b } }) hst hdrawn
  · have hno : ∀ p ∈ (candidate (graphMoved s) x st).draws, p ∉ vectorPairs (graphMoved s).rsv.slots := fun p hp hv => by
      obtain ⟨sl, hsl, hvec, rfl⟩ := mem_vectorPairs.mp hv
      exact hdrawn ⟨sl, hsl, hvec, by rw [show pageRec _ x = _ from hrec]; exact hp⟩
    have harrows : SameArrows (graphMoved s).sms
        (raiseEpoch { graphMoved s with sms := { (graphMoved s).sms with exterior := b } }).sms (graphMoved s).rsv.slots
        (raiseEpoch { graphMoved s with sms := { (graphMoved s).sms with exterior := b } }).rsv.slots st
        (candidate (graphMoved s) x st).draws := fun p hp => by
      rw [arrowFor_no_vector (hno p hp), arrowFor_no_vector (by rw [hcontent]; exact hno p hp)]
    have hshown : PageShown (raiseEpoch { graphMoved s with sms := { (graphMoved s).sms with exterior := b } }) x := by
      intro st' hst'
      obtain rfl : st = st' := Option.some.inj (hst.symm.trans hst')
      have hcand := candidate_congr_arrows (s := graphMoved s)
        (t := raiseEpoch { graphMoved s with sms := { (graphMoved s).sms with exterior := b } }) rfl rfl rfl rfl harrows
      rw [hcand]
      exact congrArg PageRec.page hrec
    exact pageShown_composeMarked hshown _

theorem pageShown_liveDelivered {bs : List Byte} {s : State} {x : Nat} {st : StationRec}
    (hst : tblGet s.sms.stations x = some st) (h : DrawsVector s x)
    (hmoved : closureWord bs ≠ s.sms.closure ∨ exteriorFlag bs ≠ s.sms.exterior) : PageShown (liveDelivered bs s) x := by
  obtain ⟨hc, he, -⟩ | ⟨-, -, e⟩ | ⟨-, -, e⟩ | ⟨-, -, u, rfl, e⟩ := liveDelivered_cases bs s
  · exact absurd hmoved (by simp [hc, he])
  all_goals rw [e]
  · exact pageShown_graphMoved (s := { s with sms := { s.sms with closure := closureWord bs } }) hst h
  · exact pageShown_graphMoved (s := { s with sms := { s.sms with exterior := exteriorFlag bs } }) hst h
  · exact pageShown_graphMoved_twice (s := { s with sms := { s.sms with closure := closureWord bs } }) hst h

/-! ## The publish word (R160, R181) -/

theorem exec_publishWordRead {s : State} (hphase : s.phase = .operating) {left : Nat}
    (hsurvey : s.xu.survey = some (.publish true left)) (bs : List Byte) :
    exec (.publishWordRead bs) s = .next (flush { s with xu := publishTaken bs s.xu }) := by
  show execPublishWordRead bs s = _
  unfold execPublishWordRead
  rw [hsurvey]
  exact answer_takes _ hphase rfl

theorem exec_liveWordsRead {s : State} (hphase : s.phase = .operating) {left : Nat}
    (hsurvey : s.xu.survey = some (.live true left)) (bs : List Byte) :
    exec (.liveWordsRead bs) s = .next (flush (liveTaken bs s)) := by
  show execLiveWordsRead bs s = _
  unfold execLiveWordsRead
  rw [hsurvey]
  exact answer_takes _ hphase rfl

theorem u32_lt (bs : List Byte) (off : Nat) : u32 bs off < 2 ^ 32 := by
  have h := fun k => (byteAt bs k).isLt
  have h0 := h off
  have h1 := h (off + 1)
  have h2 := h (off + 2)
  have h3 := h (off + 2 + 1)
  simp only [u32, u16, u8]
  omega

theorem settled_lt_iff (bs : List Byte) (w : Word32) : w < BitVec.ofNat 32 (u32 bs 0) ↔ w.toNat < u32 bs 0 := by
  rw [BitVec.lt_def, BitVec.toNat_ofNat, Nat.mod_eq_of_lt (u32_lt bs 0)]

theorem takePublish_frame (bs : List Byte) (x : XuState) : { takePublish bs x with stage := x.stage } = x := by
  unfold takePublish
  dsimp only
  split
  · rfl
  · split <;> rfl

theorem takePublish_begins {bs : List Byte} {x : XuState} (hstage : x.stage = none) (hrun : x.runState ≠ .halting)
    (hnumber : x.settled.toNat < u32 bs 0) :
    (takePublish bs x).stage = some (newStaging (BitVec.ofNat 32 (u32 bs 0)) (u32 bs 4) x) := by
  unfold takePublish
  simp only [hstage, if_pos (And.intro ((settled_lt_iff bs _).mpr hnumber) hrun)]

theorem takePublish_kept {bs : List Byte} {x : XuState}
    (h : x.stage ≠ none ∨ x.runState = .halting ∨ u32 bs 0 ≤ x.settled.toNat) : (takePublish bs x).stage = x.stage := by
  unfold takePublish
  dsimp only
  split
  · rfl
  · rename_i hstage
    rw [if_neg]
    rintro ⟨hlt, hrun⟩
    have hnumber := (settled_lt_iff bs _).mp hlt
    obtain h | h | h := h
    · exact h hstage
    · exact hrun h
    · omega

/-! ## The settled obligation -/

theorem publishWord_leaves {bs : List Byte} {left : Nat} {s : State} (hphase : s.phase = .operating)
    (hsurvey : s.xu.survey = some (.publish true left)) :
    ∃ t, exec (.publishWordRead bs) s = .next t
        ∧ t.xu.survey = some (.live (inSpan s.xu.span 0x440 12) 1250000)
        ∧ (s.xu.stage = none → s.xu.runState ≠ .halting → s.xu.settled.toNat < u32 bs 0 →
            ∃ g, t.xu.stage = some g ∧ g.number = BitVec.ofNat 32 (u32 bs 0) ∧ g.noticeOffset = u32 bs 4
              ∧ g.base = s.xu.base ∧ g.span = s.xu.span ∧ g.phase = .header ∧ g.staged = [] ∧ g.clock = none)
        ∧ (s.xu.stage ≠ none ∨ s.xu.runState = .halting ∨ u32 bs 0 ≤ s.xu.settled.toNat → t.xu.stage = s.xu.stage)
        ∧ t.xu.applied = s.xu.applied ∧ t.xu.settled = s.xu.settled ∧ { t with xu := s.xu } = s := by
  have hframe := startReports_frame (reportFields { s with xu := publishTaken bs s.xu }) (publishTaken bs s.xu)
  have hpublish := takePublish_frame bs s.xu
  have hspan : (takePublish bs s.xu).span = s.xu.span := (congrArg XuState.span hpublish :)
  have hstage : (flush { s with xu := publishTaken bs s.xu }).xu.stage = (takePublish bs s.xu).stage :=
    (congrArg XuState.stage hframe :)
  refine ⟨_, exec_publishWordRead hphase hsurvey bs, ?_, fun hidle hrun hnumber => ?_, fun h => ?_, ?_, ?_, rfl⟩
  · have hkept := startReports_survey_of_ne_report (f := reportFields { s with xu := publishTaken bs s.xu })
      (x := publishTaken bs s.xu) (by simp [publishTaken, readLive])
    exact hkept.1.trans (by rw [← hspan]; rfl)
  · exact ⟨_, hstage.trans (takePublish_begins hidle hrun hnumber), rfl, rfl, rfl, rfl, rfl, rfl, rfl⟩
  · exact hstage.trans (takePublish_kept h)
  · exact (congrArg XuState.applied hframe :).trans (congrArg XuState.applied hpublish :)
  · exact (congrArg XuState.settled hframe :).trans (congrArg XuState.settled hpublish :)

theorem liveDelivered_frame (bs : List Byte) (s : State) :
    { liveDelivered bs s with sms := s.sms, rsv := s.rsv, pco := s.pco, xu := s.xu } = s := by
  obtain ⟨-, -, e⟩ | ⟨-, -, e⟩ | ⟨-, -, e⟩ | ⟨-, -, u, rfl, e⟩ := liveDelivered_cases bs s <;> rw [e] <;> rfl

theorem liveDelivered_pco (bs : List Byte) (s : State) : { (liveDelivered bs s).pco with pages := s.pco.pages } = s.pco := by
  obtain ⟨-, -, e⟩ | ⟨-, -, e⟩ | ⟨-, -, e⟩ | ⟨-, -, u, rfl, e⟩ := liveDelivered_cases bs s <;> rw [e] <;> rfl

theorem liveWords_leaves {bs : List Byte} {left : Nat} {s : State} (hphase : s.phase = .operating)
    (hsurvey : s.xu.survey = some (.live true left)) :
    ∃ t, exec (.liveWordsRead bs) s = .next t
        ∧ t.xu.survey = some (.acks (inSpan s.xu.span 0x1000 1984) 1250000)
        ∧ t.sms.closure = BitVec.ofNat 64 (u64 bs 0) &&& ~~~1#64 ∧ t.sms.exterior = (byteAt bs 8).getLsbD 0
        ∧ t.sms.epoch =
            s.sms.epoch + (if t.sms.closure = s.sms.closure then 0 else 1)
              + (if t.sms.exterior = s.sms.exterior then 0 else 1)
        ∧ t.rsv.slots.map Slot.vector = s.rsv.slots.map Slot.vector
        ∧ t.rsv.slots.map Slot.vectorEpoch = s.rsv.slots.map Slot.vectorEpoch
        ∧ t.rsv.slots.map Slot.holders = s.rsv.slots.map Slot.holders
        ∧ (t.sms.closure ≠ s.sms.closure ∨ t.sms.exterior ≠ s.sms.exterior → ∀ sl ∈ t.rsv.slots, sl.state ≠ .ready)
        ∧ (∀ x st, t.sms.epoch ≠ s.sms.epoch → tblGet s.sms.stations x = some st → DrawsVector s x →
            desiredPage t.pco x = some (candidate t x st).page)
        ∧ (t.sms.closure = s.sms.closure → t.sms.exterior = s.sms.exterior → t.rsv = s.rsv ∧ t.pco = s.pco)
        ∧ SameTables s t ∧ { t with sms := s.sms, rsv := s.rsv, pco := s.pco, xu := s.xu } = s := by
  have hadds := adds_liveDelivered bs s
  have hsms : (flush (liveTaken bs s)).sms = (liveDelivered bs s).sms := rfl
  have hrsv : (flush (liveTaken bs s)).rsv = (liveDelivered bs s).rsv := rfl
  have hpco : (flush (liveTaken bs s)).pco = (liveDelivered bs s).pco := rfl
  have hlive := liveDelivered_sms bs s
  have hclosure : (flush (liveTaken bs s)).sms.closure = closureWord bs := by rw [hsms, hlive]
  have hexterior : (flush (liveTaken bs s)).sms.exterior = exteriorFlag bs := by rw [hsms, hlive]
  have hepoch : (flush (liveTaken bs s)).sms.epoch = s.sms.epoch + (if closureWord bs = s.sms.closure then 0 else 1)
      + (if exteriorFlag bs = s.sms.exterior then 0 else 1) := by rw [hsms, hlive]
  have hcontent := liveDelivered_content bs s
  refine ⟨_, exec_liveWordsRead hphase hsurvey bs, ?_, hclosure, hexterior, by rw [hepoch, hclosure, hexterior], ?_, ?_, ?_,
    fun h => ?_, fun x st hmoved hst hdraw => ?_, fun hc he => ?_, ?_, ?_⟩
  · have hkept := startReports_survey_of_ne_report (f := reportFields (liveTaken bs s)) (x := (liveTaken bs s).xu)
      (by simp [liveTaken_eq, readAcks])
    have hspan : (liveDelivered bs s).xu.span = s.xu.span := (congrArg XuState.span hadds.frame :)
    exact hkept.1.trans (by rw [← hspan]; rfl)
  · exact map_of_content hcontent fun c => c.2.2.1
  · exact map_of_content hcontent fun c => c.2.2.2
  · exact map_of_content hcontent fun c => c.2.1
  · rw [hclosure, hexterior] at h
    exact liveDelivered_not_ready h
  · have hword : closureWord bs ≠ s.sms.closure ∨ exteriorFlag bs ≠ s.sms.exterior := by
      by_contra hnone
      obtain ⟨hc, he⟩ := not_or.mp hnone
      rw [hepoch, if_pos (not_not.mp hc), if_pos (not_not.mp he), add_zero, add_zero] at hmoved
      exact hmoved rfl
    have hshown : PageShown (flush (liveTaken bs s)) x :=
      pageShown_of_same (pageShown_liveDelivered hst hdraw hword) rfl rfl rfl rfl rfl
    exact hshown st (by rw [hsms, hlive]; exact hst)
  · rw [hclosure] at hc
    rw [hexterior] at he
    rw [hrsv, hpco, liveDelivered, deliverClosure_same hc, deliverExterior_same he]
    exact ⟨rfl, rfl⟩
  · refine ⟨?_, ?_⟩
    · have hpgu : (flush (liveTaken bs s)).pgu = s.pgu := (congrArg State.pgu (liveDelivered_frame bs s) :)
      have hpages := liveDelivered_pco bs s
      have hrotations : (liveDelivered bs s).pco.rotations = s.pco.rotations := (congrArg PcoState.rotations hpages :)
      have hnotices : (liveDelivered bs s).pco.notices = s.pco.notices := (congrArg PcoState.notices hpages :)
      have hinterj : (liveDelivered bs s).pco.interjections = s.pco.interjections :=
        (congrArg PcoState.interjections hpages :)
      unfold tablesOf
      rw [hsms, hpgu, hpco, hrotations, hnotices, hinterj, hlive]
    · exact (congrArg XuState.applied (startReports_frame _ _) :).trans (congrArg XuState.applied hadds.frame :)
  · exact liveDelivered_frame bs s

/-- Settles O38. A second rise of the epoch in one command leaves a page that draws from no vector, whose arrows are pending
on either graph (`pageShown_graphMoved_twice`). -/
theorem surveyWordsRead : Obligations.SurveyWordsRead :=
  ⟨fun _ _ _ => publishWord_leaves, fun _ _ _ => liveWords_leaves⟩

end Sys2Proof.Machine

/-! PROOFS. What the notices of an event leave (R50, R62, R83, R92, R95): composition records alone, and the pages that a
moved source calls for. The order of the waiting list (R32). -/

namespace Sys2Proof.Machine

open Sys2Proof.Safety

/-! ## Notices move composition records alone -/

/-- From `s` to `t` nothing moved but composition records and the Exchange Unit. -/
structure PagesOnly (s t : State) : Prop where
  blocks : { t with pco := s.pco, xu := s.xu } = s
  tables : { t.pco with pages := s.pco.pages } = s.pco

theorem PagesOnly.refl (s : State) : PagesOnly s s := ⟨rfl, rfl⟩

theorem PagesOnly.trans {s t u : State} (h : PagesOnly s t) (k : PagesOnly t u) : PagesOnly s u := by
  obtain ⟨hb, ht⟩ := h
  obtain ⟨kb, kt⟩ := k
  refine ⟨?_, ?_⟩
  · exact (congrArg (fun v : State => { v with pco := s.pco, xu := s.xu }) kb).trans hb
  · exact (congrArg (fun v : PcoState => { v with pages := s.pco.pages }) kt).trans ht

theorem pagesOnly_composeMarked (m : List Nat) (s : State) : PagesOnly s (composeMarked m s) := ⟨rfl, rfl⟩

theorem pagesOnly_composeEach {α : Type} (l : List α) (f : State → α → List Nat) (s : State) :
    PagesOnly s (l.foldl (fun t y => composeMarked (f t y) t) s) := by
  induction l generalizing s with
  | nil => exact PagesOnly.refl s
  | cons y rest ih => exact (pagesOnly_composeMarked (f s y) s).trans (ih _)

theorem pagesOnly_timeNotice (g : PguState) (s : State) : PagesOnly s (timeNotice g s) := by
  rw [timeNotice_eq]
  split
  · exact pagesOnly_composeMarked _ s
  · exact PagesOnly.refl s

theorem pagesOnly_listNotices (g : PguState) (anew : List Nat) (s : State) : PagesOnly s (listNotices g anew s) := by
  rw [listNotices_eq]
  exact pagesOnly_composeEach _ _ s

theorem pagesOnly_mapNotices (c : MscState) (s : State) : PagesOnly s (mapNotices c s) := by
  rw [mapNotices_eq]
  exact pagesOnly_composeEach _ (fun _ y => [y]) s

section PagesOnlyFields

variable {s t : State} (h : PagesOnly s t)

include h

theorem PagesOnly.clk : t.clk = s.clk := (congrArg State.clk h.blocks :)
theorem PagesOnly.sms : t.sms = s.sms := (congrArg State.sms h.blocks :)
theorem PagesOnly.rsv : t.rsv = s.rsv := (congrArg State.rsv h.blocks :)
theorem PagesOnly.pgu : t.pgu = s.pgu := (congrArg State.pgu h.blocks :)
theorem PagesOnly.msc : t.msc = s.msc := (congrArg State.msc h.blocks :)
theorem PagesOnly.lcs : t.lcs = s.lcs := (congrArg State.lcs h.blocks :)
theorem PagesOnly.rots : t.pco.rots = s.pco.rots := (congrArg PcoState.rots h.tables :)
theorem PagesOnly.active : t.pco.active = s.pco.active := (congrArg PcoState.active h.tables :)
theorem PagesOnly.rotations : t.pco.rotations = s.pco.rotations := (congrArg PcoState.rotations h.tables :)
theorem PagesOnly.notices : t.pco.notices = s.pco.notices := (congrArg PcoState.notices h.tables :)
theorem PagesOnly.interjections : t.pco.interjections = s.pco.interjections := (congrArg PcoState.interjections h.tables :)

theorem PagesOnly.candidate (x : Nat) (st : StationRec) : Machine.candidate t x st = Machine.candidate s x st :=
  candidate_congr h.sms h.rsv h.pgu h.msc h.tables x st

end PagesOnlyFields

/-! ## A page is the one called for, or the one that stood -/

/-- After notices that began at `s`, station `x` shows the page that the part calls for, or none of them marked it. -/
def ShownOrKept (s : State) (x : Nat) (t : State) : Prop := PageShown t x ∨ pageRec t.pco x = pageRec s.pco x

theorem shownOrKept_refl (s : State) (x : Nat) : ShownOrKept s x s := .inr rfl

theorem shownOrKept_composeMarked {s t : State} {x : Nat} (h : ShownOrKept s x t) (m : List Nat) :
    ShownOrKept s x (composeMarked m t) := by
  obtain hshown | hkept := h
  · exact .inl (pageShown_composeMarked hshown m)
  · by_cases hx : x ∈ m
    · exact .inl (pageShown_marked hx)
    · exact .inr ((composeMarked_pageRec_unmarked t hx).trans hkept)

theorem shownOrKept_composeEach {α : Type} {s t : State} {x : Nat} (h : ShownOrKept s x t) (l : List α)
    (f : State → α → List Nat) : ShownOrKept s x (l.foldl (fun u y => composeMarked (f u y) u) t) := by
  induction l generalizing t with
  | nil => exact h
  | cons y rest ih => exact ih (shownOrKept_composeMarked h _)

theorem shownOrKept_timeNotice {s t : State} {x : Nat} (h : ShownOrKept s x t) (g : PguState) :
    ShownOrKept s x (timeNotice g t) := by
  rw [timeNotice_eq]
  split
  · exact shownOrKept_composeMarked h _
  · exact h

theorem shownOrKept_mapNotices {s t : State} {x : Nat} (h : ShownOrKept s x t) (c : MscState) :
    ShownOrKept s x (mapNotices c t) := by
  rw [mapNotices_eq]
  exact shownOrKept_composeEach h _ fun _ y => [y]

theorem pageShown_timeNotice {s : State} {x : Nat} (h : PageShown s x) (g : PguState) : PageShown (timeNotice g s) x := by
  rw [timeNotice_eq]
  split
  · exact pageShown_composeMarked h _
  · exact h

theorem pageShown_listNotices {s : State} {x : Nat} (h : PageShown s x) (g : PguState) (anew : List Nat) :
    PageShown (listNotices g anew s) x := by
  rw [listNotices_eq]
  exact pageShown_composeEach h _ _

/-- The TIME notice composes a page that shows the ship time, where none of the notices before has (R50, R94). -/
theorem pageShown_timeNotice_moved {s t : State} {x : Nat} {st : StationRec} (hst : tblGet t.sms.stations x = some st)
    (h : ShownOrKept s x t) (hsource : Source.time ∈ (pageRec s.pco x).sources) {g : PguState} (hmoved : g.lastTime ≠ t.pgu.lastTime) :
    PageShown (timeNotice g t) x := by
  rw [timeNotice_eq, timeChanged, if_pos (decide_eq_true hmoved)]
  obtain hshown | hkept := h
  · exact pageShown_composeMarked hshown _
  · refine pageShown_marked (List.mem_filter.mpr ⟨mem_keys_of_get hst, ?_⟩)
    rw [hkept]
    exact List.contains_iff_mem.mpr hsource

/-- The LIST notice composes a page that shows the station's list, where none of the notices before has (R62, R94). -/
theorem pageShown_listNotices_moved {s t : State} {x : Nat} (h : ShownOrKept s x t)
    (hsource : Source.list ∈ (pageRec s.pco x).sources) {g : PguState} {anew : List Nat}
    (hmoved : x ∈ changedLists g t.pgu anew) : PageShown (listNotices g anew t) x := by
  rw [listNotices_eq]
  generalize changedLists g t.pgu anew = l at hmoved
  induction l generalizing t with
  | nil => cases hmoved
  | cons y rest ih =>
    rw [List.foldl_cons]
    obtain rfl | hrest := List.mem_cons.mp hmoved
    · refine pageShown_composeEach ?_ rest _
      obtain hshown | hkept := h
      · exact pageShown_composeMarked hshown _
      · refine pageShown_marked (List.mem_filter.mpr ⟨List.mem_singleton_self _, ?_⟩)
        rw [hkept]
        exact List.contains_iff_mem.mpr hsource
    · exact ih (shownOrKept_composeMarked h _) hrest

theorem mem_changedLists {g h : PguState} {x : Nat} (hsome : tblGet h.lists x ≠ none) (hmoved : tblGet g.lists x ≠ tblGet h.lists x)
    (anew : List Nat) : x ∈ changedLists g h anew := by
  obtain ⟨l, hl⟩ := Option.ne_none_iff_exists'.mp hsome
  exact List.mem_filter.mpr ⟨mem_keys_of_get hl, by rw [decide_eq_true hmoved, Bool.true_or]⟩

/-- The TIME and LIST notices leave CLAIM_WAIT and every count but UNLISTED_EXIT (R92, R98). -/
theorem otherCounts_timeNotice (g : PguState) (s : State) : otherCounts (timeNotice g s).xu = otherCounts s.xu := by
  rw [timeNotice_eq]
  split
  · exact otherCounts_composeMarked _ s
  · rfl

theorem otherCounts_listNotices (g : PguState) (anew : List Nat) (s : State) :
    otherCounts (listNotices g anew s).xu = otherCounts s.xu := by
  rw [listNotices_eq]
  exact otherCounts_composeEach _ _ s

/-! ## A sorted table filtered -/

theorem tblGet_filter {α : Type} {t : Tbl α} (h : tblSorted t = true) (p : Nat × α → Bool) (k : Nat) :
    tblGet (t.filter p) k = (tblGet t k).filter fun a => p (k, a) := by
  induction t with
  | nil => rfl
  | cons e rest ih =>
    obtain ⟨i, a⟩ := e
    obtain ⟨hfirst, hrest⟩ := (sorted_cons (i, a) rest).mp h
    have ih := ih hrest
    by_cases hik : i = k
    · subst hik
      have hnone : tblGet rest i = none := by
        cases hget : tblGet rest i with
        | none => rfl
        | some b => exact absurd (hfirst i (mem_keys_of_get hget)) (Nat.lt_irrefl i)
      by_cases hp : p (i, a) = true
      · rw [List.filter_cons_of_pos hp]
        simp only [tblGet, if_true, Option.filter, hp]
      · rw [List.filter_cons_of_neg hp, ih, hnone]
        simp only [tblGet, if_true, Option.filter, if_neg hp]
    · by_cases hp : p (i, a) = true
      · rw [List.filter_cons_of_pos hp]
        simp only [tblGet, if_neg hik, ih]
      · rw [List.filter_cons_of_neg hp, ih]
        simp only [tblGet, if_neg hik]

theorem sorted_keys_filter {α : Type} {t : Tbl α} (h : tblSorted t = true) (p : Nat × α → Bool) :
    ((t.filter p).map Prod.fst).Pairwise (· < ·) :=
  List.pairwise_map.mpr ((ascending_of_sorted h).filter p)

/-! ## The order of the waiting list (R32) -/

theorem serveClaims_sublist (claims : List Claim) (slots : List Slot) : (serveClaims claims slots).2.Sublist claims := by
  induction claims generalizing slots with
  | nil => exact List.Sublist.refl _
  | cons c rest ih =>
    unfold serveClaims
    split
    · exact (ih _).cons c
    · split
      · exact (ih _).cons c
      · exact (ih _).cons_cons c

theorem claimRsv_waiting_sublist (desired : List Claim) (r : RsvState) : (claimRsv desired r).waiting.Sublist desired :=
  (serveClaims_sublist _ _).trans List.filter_sublist

/-- One claimant stands before another in the waiting list (R32). -/
def ClaimOrder (programme : Tbl ProgRec) (a b : Claim) : Prop := ClaimBefore programme a.who b.who

section Order

variable {programme : Tbl ProgRec}

theorem landmarkClaims_who {m : SmsState} {c : Claim} (h : c ∈ landmarkClaims m) : ∃ i, c.who = .landmark i := by
  obtain ⟨e, -, he⟩ := List.mem_filterMap.mp h
  obtain ⟨-, he⟩ := Option.ite_none_right_eq_some.mp he
  exact ⟨e.1, by rw [← Option.some.inj he]⟩

theorem landmarkClaims_ordered {m : SmsState} (h : tblSorted m.landmarks = true) :
    (landmarkClaims m).Pairwise (ClaimOrder programme) := by
  refine List.Pairwise.filterMap _ (fun a b hab c hc d hd => ?_) (ascending_of_sorted h)
  obtain ⟨-, hc⟩ := Option.ite_none_right_eq_some.mp hc
  obtain ⟨-, hd⟩ := Option.ite_none_right_eq_some.mp hd
  rw [← Option.some.inj hc, ← Option.some.inj hd]
  exact hab

theorem musterClaims_ordered {m : SmsState} (h : tblSorted m.musters = true) :
    (musterClaims m).Pairwise (ClaimOrder programme) := by
  refine List.Pairwise.filterMap _ (fun a b hab c hc d hd => ?_) (ascending_of_sorted h)
  obtain ⟨-, hc⟩ := Option.ite_none_right_eq_some.mp hc
  obtain ⟨-, hd⟩ := Option.ite_none_right_eq_some.mp hd
  rw [← Option.some.inj hc, ← Option.some.inj hd]
  exact hab

theorem programmeClaim_who {g : PguState} {i : Nat} {c : Claim} (h : programmeClaim g i = some c) : c.who = .programme i := by
  unfold programmeClaim at h
  split at h
  · obtain ⟨-, h⟩ := Option.ite_none_right_eq_some.mp h
    obtain ⟨v, -, rfl⟩ := Option.map_eq_some_iff.mp h
    rfl
  · cases h

theorem programmeClaims_ordered {g : PguState} (h : tblSorted g.programme = true) (hview : g.view = orderedView g.programme) :
    (programmeClaims g).Pairwise (ClaimOrder g.programme) := by
  unfold programmeClaims
  rw [hview]
  refine List.Pairwise.filterMap _ (fun i j hij c hc d hd => ?_) (orderedView_ordered h)
  rw [ClaimOrder, programmeClaim_who hc, programmeClaim_who hd]
  exact hij

/-- The claim of an active interjection (R116). -/
def interjClaim (p : PcoState) (i : Nat) : Option Claim :=
  match tblGet p.interjections i with
  | none => none
  | some j =>
    match tblGet p.notices j.notice with
    | none => none
    | some n => n.dest.map fun d => { who := .interjection i, pair := { node := d, regime := .normal } }

theorem interjClaims_eq (p : PcoState) : interjClaims p = p.active.filterMap (interjClaim p) := rfl

theorem interjClaim_who {p : PcoState} {i : Nat} {c : Claim} (h : interjClaim p i = some c) : c.who = .interjection i := by
  unfold interjClaim at h
  split at h
  · cases h
  · split at h
    · cases h
    · obtain ⟨d, -, rfl⟩ := Option.map_eq_some_iff.mp h
      rfl

theorem interjClaims_ordered {p : PcoState} (h : p.active.Pairwise (· < ·)) : (interjClaims p).Pairwise (ClaimOrder programme) := by
  rw [interjClaims_eq]
  refine List.Pairwise.filterMap _ (fun i j hij c hc d hd => ?_) h
  rw [ClaimOrder, interjClaim_who hc, interjClaim_who hd]
  exact hij

/-- The claims whose condition holds stand in the order of the waiting list (R29, R32). -/
theorem desiredClaims_ordered {s : State} (hcanon : TablesCanonical s) (hview : s.pgu.view = orderedView s.pgu.programme)
    (hactive : s.pco.active.Pairwise (· < ·)) : (desiredClaims s).Pairwise (ClaimOrder s.pgu.programme) := by
  obtain ⟨-, -, -, hmusters, hlandmarks, hprogramme, -⟩ := hcanon
  unfold desiredClaims
  split
  · refine List.pairwise_append.mpr ⟨List.pairwise_append.mpr ⟨landmarkClaims_ordered hlandmarks,
      programmeClaims_ordered hprogramme hview, fun a ha b hb => ?_⟩, interjClaims_ordered hactive, fun a ha b hb => ?_⟩
    · obtain ⟨k, hk⟩ := landmarkClaims_who ha
      obtain ⟨i, -, hi⟩ := List.mem_filterMap.mp hb
      rw [ClaimOrder, programmeClaim_who hi, hk]
      trivial
    · rw [interjClaims_eq] at hb
      obtain ⟨j, -, hj⟩ := List.mem_filterMap.mp hb
      rw [ClaimOrder, interjClaim_who hj]
      obtain ha | ha := List.mem_append.mp ha
      · obtain ⟨k, hk⟩ := landmarkClaims_who ha
        rw [hk]
        trivial
      · obtain ⟨i, -, hi⟩ := List.mem_filterMap.mp ha
        rw [programmeClaim_who hi]
        trivial
  · exact musterClaims_ordered hmusters

end Order

end Sys2Proof.Machine

/-! PROOFS. A minute event (R45, R48 to R54, R116 to R121): the evaluation, the interjections, the claims and the notices. -/

namespace Sys2Proof.Machine

open Sys2Proof.Safety

/-! ## The offset (R48) -/

section Offset

variable {now : Nat}

/-- `best` is the latest of the clock changes seen that apply by now (R48). -/
def LatestOf (now : Nat) (seen : Tbl ClockRec) : Option ClockRec → Prop
  | none => ∀ i c, (i, c) ∈ seen → now < c.atMinute
  | some b => (∃ i, (i, b) ∈ seen) ∧ b.atMinute ≤ now ∧ ∀ i c, (i, c) ∈ seen → c.atMinute ≤ now → c.atMinute ≤ b.atMinute

theorem latestOf_step {seen : Tbl ClockRec} {best : Option ClockRec} (h : LatestOf now seen best) (e : Nat × ClockRec) :
    LatestOf now (seen ++ [e]) (laterClock now best e) := by
  obtain ⟨k, d⟩ := e
  have hcases : ∀ {i : Nat} {c : ClockRec}, (i, c) ∈ seen ++ [(k, d)] → (i, c) ∈ seen ∨ c = d := fun hic => by
    obtain hs | hd := List.mem_append.mp hic
    · exact .inl hs
    · exact .inr (congrArg Prod.snd (List.mem_singleton.mp hd))
  have hlast : (k, d) ∈ seen ++ [(k, d)] := List.mem_append_right _ (List.mem_singleton_self _)
  unfold laterClock
  cases best with
  | none =>
    split
    · rename_i happlies
      refine ⟨⟨k, hlast⟩, happlies, fun i c hic hc => ?_⟩
      obtain hs | rfl := hcases hic
      · exact absurd hc (Nat.not_le.mpr (h i c hs))
      · exact Nat.le_refl _
    · rename_i hlater
      intro i c hic
      obtain hs | rfl := hcases hic
      · exact h i c hs
      · exact Nat.not_le.mp hlater
  | some b =>
    obtain ⟨⟨j, hj⟩, hb, hmax⟩ := h
    have hbIn : ∃ i, (i, b) ∈ seen ++ [(k, d)] := ⟨j, List.mem_append_left _ hj⟩
    split
    · rename_i happlies
      dsimp only
      split
      · rename_i hbefore
        refine ⟨⟨k, hlast⟩, happlies, fun i c hic hc => ?_⟩
        obtain hs | rfl := hcases hic
        · exact Nat.le_of_lt (Nat.lt_of_le_of_lt (hmax i c hs hc) hbefore)
        · exact Nat.le_refl _
      · rename_i hnot
        refine ⟨hbIn, hb, fun i c hic hc => ?_⟩
        obtain hs | rfl := hcases hic
        · exact hmax i c hs hc
        · exact Nat.not_lt.mp hnot
    · rename_i hlater
      refine ⟨hbIn, hb, fun i c hic hc => ?_⟩
      obtain hs | rfl := hcases hic
      · exact hmax i c hs hc
      · exact absurd hc hlater

theorem latestOf_fold {rest seen : Tbl ClockRec} {best : Option ClockRec} (h : LatestOf now seen best) :
    LatestOf now (seen ++ rest) (rest.foldl (laterClock now) best) := by
  induction rest generalizing seen best with
  | nil => rwa [List.append_nil]
  | cons e rest ih =>
    rw [List.foldl_cons, List.append_cons]
    exact ih (latestOf_step h e)

theorem latestOf_all (changes : Tbl ClockRec) : LatestOf now changes (changes.foldl (laterClock now) none) := by
  have h := latestOf_fold (now := now) (rest := changes) (seen := []) (best := none) fun _ _ h => nomatch h
  rwa [List.nil_append] at h

theorem evalOffset_latest {changes : Tbl ClockRec} (hsorted : tblSorted changes = true) (initial : Int) {i : Nat} {c : ClockRec}
    (hi : tblGet changes i = some c) (hc : c.atMinute ≤ now)
    (hlast : ∀ j d, j ≠ i → tblGet changes j = some d → d.atMinute ≤ now → d.atMinute < c.atMinute) :
    evalOffset changes initial now = c.newOffset := by
  have hall := latestOf_all (now := now) changes
  unfold evalOffset
  cases hbest : changes.foldl (laterClock now) none with
  | none =>
    rw [hbest] at hall
    exact absurd hc (Nat.not_le.mpr (hall i c (get_mem hi)))
  | some b =>
    rw [hbest] at hall
    obtain ⟨⟨j, hj⟩, hb, hmax⟩ := hall
    have hjb := tblGet_of_mem hsorted hj
    by_cases hji : j = i
    · subst hji
      rw [Option.some.inj (hi.symm.trans hjb)]
    · exact absurd (hlast j b hji hjb hb) (Nat.not_lt.mpr (hmax i c (get_mem hi) hc))

theorem evalOffset_initial {changes : Tbl ClockRec} {initial : Int}
    (hnone : ∀ i c, (i, c) ∈ changes → now < c.atMinute) : evalOffset changes initial now = initial := by
  have hall := latestOf_all (now := now) changes
  unfold evalOffset
  cases hbest : changes.foldl (laterClock now) none with
  | none => rfl
  | some b =>
    rw [hbest] at hall
    obtain ⟨⟨j, hj⟩, hb, -⟩ := hall
    exact absurd hb (Nat.not_le.mpr (hnone j b hj))

end Offset

/-! ## The evaluation (R52 to R54, R58) -/

section Evaluation

variable (m : SmsState) (now : Nat) (g : PguState)

theorem evalPgu_offset_retained (h : g.retained = true) : (evalPgu m now g).offset = g.offset := if_pos h

theorem evalPgu_offset_evaluated (h : g.retained = false) :
    (evalPgu m now g).offset = evalOffset g.clockChanges m.settings.initialOffset now :=
  if_neg (by rw [h]; exact Bool.false_ne_true)

theorem evalPgu_states {i : Nat} {e : ProgRec} (h : tblGet g.programme i = some e) :
    tblGet (evalPgu m now g).states i = some (entryState m.settings.lead m.settings.linger now e) := by
  simp only [evalPgu, tblGet_map, h, Option.map_some]

theorem evalPgu_lists {m : SmsState} (hsorted : tblSorted m.stations = true) {x : Nat} {st : StationRec}
    (h : tblGet m.stations x = some st) :
    tblGet (evalPgu m now g).lists x = if st.kind = .cabin then none
      else some (screenList m.nodes g.programme (evalPgu m now g).states (evalPgu m now g).view (evalPgu m now g).offset now st) := by
  simp only [evalPgu, tblGet_map, tblGet_filter hsorted, h, Option.filter, hasList, decide_eq_true_eq, ne_eq, ite_not]
  by_cases hkind : st.kind = .cabin
  · rw [if_pos hkind, if_pos hkind]
    rfl
  · rw [if_neg hkind, if_neg hkind]
    rfl

end Evaluation

/-! ## Interjections at a minute event (R116 to R121) -/

section Interjections

variable {s : State} {st : StationRec} {r : RotState}

theorem mem_activeAt {t : Tbl InterjRec} {now i : Nat} :
    i ∈ activeAt t now ↔ ∃ j, (i, j) ∈ t ∧ j.start ≤ now ∧ now < j.stop := by
  simp only [activeAt, List.mem_map, List.mem_filter, Bool.and_eq_true, decide_eq_true_eq, Prod.exists, exists_and_right,
    exists_eq_right]

theorem mem_activeAt_of_get {t : Tbl InterjRec} (h : tblSorted t = true) {now i : Nat} {j : InterjRec}
    (hj : tblGet t i = some j) : i ∈ activeAt t now ↔ j.start ≤ now ∧ now < j.stop := by
  rw [mem_activeAt]
  constructor
  · rintro ⟨k, hk, hwindow⟩
    rwa [Option.some.inj (hj.symm.trans (tblGet_of_mem h hk))]
  · exact fun hwindow => ⟨j, get_mem hj, hwindow⟩

theorem tagSelects_iff (j : InterjRec) (st : StationRec) :
    tagSelects j st = true ↔ st.kind ≠ .cabin ∧ st.tag &&& j.tagMask = j.tagValue &&& j.tagMask := by
  simp only [tagSelects, Bool.and_eq_true, decide_eq_true_eq]

theorem periodDue_iff (j : InterjRec) (now : Nat) (last : Option Nat) :
    periodDue j now last = true ↔ 0 < j.period ∧ ∃ k, last = some k ∧ (k + j.period ≤ now ∨ now < k) := by
  cases last with
  | none => simp [periodDue]
  | some k => simp [periodDue]

/-! ### Activity taken at one screen, by the position it stands at (R117 to R119) -/

theorem showingEnds_elsewhere {t : Tbl InterjRec} {a : Activity} (h : ∀ i, r.position ≠ .interj i) :
    showingEnds t a st r = false := by
  unfold showingEnds
  split
  · rename_i i hi
    exact absurd hi (h i)
  · rfl

theorem leaveInterj_due (q : RotState) : (leaveInterj q).due = q.due := by
  unfold leaveInterj
  split <;> rfl

theorem defaultShow_boundary (t : Tbl InterjRec) (now : Nat) (q : RotState) :
    defaultShow t now (interjBoundary t now q) = interjBoundary t now q := by
  cases hdue : lowestDue q with
  | some i =>
    rw [interjBoundary_due t now hdue]
    exact defaultShow_elsewhere _ _ fun h => nomatch h
  | none =>
    rw [interjBoundary_none t now hdue]
    exact defaultShow_none _ _ (by rw [lowestDue, leaveInterj_due]; exact hdue)

theorem leaveInterj_frame (q : RotState) : (leaveInterj q).rotation = q.rotation ∧ (leaveInterj q).loops = q.loops := by
  unfold leaveInterj
  split <;> exact ⟨rfl, rfl⟩

theorem interjBoundary_frame (t : Tbl InterjRec) (now : Nat) (q : RotState) :
    (interjBoundary t now q).rotation = q.rotation ∧ (interjBoundary t now q).loops = q.loops := by
  unfold interjBoundary
  split
  · exact ⟨rfl, rfl⟩
  · exact leaveInterj_frame q

theorem defaultShow_frame (t : Tbl InterjRec) (now : Nat) (q : RotState) :
    (defaultShow t now q).rotation = q.rotation ∧ (defaultShow t now q).loops = q.loops := by
  unfold defaultShow
  split
  · split <;> exact ⟨rfl, rfl⟩
  · exact ⟨rfl, rfl⟩

/-- The rotation state of a screen with its due flags after an event (R117). -/
def dueTaken (t : Tbl InterjRec) (a : Activity) (now : Nat) (st : StationRec) (wasSelected : Nat → Bool) (r : RotState) :
    RotState :=
  { r with due := (List.range 16).map (dueAfter t a now st wasSelected r) }

section Taken

variable (t : Tbl InterjRec) (a : Activity) (now : Nat) (standby : Bool) {st : StationRec} (wasSelected : Nat → Bool)

theorem takeActivity_elsewhere (h : ∀ i, r.position ≠ .interj i) :
    takeActivity t a now standby st wasSelected r
      = if standby then defaultShow t now (dueTaken t a now st wasSelected r) else dueTaken t a now st wasSelected r := by
  rw [takeActivity, showingEnds_elsewhere h, if_neg Bool.false_ne_true]
  rfl

theorem takeActivity_at_step {n : Nat} (hpos : r.position = .step n) :
    takeActivity t a now standby st wasSelected r = dueTaken t a now st wasSelected r := by
  have hshow : defaultShow t now (dueTaken t a now st wasSelected r) = dueTaken t a now st wasSelected r :=
    defaultShow_elsewhere _ _ fun hd => nomatch (hpos.symm.trans hd : Position.step n = .default)
  have helse : ∀ i, r.position ≠ .interj i := fun i h => nomatch hpos.symm.trans h
  rw [takeActivity_elsewhere t a now standby wasSelected helse, hshow, ite_self]

theorem takeActivity_goes_on {i : Nat} (hpos : r.position = .interj i) (h : showingEnds t a st r = false) :
    takeActivity t a now standby st wasSelected r = dueTaken t a now st wasSelected r := by
  have hshow : defaultShow t now (dueTaken t a now st wasSelected r) = dueTaken t a now st wasSelected r :=
    defaultShow_elsewhere _ _ fun hd => nomatch (hpos.symm.trans hd : Position.interj i = .default)
  rw [takeActivity, h, if_neg Bool.false_ne_true]
  exact (congrArg (fun q => if standby then q else _) hshow).trans (ite_self _)

theorem takeActivity_ends (h : showingEnds t a st r = true) :
    takeActivity t a now standby st wasSelected r
      = if standby then interjBoundary t now (dueTaken t a now st wasSelected r)
        else leaveInterj (dueTaken t a now st wasSelected r) := by
  rw [takeActivity, if_pos h]
  cases standby with
  | true => exact defaultShow_boundary t now (dueTaken t a now st wasSelected r)
  | false => rfl

theorem takeActivity_frame (st : StationRec) (r : RotState) :
    (takeActivity t a now standby st wasSelected r).rotation = r.rotation
      ∧ (takeActivity t a now standby st wasSelected r).loops = r.loops := by
  cases hends : showingEnds t a st r with
  | true =>
    rw [takeActivity_ends _ _ _ _ _ hends]
    split
    · exact interjBoundary_frame _ _ (dueTaken t a now st wasSelected r)
    · exact leaveInterj_frame (dueTaken t a now st wasSelected r)
  | false =>
    rw [takeActivity, hends, if_neg Bool.false_ne_true]
    split
    · exact defaultShow_frame t now (dueTaken t a now st wasSelected r)
    · exact ⟨rfl, rfl⟩

theorem takeActivity_due (h : standby = false ∨ ∃ n, r.position = .step n) :
    (takeActivity t a now standby st wasSelected r).due = (dueTaken t a now st wasSelected r).due := by
  obtain rfl | ⟨n, hpos⟩ := h
  · cases hends : showingEnds t a st r with
    | true => rw [takeActivity_ends _ _ _ _ _ hends, if_neg Bool.false_ne_true, leaveInterj_due]
    | false => rw [takeActivity, hends, if_neg Bool.false_ne_true, if_neg Bool.false_ne_true]; rfl
  · rw [takeActivity_at_step _ _ _ _ _ hpos]

end Taken

/-- What a minute event does to the set of active interjections (R116). -/
def minuteActivity (s : State) : Activity :=
  { before := s.pco.active, after := activeAt s.pco.interjections (voyageMinute s.clk), changed := [] }

/-- The rotation state of a screen with its due flags after the minute event (R117). -/
def minuteDue (s : State) (st : StationRec) (r : RotState) : RotState :=
  dueTaken s.pco.interjections (minuteActivity s) (voyageMinute s.clk) st (fun _ => true) r

/-- The rotation state of a screen after a minute event (R117 to R119, R121). -/
def minuteRot (s : State) (st : StationRec) (r : RotState) : RotState :=
  takeActivity s.pco.interjections (minuteActivity s) (voyageMinute s.clk) (decide (s.msc.state = .standby)) st
    (fun _ => true) r

theorem minuteActivity_after (hsorted : tblSorted s.pco.interjections = true) {i : Nat} {j : InterjRec}
    (hj : tblGet s.pco.interjections i = some j) :
    (minuteActivity s).after.contains i = true ↔ j.start ≤ s.clk.second.toNat / 60 ∧ s.clk.second.toNat / 60 < j.stop := by
  rw [List.contains_iff_mem]
  exact mem_activeAt_of_get hsorted hj

theorem minuteActivity_ends {i : Nat} (h : (minuteActivity s).after.contains i = true) :
    actEnds (minuteActivity s) i = false := by
  simp only [actEnds, h]
  exact Bool.and_false _

theorem minuteActivity_begins {i : Nat} (h : (minuteActivity s).after.contains i = true) :
    actBegins (minuteActivity s) i = true ↔ i ∉ s.pco.active := by
  simp only [actBegins, h, Bool.true_and]
  simp [minuteActivity]

theorem getD_range_map (f : Nat → Bool) {i : Nat} (hi : i < 16) : ((List.range 16).map f).getD i false = f i := by
  simp [List.getD_eq_getElem?_getD, hi]

theorem minuteDue_iff (hsorted : tblSorted s.pco.interjections = true) {i : Nat} (hi : i < 16) :
    (minuteDue s st r).due.getD i false = true ↔ DueAtMinute s st r i := by
  rw [minuteDue, dueTaken, getD_range_map _ hi]
  unfold dueAfter DueAtMinute
  cases hj : tblGet s.pco.interjections i with
  | none => simp
  | some j =>
    have hactive := minuteActivity_after hsorted hj
    simp only [Option.some.injEq, exists_eq_left', Bool.and_eq_true, Bool.or_eq_true, Bool.not_eq_true', tagSelects_iff,
      periodDue_iff, decide_eq_true_eq, hactive, Bool.not_true, Bool.false_eq_true, or_false, voyageMinute]
    constructor
    · rintro ⟨⟨hwindow, htag⟩, hdue⟩
      refine ⟨hwindow.1, hwindow.2, htag.1, htag.2, ?_⟩
      rw [minuteActivity_begins (hactive.mpr hwindow)] at hdue
      exact hdue.elim (fun h => h.elim (fun hd => .inl hd.1) fun hb => .inr (.inl hb)) fun hp => .inr (.inr hp)
    · rintro ⟨hstart, hstop, hkind, htag, hdue⟩
      refine ⟨⟨⟨hstart, hstop⟩, hkind, htag⟩, ?_⟩
      rw [minuteActivity_begins (hactive.mpr ⟨hstart, hstop⟩), minuteActivity_ends (hactive.mpr ⟨hstart, hstop⟩)]
      exact hdue.elim (fun hd => .inl (.inl ⟨hd, rfl⟩)) fun h => h.elim (fun hb => .inl (.inr hb)) .inr

theorem lowestDue_of_first {q : RotState} {k : Nat} (hk : k < 16) (hdue : q.due.getD k false = true)
    (hfirst : ∀ j, j < k → q.due.getD j false = false) : lowestDue q = some k := by
  unfold lowestDue
  rw [List.find?_range_eq_some]
  exact ⟨hdue, List.mem_range.mpr hk, fun j hj => by rw [hfirst j hj]; rfl⟩

theorem lowestDue_of_none {q : RotState} (h : ∀ k, k < 16 → q.due.getD k false = false) : lowestDue q = none := by
  unfold lowestDue
  rw [List.find?_eq_none]
  intro k hk
  rw [h k (List.mem_range.mp hk)]
  exact Bool.false_ne_true

theorem lowestDue_minute (hsorted : tblSorted s.pco.interjections = true) {k : Nat} (hk : k < 16)
    (hdue : DueAtMinute s st r k) (hfirst : ∀ j, j < k → ¬DueAtMinute s st r j) : lowestDue (minuteDue s st r) = some k :=
  lowestDue_of_first hk ((minuteDue_iff hsorted hk).mpr hdue) fun j hj =>
    Bool.not_eq_true _ ▸ mt (minuteDue_iff hsorted (Nat.lt_trans hj hk)).mp (hfirst j hj)

theorem lowestDue_minute_none (hsorted : tblSorted s.pco.interjections = true)
    (h : ∀ k, k < 16 → ¬DueAtMinute s st r k) : lowestDue (minuteDue s st r) = none :=
  lowestDue_of_none fun k hk => Bool.not_eq_true _ ▸ mt (minuteDue_iff hsorted hk).mp (h k hk)

/-! ### Whether a showing goes on (R119) -/

theorem showingEnds_minute (hsorted : tblSorted s.pco.interjections = true) {i : Nat} (hpos : r.position = .interj i) :
    showingEnds s.pco.interjections (minuteActivity s) st r = true ↔ ¬ActiveOn s st i := by
  unfold showingEnds ActiveOn
  simp only [hpos]
  cases hj : tblGet s.pco.interjections i with
  | none => simp
  | some j =>
    have hgoes : (actEnds (minuteActivity s) i || !(minuteActivity s).after.contains i || !tagSelects j st)
        = !((minuteActivity s).after.contains i && tagSelects j st) := by
      cases hin : (minuteActivity s).after.contains i with
      | true => rw [minuteActivity_ends hin]; rfl
      | false => rw [Bool.not_false, Bool.or_true, Bool.true_or]; rfl
    dsimp only
    rw [hgoes, Bool.not_eq_true', ← Bool.not_eq_true, not_iff_not, Bool.and_eq_true, minuteActivity_after hsorted hj,
      tagSelects_iff, and_assoc]
    simp only [Option.some.injEq, exists_eq_left']

/-! ### The rotation state after a minute event -/

theorem minuteRot_at_default (hpos : r.position = .default) :
    minuteRot s st r = if s.msc.state = .standby then
      defaultShow s.pco.interjections (voyageMinute s.clk) (minuteDue s st r) else minuteDue s st r := by
  have helse : ∀ i, r.position ≠ .interj i := fun i h => nomatch hpos.symm.trans h
  rw [minuteRot, takeActivity_elsewhere _ _ _ _ _ helse]
  simp only [decide_eq_true_eq]
  rfl

theorem minuteRot_at_step {n : Nat} (hpos : r.position = .step n) : minuteRot s st r = minuteDue s st r :=
  takeActivity_at_step _ _ _ _ _ hpos

theorem minuteRot_goes_on (hsorted : tblSorted s.pco.interjections = true) {i : Nat} (hpos : r.position = .interj i)
    (h : ActiveOn s st i) : minuteRot s st r = minuteDue s st r :=
  takeActivity_goes_on _ _ _ _ _ hpos (Bool.eq_false_iff.mpr fun hends => (showingEnds_minute hsorted hpos).mp hends h)

theorem minuteRot_ends (hsorted : tblSorted s.pco.interjections = true) {i : Nat} (hpos : r.position = .interj i)
    (h : ¬ActiveOn s st i) :
    minuteRot s st r = if s.msc.state = .standby then
      interjBoundary s.pco.interjections (voyageMinute s.clk) (minuteDue s st r) else leaveInterj (minuteDue s st r) := by
  rw [minuteRot, takeActivity_ends _ _ _ _ _ ((showingEnds_minute hsorted hpos).mpr h)]
  simp only [decide_eq_true_eq]
  rfl

theorem minuteRot_frame (s : State) (st : StationRec) (r : RotState) :
    (minuteRot s st r).rotation = r.rotation ∧ (minuteRot s st r).loops = r.loops :=
  takeActivity_frame _ _ _ _ _ st r

/-! ### What the statement says of it -/

theorem minuteRot_due (hsorted : tblSorted s.pco.interjections = true)
    (h : s.msc.state ≠ .standby ∨ ∃ n, r.position = .step n) {i : Nat} (hi : i < 16) :
    (minuteRot s st r).due.getD i false = true ↔ DueAtMinute s st r i := by
  rw [← minuteDue_iff (st := st) (r := r) hsorted hi, minuteRot,
    takeActivity_due _ _ _ _ _ (h.imp_left fun hne => decide_eq_false hne)]
  rfl

theorem minuteRot_default (hsorted : tblSorted s.pco.interjections = true) (hpos : r.position = .default) :
    (∀ i, i < 16 → s.msc.state = .standby → DueAtMinute s st r i → (∀ k, k < i → ¬DueAtMinute s st r k) →
        ShownAfresh s r (minuteRot s st r) i ∧ (minuteRot s st r).resume = r.resume)
      ∧ (s.msc.state ≠ .standby ∨ (∀ i, i < 16 → ¬DueAtMinute s st r i) → (minuteRot s st r).position = .default) := by
  rw [minuteRot_at_default hpos]
  refine ⟨fun i hi hstate hdue hfirst => ?_, fun h => ?_⟩
  · rw [if_pos hstate, defaultShow_due _ _ (r := minuteDue s st r) hpos (lowestDue_minute hsorted hi hdue hfirst)]
    exact ⟨shownAfresh_showInterj s (p := minuteDue s st r) rfl i, rfl⟩
  · split
    · rename_i hstate
      obtain hnot | hnone := h
      · exact absurd hstate hnot
      · rw [defaultShow_none _ _ (lowestDue_minute_none hsorted hnone)]
        exact hpos
    · exact hpos

theorem minuteRot_interj_ends (hsorted : tblSorted s.pco.interjections = true) {i : Nat} (hpos : r.position = .interj i)
    (h : ¬ActiveOn s st i) :
    (∀ k, k < 16 → s.msc.state = .standby → DueAtMinute s st r k → (∀ j, j < k → ¬DueAtMinute s st r j) →
        ShownAfresh s r (minuteRot s st r) k ∧ (minuteRot s st r).resume = r.resume)
      ∧ (s.msc.state ≠ .standby ∨ (∀ k, k < 16 → ¬DueAtMinute s st r k) → Returned r.resume (minuteRot s st r)) := by
  rw [minuteRot_ends hsorted hpos h]
  refine ⟨fun k hk hstate hdue hfirst => ?_, fun h => ?_⟩
  · rw [if_pos hstate, interjBoundary_due _ _ (lowestDue_minute hsorted hk hdue hfirst)]
    exact ⟨shownAfresh_showInterj s (p := minuteDue s st r) rfl k, rfl⟩
  · have hback : Returned r.resume (leaveInterj (minuteDue s st r)) := returned_leaveInterj (minuteDue s st r)
    split
    · rename_i hstate
      obtain hnot | hnone := h
      · exact absurd hstate hnot
      · rwa [interjBoundary_none _ _ (lowestDue_minute_none hsorted hnone)]
    · exact hback

end Interjections

/-! ## The minute event as a whole (R45) -/

/-- The part after the evaluation, the interjections and the claims of a minute event, before its notices. -/
def minuteClaimed (s : State) : State := claimOp (minuteState s)

theorem exec_minuteEvent {s : State} (hphase : s.phase ≠ .powerOn) (hdue : s.clk.minuteDue = true) :
    exec .minuteEvent s = .next (flush (minuteTaken s)) := by
  show execMinuteEvent s = _
  unfold execMinuteEvent
  rw [hdue, decide_eq_true hphase]
  rfl

/-- The notices of a minute event, but for the screens that moved (R50, R62). -/
def minuteTold (s : State) : State := listNotices s.pgu [] (timeNotice s.pgu (minuteClaimed s))

theorem pagesOnly_minuteTold (s : State) : PagesOnly (minuteClaimed s) (minuteTold s) :=
  (pagesOnly_timeNotice _ _).trans (pagesOnly_listNotices _ _ _)

theorem pagesOnly_markMoved (r : Tbl RotState) (s : State) : PagesOnly s (markMoved r s) := pagesOnly_composeMarked _ s

theorem minuteTaken_eq (s : State) : minuteTaken s = markMoved s.pco.rots (minuteTold s) :=
  pageBlocks_eq ((pagesOnly_minuteTold s).trans (pagesOnly_markMoved _ _)).blocks

theorem pagesOnly_minuteTaken (s : State) : PagesOnly (minuteClaimed s) (minuteTaken s) := by
  rw [minuteTaken_eq]
  exact (pagesOnly_minuteTold s).trans (pagesOnly_markMoved _ _)

section Whole

variable (s : State)

theorem minuteTaken_pgu : (minuteTaken s).pgu = evalPgu s.sms (voyageMinute s.clk) s.pgu := (pagesOnly_minuteTaken s).pgu

theorem minuteTaken_clk : (minuteTaken s).clk = { s.clk with minuteDue := false } := (pagesOnly_minuteTaken s).clk

theorem minuteTaken_active : (minuteTaken s).pco.active = activeAt s.pco.interjections (voyageMinute s.clk) :=
  (pagesOnly_minuteTaken s).active

theorem minuteTaken_rot {x : Nat} {st : StationRec} {r : RotState} (hst : tblGet s.sms.stations x = some st)
    (hr : tblGet s.pco.rots x = some r) : tblGet (minuteTaken s).pco.rots x = some (minuteRot s st r) := by
  rw [(pagesOnly_minuteTaken s).rots]
  have hrot : tblGet (minuteClaimed s).pco.rots x = (tblGet s.pco.rots x).map fun r =>
      match tblGet s.sms.stations x with
      | some st => minuteRot s st r
      | none => r := tblGet_map _ s.pco.rots x
  rw [hrot, hr, hst]
  rfl

theorem minuteTaken_frame :
    { minuteTaken s with clk := s.clk, rsv := s.rsv, pgu := s.pgu, pco := s.pco, xu := s.xu } = s :=
  (congrArg (fun u : State => { u with clk := s.clk, rsv := s.rsv, pgu := s.pgu, pco := s.pco, xu := s.xu })
    (pagesOnly_minuteTaken s).blocks :)

theorem minuteTaken_claims : desiredClaims (flush (minuteTaken s)) = desiredClaims (minuteState s) := by
  have h := pagesOnly_minuteTaken s
  have hinterj : interjClaims (minuteTaken s).pco = interjClaims (minuteClaimed s).pco := by
    rw [interjClaims, interjClaims, h.active, h.interjections, h.notices]
  show desiredClaims (minuteTaken s) = _
  rw [desiredClaims, h.msc, h.sms, h.pgu, hinterj]
  rfl

theorem minuteTaken_waiting :
    (flush (minuteTaken s)).xu.counters.claimWait
      = waitCount (newlyWaiting (desiredClaims (flush (minuteTaken s))) s.rsv) s.xu.counters.claimWait := by
  rw [minuteTaken_claims]
  have hcounts : otherCounts (flush (minuteTaken s)).xu = otherCounts (minuteClaimed s).xu := by
    rw [otherCounts_flush, minuteTaken_eq, markMoved, otherCounts_composeMarked, minuteTold, otherCounts_listNotices,
      otherCounts_timeNotice]
  rw [claimWait_of_counts hcounts]
  exact claimOp_claimWait (minuteState s)

theorem minuteTaken_desired_rsv : (flush (minuteTaken s)).rsv = claimRsv (desiredClaims (flush (minuteTaken s))) s.rsv := by
  rw [minuteTaken_claims]
  exact (pagesOnly_minuteTaken s).rsv

theorem minuteTaken_sameTables : SameTables s (flush (minuteTaken s)) := by
  have h := pagesOnly_minuteTaken s
  refine ⟨?_, ?_⟩
  · show tablesOf (minuteTaken s) = tablesOf s
    unfold tablesOf
    rw [h.sms, h.pgu, h.rotations, h.notices, h.interjections]
    rfl
  · exact (congrArg XuState.applied (startReports_frame _ _) :).trans
      (congrArg XuState.applied (adds_minuteTaken (Adds.refl s.xu)).frame :)

end Whole

/-! ## The pages of a minute event (R50, R62, R94, R95) -/

theorem minuteTaken_source_shown {s : State} {x : Nat} {st : StationRec} (hst : tblGet s.sms.stations x = some st) {y : Source}
    (hsource : y ∈ (pageRec s.pco x).sources) (hmoved : SourceMoved s (flush (minuteTaken s)) x y) :
    PageShown (flush (minuteTaken s)) x := by
  have hpages := pagesOnly_minuteTaken s
  have hsms : (flush (minuteTaken s)).sms = s.sms := hpages.sms
  have hnotices : (flush (minuteTaken s)).pco.notices = s.pco.notices := hpages.notices
  have hpgu : (flush (minuteTaken s)).pgu = (minuteClaimed s).pgu := hpages.pgu
  have htold : PageShown (minuteTold s) x → PageShown (flush (minuteTaken s)) x := fun h => by
    rw [minuteTaken_eq]
    exact pageShown_flush (pageShown_composeMarked h _)
  cases y with
  | musterStation i => exact absurd (congrArg (fun m : SmsState => tblGet m.musters i) hsms.symm) hmoved
  | landmark i => exact absurd (congrArg (fun m : SmsState => tblGet m.landmarks i) hsms.symm) hmoved
  | node i => exact absurd (congrArg (fun m : SmsState => tblGet m.nodes i) hsms.symm) hmoved
  | notice i => exact absurd (congrArg (fun t => tblGet t i) hnotices.symm) hmoved
  | time =>
    rw [SourceMoved, hpgu] at hmoved
    exact htold (pageShown_listNotices
      (pageShown_timeNotice_moved (s := minuteClaimed s) (t := minuteClaimed s) hst (shownOrKept_refl _ x) hsource hmoved) _ _)
  | list =>
    rw [SourceMoved, hpgu] at hmoved
    have hkept := shownOrKept_timeNotice (shownOrKept_refl (minuteClaimed s) x) s.pgu
    refine htold (pageShown_listNotices_moved hkept hsource ?_)
    rw [timeNotice_pgu]
    exact mem_changedLists hmoved.1 hmoved.2 []

theorem minuteTaken_moved_shown {s : State} {x : Nat} {r q : RotState} (hr : tblGet s.pco.rots x = some r)
    (hq : tblGet (minuteTaken s).pco.rots x = some q) (hmoved : q.position ≠ r.position) : PageShown (flush (minuteTaken s)) x := by
  have hq' : tblGet (minuteTold s).pco.rots x = some q := by
    rw [(pagesOnly_minuteTold s).rots, ← (pagesOnly_minuteTaken s).rots]
    exact hq
  have hmem : x ∈ movedStations s.pco.rots (minuteTold s).pco.rots := by
    refine List.mem_filter.mpr ⟨mem_keys_of_get hq', ?_⟩
    simp only [hr, hq']
    rw [decide_eq_true (Ne.symm hmoved), Bool.true_or]
  rw [minuteTaken_eq]
  exact pageShown_flush (pageShown_marked hmem)

/-! ## The settled obligation -/

/-- Settles O20. -/
theorem minuteEventEvaluates : Obligations.MinuteEventEvaluates := by
  intro now s hphase hheld hcanon hdue hnow
  subst hnow
  obtain ⟨-, -, hstations, -, -, hprogramme, hclock, -, -, hinterj⟩ := id hcanon
  have hpgu : (flush (minuteTaken s)).pgu = evalPgu s.sms (voyageMinute s.clk) s.pgu := minuteTaken_pgu s
  have hfit := slotsFit_of_held hheld
  have hrsv := minuteTaken_desired_rsv s
  refine ⟨_, exec_minuteEvent hphase hdue, minuteTaken_clk s, fun hret => ?_, fun hret => ⟨fun i c hi hc hlast => ?_, fun hnone => ?_⟩,
    by rw [hpgu]; rfl, by rw [hpgu]; rfl, fun i e he => ?_, fun x st hst => ?_, by rw [hpgu]; rfl, fun i => ?_,
    fun x st r hst hr => ?_, fun x st y hst hsource hmoved => minuteTaken_source_shown hst hsource hmoved st hst,
    onlyClaims_of hrsv hfit, claimsPlaced_of hrsv hfit, claimsServed_of hrsv (minuteTaken_waiting s), ?_, minuteTaken_sameTables s,
    minuteTaken_frame s⟩
  · rw [hpgu, evalPgu_offset_retained _ _ _ hret]
  · rw [hpgu, evalPgu_offset_evaluated _ _ _ hret]
    exact evalOffset_latest hclock _ hi hc hlast
  · rw [hpgu, evalPgu_offset_evaluated _ _ _ hret]
    exact evalOffset_initial fun i c hic => hnone i c (tblGet_of_mem hclock hic)
  · rw [hpgu, evalPgu_states _ _ _ he]
    rfl
  · rw [hpgu]
    exact evalPgu_lists _ s.pgu hstations hst
  · rw [flush_pco, minuteTaken_active]
    exact mem_activeAt
  · have hq := minuteTaken_rot s hst hr
    obtain ⟨hrotation, hloops⟩ := minuteRot_frame s st r
    refine ⟨minuteRot s st r, hq, hrotation, hloops, fun h i hi => minuteRot_due hinterj h hi, fun ⟨n, hpos⟩ => ?_,
      minuteRot_default hinterj, fun i hpos hactive => ?_, fun i hpos => minuteRot_interj_ends hinterj hpos,
      fun hmoved => minuteTaken_moved_shown hr hq hmoved st hst⟩
    · rw [minuteRot_at_step hpos]
      exact ⟨rfl, rfl, rfl⟩
    · rw [minuteRot_goes_on hinterj hpos hactive]
      exact ⟨rfl, rfl, rfl, fun k hk => minuteDue_iff hinterj hk⟩
  · have hordered := desiredClaims_ordered (s := minuteState s) hcanon rfl (sorted_keys_filter hinterj _)
    rw [hrsv, minuteTaken_claims]
    exact hordered.sublist (claimRsv_waiting_sublist _ _)

end Sys2Proof.Machine

/-! PROOFS. The solve of one target (R20 to R24): every distance held is the cost of a way, every pass tries each way one
step longer, and a way without a node twice has fewer steps than there are passes. -/

namespace Sys2Proof.Machine

open Sys2Proof.Safety

/-! ## One traversal (R19, R21) -/

theorem satDist_eq (c d : Nat) : satDist c d = min 65534 (c + d) := by
  simp only [satDist, Config.far]
  split <;> omega

theorem ends_of_allowed {e : EdgeRec} {u v : Nat} (h : passageAllows e u v = true) :
    u = e.nodeA ∧ v = e.nodeB ∨ u = e.nodeB ∧ v = e.nodeA := by
  simp only [passageAllows, Bool.or_eq_true, Bool.and_eq_true, decide_eq_true_eq] at h
  obtain ⟨⟨hu, hv⟩, -⟩ | ⟨⟨hu, hv⟩, -⟩ := h
  · exact .inl ⟨hu, hv⟩
  · exact .inr ⟨hu, hv⟩

theorem ends_of_walkable {m : SmsState} {r : Regime} {e : EdgeRec} {u v : Nat} (h : traversalBarred m r e u v = false) :
    u = e.nodeA ∧ v = e.nodeB ∨ u = e.nodeB ∧ v = e.nodeA := by
  simp only [traversalBarred, Bool.or_eq_false_iff, Bool.not_eq_false'] at h
  exact ends_of_allowed h.1.1.1

/-! ## Ways (R22) -/

section Ways

variable {m : SmsState} {r : Regime}

/-- The nodes that a way visits. -/
def wayNodes (u : Nat) (way : List (Nat × Nat)) : List Nat := u :: way.map Prod.snd

theorem wayCost_le (u : Nat) (way : List (Nat × Nat)) : wayCost m r u way ≤ 65534 := by
  cases way with
  | nil => exact Nat.zero_le _
  | cons step rest => exact Nat.min_le_left ..

theorem wayCost_cons {u e v : Nat} {g : EdgeRec} (h : tblGet m.edges e = some g) (rest : List (Nat × Nat)) :
    wayCost m r u ((e, v) :: rest) = satDist (traversalCost m r g u) (wayCost m r v rest) := by
  rw [satDist_eq, wayCost, h]
  rfl

theorem wayCost_rest_le (u e v : Nat) (rest : List (Nat × Nat)) : wayCost m r v rest ≤ wayCost m r u ((e, v) :: rest) := by
  have hrest := wayCost_le (m := m) (r := r) v rest
  simp only [wayCost]
  omega

/-- From a node on a way the rest of it goes on to the target, at no more cost. -/
theorem way_from {x t : Nat} : ∀ {u : Nat} {way : List (Nat × Nat)}, Way m r u way t → x ∈ wayNodes u way →
    ∃ tail, Way m r x tail t ∧ wayCost m r x tail ≤ wayCost m r u way ∧ (wayNodes x tail).Sublist (wayNodes u way)
  | u, [], h, hx => by
    obtain rfl : x = u := List.mem_singleton.mp hx
    exact ⟨[], h, Nat.le_refl _, List.Sublist.refl _⟩
  | u, (e, v) :: rest, h, hx => by
    obtain rfl | hx := List.mem_cons.mp hx
    · exact ⟨_, h, Nat.le_refl _, List.Sublist.refl _⟩
    · obtain ⟨tail, htail, hcost, hsub⟩ := way_from h.2 hx
      exact ⟨tail, htail, Nat.le_trans hcost (wayCost_rest_le u e v rest), hsub.cons u⟩

/-- Every way has one at no more cost that visits no node twice. -/
theorem way_simple {t : Nat} : ∀ {u : Nat} {way : List (Nat × Nat)}, Way m r u way t →
    ∃ short, Way m r u short t ∧ wayCost m r u short ≤ wayCost m r u way ∧ (wayNodes u short).Nodup
  | u, [], h => ⟨[], h, Nat.le_refl _, List.nodup_singleton u⟩
  | u, (e, v) :: rest, h => by
    obtain ⟨⟨g, hg, hwalk⟩, hrest⟩ := h
    obtain ⟨short, hshort, hcost, hnodup⟩ := way_simple hrest
    by_cases hu : u ∈ wayNodes v short
    · obtain ⟨tail, htail, htailCost, hsub⟩ := way_from hshort hu
      exact ⟨tail, htail, Nat.le_trans htailCost (Nat.le_trans hcost (wayCost_rest_le u e v rest)), hnodup.sublist hsub⟩
    · refine ⟨(e, v) :: short, ⟨⟨g, hg, hwalk⟩, hshort⟩, ?_, List.nodup_cons.mpr ⟨hu, hnodup⟩⟩
      rw [wayCost_cons hg, wayCost_cons hg, satDist_eq, satDist_eq]
      omega

section Ends

variable (hends : ∀ e g, tblGet m.edges e = some g → g.nodeA < 1024 ∧ g.nodeB < 1024)

include hends

theorem step_nodes {e u v : Nat} {g : EdgeRec} (hg : tblGet m.edges e = some g) (hwalk : traversalBarred m r g u v = false) :
    u < 1024 ∧ v < 1024 := by
  obtain ⟨ha, hb⟩ := hends e g hg
  obtain ⟨rfl, rfl⟩ | ⟨rfl, rfl⟩ := ends_of_walkable hwalk
  · exact ⟨ha, hb⟩
  · exact ⟨hb, ha⟩

theorem way_nodes_lt {t : Nat} : ∀ {u : Nat} {way : List (Nat × Nat)}, Way m r u way t → ∀ x ∈ way.map Prod.snd, x < 1024
  | _, [], _, x, hx => nomatch hx
  | u, (e, v) :: rest, h, x, hx => by
    obtain ⟨⟨g, hg, hwalk⟩, hrest⟩ := h
    obtain rfl | hx := List.mem_cons.mp hx
    · exact (step_nodes hends hg hwalk).2
    · exact way_nodes_lt hrest x hx

/-- A way that visits no node twice has at most 1,024 steps. -/
theorem way_length_le {t u : Nat} {way : List (Nat × Nat)} (h : Way m r u way t) (hnodup : (wayNodes u way).Nodup) :
    way.length ≤ 1024 := by
  have hsteps : (way.map Prod.snd).Nodup := (List.nodup_cons.mp hnodup).2
  have hrange : way.map Prod.snd ⊆ List.range 1024 := fun x hx => List.mem_range.mpr (way_nodes_lt hends h x hx)
  have hle := (hsteps.subperm hrange).length_le
  rwa [List.length_map, List.length_range] at hle

end Ends

end Ways

/-! ## Relaxation (R24) -/

section Relax

variable {m : SmsState} {r : Regime} {p : Pair}

theorem distOf_put (t : Tbl Nat) (u d x : Nat) : distOf (tblPut t u d) x = if x = u then d else distOf t x := by
  unfold distOf tblGetD
  rw [tblGet_put]
  split <;> rfl

/-- One traversal tried, in terms of the distances. -/
theorem distOf_relaxOne (e : EdgeRec) (u v : Nat) (t : Tbl Nat) (x : Nat) :
    distOf (relaxOne m r e u v t) x =
      if x = u ∧ traversalBarred m r e u v = false ∧ distOf t v ≠ 65535
          ∧ satDist (traversalCost m r e u) (distOf t v) < distOf t u then
        satDist (traversalCost m r e u) (distOf t v) else distOf t x := by
  unfold relaxOne
  by_cases hbarred : traversalBarred m r e u v = true
  · rw [if_pos hbarred, if_neg (by simp [hbarred])]
  · rw [if_neg hbarred]
    dsimp only
    by_cases hfar : distOf t v = Config.unreachable
    · rw [if_pos hfar, if_neg fun h => h.2.2.1 hfar]
    · rw [if_neg hfar]
      by_cases hless : satDist (traversalCost m r e u) (distOf t v) < distOf t u
      · rw [if_pos hless, distOf_put]
        by_cases hx : x = u
        · rw [if_pos hx, if_pos ⟨hx, Bool.not_eq_true _ ▸ hbarred, hfar, hless⟩]
        · rw [if_neg hx, if_neg fun h => hx h.1]
      · rw [if_neg hless, if_neg fun h => hless h.2.2.2]

theorem relaxOne_le (e : EdgeRec) (u v : Nat) (t : Tbl Nat) (x : Nat) : distOf (relaxOne m r e u v t) x ≤ distOf t x := by
  rw [distOf_relaxOne]
  split
  · rename_i h
    obtain ⟨rfl, -, -, hless⟩ := h
    exact Nat.le_of_lt hless
  · exact Nat.le_refl _

theorem satDist_mono (c : Nat) {a b : Nat} (h : a ≤ b) : satDist c a ≤ satDist c b := by
  rw [satDist_eq, satDist_eq]
  omega

theorem relaxOne_tries {e : EdgeRec} {u v : Nat} (hwalk : traversalBarred m r e u v = false) (t : Tbl Nat)
    (hnear : distOf t v ≠ 65535) :
    distOf (relaxOne m r e u v t) u ≤ satDist (traversalCost m r e u) (distOf t v) := by
  rw [distOf_relaxOne]
  split
  · exact Nat.le_refl _
  · rename_i h
    exact Nat.not_lt.mp fun hless => h ⟨rfl, hwalk, hnear, hless⟩

theorem relaxEdge_le (t : Tbl Nat) (e : Nat × EdgeRec) (x : Nat) : distOf (relaxEdge m r t e) x ≤ distOf t x :=
  Nat.le_trans (relaxOne_le ..) (relaxOne_le ..)

/-- An edge tries both its traversals, against distances that are no greater than those before it. -/
theorem relaxEdge_tries {e : Nat × EdgeRec} {u v : Nat} (hwalk : traversalBarred m r e.2 u v = false) (t : Tbl Nat)
    (hnear : distOf t v < 65535) :
    distOf (relaxEdge m r t e) u ≤ satDist (traversalCost m r e.2 u) (distOf t v) := by
  unfold relaxEdge
  obtain ⟨rfl, rfl⟩ | ⟨rfl, rfl⟩ := ends_of_walkable hwalk
  · exact Nat.le_trans (relaxOne_le ..) (relaxOne_tries hwalk t (Nat.ne_of_lt hnear))
  · have hfirst := relaxOne_le (m := m) (r := r) e.2 e.2.nodeA e.2.nodeB t e.2.nodeA
    exact Nat.le_trans (relaxOne_tries hwalk _ (Nat.ne_of_lt (Nat.lt_of_le_of_lt hfirst hnear))) (satDist_mono _ hfirst)

theorem relaxEdges_le (l : Tbl EdgeRec) (t : Tbl Nat) (x : Nat) : distOf (l.foldl (relaxEdge m r) t) x ≤ distOf t x := by
  induction l generalizing t with
  | nil => exact Nat.le_refl _
  | cons e rest ih => exact Nat.le_trans (ih _) (relaxEdge_le t e x)

theorem relaxEdges_tries {l : Tbl EdgeRec} {e : Nat × EdgeRec} (he : e ∈ l) {u v : Nat}
    (hwalk : traversalBarred m r e.2 u v = false) (t : Tbl Nat) (hnear : distOf t v < 65535) :
    distOf (l.foldl (relaxEdge m r) t) u ≤ satDist (traversalCost m r e.2 u) (distOf t v) := by
  induction l generalizing t with
  | nil => cases he
  | cons a rest ih =>
    rw [List.foldl_cons]
    obtain rfl | he := List.mem_cons.mp he
    · exact Nat.le_trans (relaxEdges_le rest _ u) (relaxEdge_tries hwalk t hnear)
    · have hle := relaxEdge_le (m := m) (r := r) t a v
      exact Nat.le_trans (ih he _ (Nat.lt_of_le_of_lt hle hnear)) (satDist_mono _ hle)

theorem relaxPass_le (t : Tbl Nat) (x : Nat) : distOf (relaxPass m r t) x ≤ distOf t x := relaxEdges_le _ t x

theorem relaxPass_tries {i : Nat} {g : EdgeRec} (hg : tblGet m.edges i = some g) {u v : Nat}
    (hwalk : traversalBarred m r g u v = false) (t : Tbl Nat) (hnear : distOf t v < 65535) :
    distOf (relaxPass m r t) u ≤ satDist (traversalCost m r g u) (distOf t v) :=
  relaxEdges_tries (e := (i, g)) (get_mem hg) hwalk t hnear

/-! ## The passes (R24) -/

theorem relaxPasses_eq (n : Nat) (t : Tbl Nat) : relaxPasses m r n t = (relaxPass m r)^[n] t := by
  induction n generalizing t with
  | zero => rfl
  | succ n ih =>
    rw [Function.iterate_succ_apply, relaxPasses]
    split
    · rename_i hfixed
      rw [hfixed]
      exact (Function.iterate_fixed hfixed n).symm
    · exact ih _

theorem passes_le (n : Nat) (t : Tbl Nat) (x : Nat) : distOf ((relaxPass m r)^[n] t) x ≤ distOf t x := by
  induction n with
  | zero => exact Nat.le_refl _
  | succ n ih =>
    rw [Function.iterate_succ_apply']
    exact Nat.le_trans (relaxPass_le _ x) ih

/-- After a number of passes no way of that many steps costs less than the distance held (R22, R24). -/
theorem passes_le_way {t₀ : Tbl Nat} {target : Nat} (hzero : distOf t₀ target = 0) :
    ∀ {n u : Nat} {way : List (Nat × Nat)}, Way m r u way target → way.length ≤ n →
      distOf ((relaxPass m r)^[n] t₀) u ≤ wayCost m r u way
  | n, u, [], h, _ => by
    obtain rfl : u = target := h
    exact (passes_le n t₀ u).trans hzero.le
  | 0, u, _ :: _, _, hlen => absurd hlen (Nat.not_succ_le_zero _)
  | n + 1, u, (e, v) :: rest, h, hlen => by
    obtain ⟨⟨g, hg, hwalk⟩, hrest⟩ := h
    have ih := passes_le_way hzero hrest (Nat.le_of_succ_le_succ hlen)
    have hnear : distOf ((relaxPass m r)^[n] t₀) v < 65535 :=
      Nat.lt_of_le_of_lt (Nat.le_trans ih (wayCost_le v rest)) (Nat.lt_add_one 65534)
    rw [Function.iterate_succ_apply', wayCost_cons hg]
    exact Nat.le_trans (relaxPass_tries hg hwalk _ hnear) (satDist_mono _ ih)

/-! ## Every distance held is the cost of a way (R22) -/

/-- Each distance is UNREACHABLE or the cost of a way to the target. -/
def Witnessed (m : SmsState) (r : Regime) (target : Nat) (t : Tbl Nat) : Prop :=
  ∀ u, distOf t u = 65535 ∨ ∃ way, Way m r u way target ∧ wayCost m r u way = distOf t u

theorem witnessed_relaxOne {target i : Nat} {g : EdgeRec} (hg : tblGet m.edges i = some g) {t : Tbl Nat}
    (h : Witnessed m r target t) (u v : Nat) : Witnessed m r target (relaxOne m r g u v t) := by
  intro x
  rw [distOf_relaxOne]
  split
  · rename_i hc
    obtain ⟨rfl, hwalk, hnear, -⟩ := hc
    obtain hfar | ⟨way, hway, hcost⟩ := h v
    · exact absurd hfar hnear
    · exact .inr ⟨(i, v) :: way, ⟨⟨g, hg, hwalk⟩, hway⟩, by rw [wayCost_cons hg, hcost]⟩
  · exact h x

theorem witnessed_relaxEdges {target : Nat} {l : Tbl EdgeRec} (hl : ∀ e ∈ l, tblGet m.edges e.1 = some e.2) {t : Tbl Nat}
    (h : Witnessed m r target t) : Witnessed m r target (l.foldl (relaxEdge m r) t) := by
  induction l generalizing t with
  | nil => exact h
  | cons e rest ih =>
    have he := hl e List.mem_cons_self
    exact ih (fun a ha => hl a (List.mem_cons_of_mem e ha)) (witnessed_relaxOne he (witnessed_relaxOne he h _ _) _ _)

theorem witnessed_passes {target : Nat} (hsorted : tblSorted m.edges = true) {t : Tbl Nat} (h : Witnessed m r target t) (n : Nat) :
    Witnessed m r target ((relaxPass m r)^[n] t) := by
  induction n with
  | zero => exact h
  | succ n ih =>
    rw [Function.iterate_succ_apply']
    exact witnessed_relaxEdges (fun e he => tblGet_of_mem hsorted he) ih

theorem witnessed_start (target : Nat) : Witnessed m r target [(target, 0)] := by
  intro u
  by_cases hu : target = u
  · subst hu
    exact .inr ⟨[], rfl, by simp [wayCost, distOf, tblGetD, tblGet]⟩
  · exact .inl (by simp [distOf, tblGetD, tblGet, hu, Config.unreachable])

/-! ## The distances of a solve (R22) -/

theorem solveDists_eq : solveDists m p = (relaxPass m p.regime)^[1024] [(p.node, 0)] := relaxPasses_eq 1024 _

theorem start_zero (target : Nat) : distOf [(target, 0)] target = 0 := by simp [distOf, tblGetD, tblGet]

theorem solveDists_witnessed (hsorted : tblSorted m.edges = true) : Witnessed m p.regime p.node (solveDists m p) := by
  rw [solveDists_eq]
  exact witnessed_passes hsorted (witnessed_start p.node) 1024

theorem solveDists_le (hends : ∀ e g, tblGet m.edges e = some g → g.nodeA < 1024 ∧ g.nodeB < 1024) {u : Nat}
    {way : List (Nat × Nat)} (h : Way m p.regime u way p.node) : distOf (solveDists m p) u ≤ wayCost m p.regime u way := by
  obtain ⟨short, hshort, hcost, hnodup⟩ := way_simple h
  rw [solveDists_eq]
  exact Nat.le_trans (passes_le_way (start_zero p.node) hshort (way_length_le hends hshort hnodup)) hcost

/-! ## The next hops (R23) -/

theorem hopOf_solve (u : Nat) : hopOf (solve m p) u =
    ((tblGet (solveDists m p) u).map fun d => { dist := d, next := nextHop m p (solveDists m p) u }).getD
      { dist := 65535, next := none } := by
  rw [hopOf, solve, tblGetD, tblGet_map, Config.unreachable]

theorem hopOf_solve_dist (u : Nat) : (hopOf (solve m p) u).dist = distOf (solveDists m p) u := by
  rw [hopOf_solve, distOf, tblGetD]
  cases tblGet (solveDists m p) u <;> rfl

/-- Does the edge lead from `u` to a nearer node, at exactly the distance held (R23)? -/
def hopEdge (m : SmsState) (r : Regime) (t : Tbl Nat) (u : Nat) (e : EdgeRec) : Bool :=
  (decide (e.nodeA = u) && isHop m r t u e.nodeB e) || (decide (e.nodeB = u) && isHop m r t u e.nodeA e)

theorem hopEdge_iff {t : Tbl Nat} {u : Nat} {e : EdgeRec} :
    hopEdge m r t u e = true ↔ ∃ v, traversalBarred m r e u v = false ∧ distOf t v < distOf t u
      ∧ min 65534 (traversalCost m r e u + distOf t v) = distOf t u := by
  simp only [hopEdge, isHop, Bool.or_eq_true, Bool.and_eq_true, decide_eq_true_eq, Bool.not_eq_true', satDist_eq, and_assoc]
  constructor
  · rintro (⟨-, h⟩ | ⟨-, h⟩)
    · exact ⟨e.nodeB, h⟩
    · exact ⟨e.nodeA, h⟩
  · rintro ⟨v, hwalk, h⟩
    obtain ⟨hu, rfl⟩ | ⟨hu, rfl⟩ := ends_of_walkable hwalk
    · exact .inl ⟨hu.symm, hwalk, h⟩
    · exact .inr ⟨hu.symm, hwalk, h⟩

theorem nextHop_iff (hsorted : tblSorted m.edges = true) {t : Tbl Nat} {u : Nat} (hu : u ≠ p.node) (e : Nat) :
    nextHop m p t u = some e ↔ NextHop m p.regime (distOf t) u e ∧ ∀ f, NextHop m p.regime (distOf t) u f → e ≤ f := by
  have hfind : ∀ i, NextHop m p.regime (distOf t) u i ↔ ∃ g, (i, g) ∈ m.edges ∧ hopEdge m p.regime t u g = true := fun i => by
    simp only [NextHop, hopEdge_iff, mem_iff_tblGet hsorted, exists_and_left]
  have hnext : nextHop m p t u = (m.edges.find? fun e => hopEdge m p.regime t u e.2).map Prod.fst := if_neg hu
  rw [hnext, Option.map_eq_some_iff]
  simp only [find?_eq_some_iff_least (ascending_of_sorted hsorted)]
  constructor
  · rintro ⟨⟨i, g⟩, ⟨hmem, hhop, hleast⟩, rfl⟩
    refine ⟨(hfind i).mpr ⟨g, hmem, hhop⟩, fun f hf => ?_⟩
    obtain ⟨k, hk, hkhop⟩ := (hfind f).mp hf
    exact hleast (f, k) hk hkhop
  · rintro ⟨hhop, hleast⟩
    obtain ⟨g, hmem, hg⟩ := (hfind e).mp hhop
    exact ⟨(e, g), ⟨hmem, hg, fun y hy hyhop => hleast y.1 ((hfind y.1).mpr ⟨y.2, hy, hyhop⟩)⟩, rfl⟩

theorem hopOf_solve_next (hsorted : tblSorted m.edges = true) {u : Nat} (hu : u ≠ p.node) (e : Nat) :
    (hopOf (solve m p) u).next = some e ↔ NextHop m p.regime (distOf (solveDists m p)) u e
      ∧ ∀ f, NextHop m p.regime (distOf (solveDists m p)) u f → e ≤ f := by
  rw [hopOf_solve]
  cases hget : tblGet (solveDists m p) u with
  | some d => exact nextHop_iff hsorted hu e
  | none =>
    have hfar : distOf (solveDists m p) u = 65535 := by
      rw [distOf, tblGetD, hget]
      rfl
    constructor
    · exact fun h => nomatch h
    · rintro ⟨⟨g, v, -, -, -, hsum⟩, -⟩
      rw [hfar] at hsum
      omega

end Relax

/-! ## The settled obligation -/

/-- Settles O24: the distances after at most 1,024 passes are those of the ways without a node twice, and each is the cost of
some way. -/
theorem solverResult : Obligations.SolverResult := by
  intro m p dist hsorted hends hdist
  obtain rfl : dist = distOf (solveDists m p) := funext fun u => (hdist u).trans (hopOf_solve_dist u)
  have hle := fun u way => solveDists_le (p := p) hends (u := u) (way := way)
  have hwitness := solveDists_witnessed (p := p) hsorted
  refine ⟨Nat.le_zero.mp (hle p.node [] rfl), ?_, hle, fun u ⟨way, hway⟩ => ?_, fun u hnone => ?_,
    fun u hu e => hopOf_solve_next hsorted hu e⟩
  · rw [hopOf_solve]
    cases tblGet (solveDists m p) p.node with
    | none => rfl
    | some d => exact if_pos rfl
  · obtain hfar | hfound := hwitness u
    · have hcost := hle u way hway
      have hbound := wayCost_le (m := m) (r := p.regime) u way
      omega
    · exact hfound
  · obtain hfar | ⟨way, hway, -⟩ := hwitness u
    · exact hfar
    · exact absurd hway (hnone way)

end Sys2Proof.Machine

/-! PROOFS. Validation (R14, R167, R168): what each record names, the charges, and the set after the edition. -/

namespace Sys2Proof.Machine

open Sys2Proof.Safety

/-! ## The first record charged (R168) -/

theorem validate_cons (t : TableSet) (all rest : List Staged) (r : Staged) :
    validate t (r :: rest) all = match recordReason t all r with
      | some reason => some (entryFailure reason r.entry (some r.leaf) (some r.index))
      | none => validate t rest all := rfl

theorem validate_none_iff (t : TableSet) (staged all : List Staged) :
    validate t staged all = none ↔ ∀ r ∈ staged, recordReason t all r = none := by
  induction staged with
  | nil => simp [validate]
  | cons r rest ih =>
    rw [validate_cons, List.forall_mem_cons]
    cases recordReason t all r with
    | none => simpa using ih
    | some reason => simp

theorem validate_first {t : TableSet} {all pre post : List Staged} {r : Staged} {reason : Reason}
    (hpre : ∀ q ∈ pre, recordReason t all q = none) (h : recordReason t all r = some reason) :
    validate t (pre ++ r :: post) all = some (entryFailure reason r.entry (some r.leaf) (some r.index)) := by
  induction pre with
  | nil => rw [List.nil_append, validate_cons, h]
  | cons q rest ih =>
    rw [List.cons_append, validate_cons, hpre q List.mem_cons_self]
    exact ih fun a ha => hpre a (List.mem_cons_of_mem q ha)

/-! ## What records name (R14) -/

theorem mem_table_refs {α : Type} {t : Tbl α} (h : tblSorted t = true) (refs : α → List Ref) (f : Ref) :
    f ∈ t.flatMap (fun e => refs e.2) ↔ ∃ j, f ∈ ((tblGet t j).map refs).getD [] := by
  rw [List.mem_flatMap]
  constructor
  · rintro ⟨⟨j, a⟩, hmem, hf⟩
    exact ⟨j, by rw [tblGet_of_mem h hmem]; exact hf⟩
  · rintro ⟨j, hf⟩
    cases hget : tblGet t j with
    | none => rw [hget] at hf; cases hf
    | some a => rw [hget] at hf; exact ⟨(j, a), get_mem hget, hf⟩

theorem mem_allRefs {t : TableSet} (h : SetCanonical t) (f : Ref) : f ∈ allRefs t ↔ ∃ leaf j, f ∈ refsAt t leaf j := by
  obtain ⟨-, hedges, hstations, hmusters, hlandmarks, hprogramme, hrotations, hnotices, hinterj, -⟩ := h
  simp only [allRefs, List.mem_append, mem_table_refs hedges, mem_table_refs hstations, mem_table_refs hmusters,
    mem_table_refs hlandmarks, mem_table_refs hprogramme, mem_table_refs hrotations, mem_table_refs hnotices,
    mem_table_refs hinterj]
  constructor
  · rintro (((((((⟨j, hf⟩ | ⟨j, hf⟩) | ⟨j, hf⟩) | ⟨j, hf⟩) | ⟨j, hf⟩) | ⟨j, hf⟩) | ⟨j, hf⟩) | ⟨j, hf⟩)
    exacts [⟨2, j, hf⟩, ⟨3, j, hf⟩, ⟨4, j, hf⟩, ⟨5, j, hf⟩, ⟨6, j, hf⟩, ⟨7, j, hf⟩, ⟨8, j, hf⟩, ⟨9, j, hf⟩]
  · rintro ⟨leaf, j, hf⟩
    unfold refsAt at hf
    split at hf
    · exact .inl (.inl (.inl (.inl (.inl (.inl (.inl ⟨j, hf⟩))))))
    · exact .inl (.inl (.inl (.inl (.inl (.inl (.inr ⟨j, hf⟩))))))
    · exact .inl (.inl (.inl (.inl (.inl (.inr ⟨j, hf⟩)))))
    · exact .inl (.inl (.inl (.inl (.inr ⟨j, hf⟩))))
    · exact .inl (.inl (.inl (.inr ⟨j, hf⟩)))
    · exact .inl (.inl (.inr ⟨j, hf⟩))
    · exact .inl (.inr ⟨j, hf⟩)
    · exact .inr ⟨j, hf⟩
    · cases hf

theorem dangling_iff {t : TableSet} (h : SetCanonical t) (r : Staged) :
    dangling t r = true ↔ (∃ f ∈ refsAt t r.leaf (tableIndex r), refPresent t f = false)
      ∨ ∃ f, refOf r.leaf (tableIndex r) = some f ∧ refPresent t f = false ∧ ∃ leaf j, f ∈ refsAt t leaf j := by
  unfold dangling
  dsimp only
  rw [Bool.or_eq_true, List.any_eq_true]
  refine or_congr (by simp only [Bool.not_eq_true']) ?_
  cases refOf r.leaf (tableIndex r) with
  | none => simp
  | some f => simp [mem_allRefs h]

section Refs

variable (t : TableSet) (i : Nat) (f : Ref)

theorem mem_edgeRefs {g : EdgeRec} (h : tblGet t.edges i = some g) : f ∈ refsAt t 2 i ↔ f = .node g.nodeA ∨ f = .node g.nodeB := by
  simp only [refsAt, h, Option.map_some, Option.getD_some, edgeRefs, List.mem_cons, List.not_mem_nil, or_false]

theorem mem_stationRefs {st : StationRec} (h : tblGet t.stations i = some st) :
    f ∈ refsAt t 3 i ↔ f = .node st.node ∨ (∃ e ∈ st.exits, f = .edge e.1)
      ∨ st.kind = .cabin ∧ f = .muster st.assigned
      ∨ st.kind ≠ .cabin ∧ st.rotation ≠ 0 ∧ f = .rotation st.rotation
      ∨ (∃ l ∈ st.landmarks, f = .landmark l) ∨ ∃ k ∈ st.served, f = .muster k := by
  have hrefs : refsAt t 3 i = stationRefs st := by simp only [refsAt, h, Option.map_some, Option.getD_some]
  rw [hrefs, stationRefs]
  cases hkind : st.kind with
  | cabin => simp [@eq_comm Ref _ f]
  | waypoint | lobby =>
    by_cases hrotation : st.rotation = 0
    · simp [hrotation, @eq_comm Ref _ f]
    · simp [hrotation, @eq_comm Ref _ f]

theorem mem_musterRefs {k : MusterRec} (h : tblGet t.musters i = some k) :
    f ∈ refsAt t 4 i ↔ f = .node k.node ∨ ∃ a, k.alternate = some a ∧ f = .muster a := by
  simp only [refsAt, h, Option.map_some, Option.getD_some, musterRefs, List.mem_cons, Option.mem_toList,
    Option.map_eq_some_iff, @eq_comm Ref _ f]

theorem mem_landmarkRefs {l : LandmarkRec} (h : tblGet t.landmarks i = some l) : f ∈ refsAt t 5 i ↔ f = .node l.node := by
  simp only [refsAt, h, Option.map_some, Option.getD_some, landmarkRefs, List.mem_singleton]

theorem mem_programmeRefs {e : ProgRec} (h : tblGet t.programme i = some e) :
    f ∈ refsAt t 6 i ↔ ∃ v, e.venue = some v ∧ f = .node v := by
  simp only [refsAt, h, Option.map_some, Option.getD_some, programmeRefs, Option.mem_toList, Option.map_eq_some_iff,
    @eq_comm Ref _ f]

theorem mem_stepRefs (st : RotStep) : f ∈ stepRefs st ↔ ∃ k d, st = .notice k d ∧ f = .notice k := by
  cases st <;> simp [stepRefs]

theorem mem_rotationRefs {q : RotationRec} (h : tblGet t.rotations i = some q) :
    f ∈ refsAt t 7 i ↔ ∃ k d, RotStep.notice k d ∈ q.steps ∧ f = .notice k := by
  simp only [refsAt, h, Option.map_some, Option.getD_some, rotationRefs, List.mem_flatMap, mem_stepRefs]
  constructor
  · rintro ⟨st, hst, k, d, rfl, hf⟩
    exact ⟨k, d, hst, hf⟩
  · rintro ⟨k, d, hst, hf⟩
    exact ⟨_, hst, k, d, rfl, hf⟩

theorem mem_noticeRefs {n : NoticeRec} (h : tblGet t.notices i = some n) :
    f ∈ refsAt t 8 i ↔ ∃ d, n.dest = some d ∧ f = .node d := by
  simp only [refsAt, h, Option.map_some, Option.getD_some, noticeRefs, Option.mem_toList, Option.map_eq_some_iff,
    @eq_comm Ref _ f]

theorem mem_interjRefs {j : InterjRec} (h : tblGet t.interjections i = some j) : f ∈ refsAt t 9 i ↔ f = .notice j.notice := by
  simp only [refsAt, h, Option.map_some, Option.getD_some, interjRefs, List.mem_singleton]

end Refs

/-! ## Repetitions (R7, R13, R47) -/

theorem hasRepeat_iff (l : List Nat) : hasRepeat l = true ↔ ¬l.Nodup := by
  rw [hasRepeat, Bool.not_eq_true', decide_eq_false_iff_not]

theorem duplicate_station {t : TableSet} {all : List Staged} {r : Staged} {st : StationRec} (hleaf : r.leaf = 3)
    (h : tblGet t.stations (tableIndex r) = some st) :
    duplicate t all r = true ↔ ¬(st.exits.map Prod.fst).Nodup ∨ ¬st.landmarks.Nodup ∨ ¬st.served.Nodup := by
  simp only [duplicate, hleaf, h, Option.map_some, Option.getD_some, dupStation, Bool.or_eq_true, hasRepeat_iff, or_assoc]

/-- A key shared with another record, in terms of the table that holds it (R168). -/
theorem sharesKey_iff {α : Type} {t : Tbl α} (hsorted : tblSorted t = true) (key : α → Nat) (stagedAt : Nat → Bool) (i k : Nat) :
    sharesKey (t.map fun e => (e.1, key e.2)) stagedAt i k = true ↔
      ∃ j a, tblGet t j = some a ∧ key a = k ∧ (j < i ∨ i < j ∧ stagedAt j = false) := by
  simp only [sharesKey, List.any_eq_true, List.mem_map, Bool.and_eq_true, Bool.or_eq_true, decide_eq_true_eq, Bool.not_eq_true']
  constructor
  · rintro ⟨-, ⟨⟨j, a⟩, hmem, rfl⟩, hkey, hat⟩
    exact ⟨j, a, tblGet_of_mem hsorted hmem, hkey, hat⟩
  · rintro ⟨j, a, hget, hkey, hat⟩
    exact ⟨(j, key a), ⟨(j, a), get_mem hget, rfl⟩, hkey, hat⟩

theorem duplicate_muster {t : TableSet} (hsorted : tblSorted t.musters = true) {all : List Staged} {r : Staged} {k : MusterRec}
    (hleaf : r.leaf = 4) (h : tblGet t.musters (tableIndex r) = some k) :
    duplicate t all r = true ↔ ∃ j l, tblGet t.musters j = some l ∧ l.node = k.node
      ∧ (j < tableIndex r ∨ tableIndex r < j ∧ isStaged all 4 0 j = false) := by
  rw [← sharesKey_iff hsorted MusterRec.node]
  simp only [duplicate, hleaf, h, Option.map_some, Option.getD_some]

theorem duplicate_clock {t : TableSet} (hsorted : tblSorted t.clockChanges = true) {all : List Staged} {r : Staged} {c : ClockRec}
    (hleaf : r.leaf = 10) (h : tblGet t.clockChanges (tableIndex r) = some c) :
    duplicate t all r = true ↔ ∃ j d, tblGet t.clockChanges j = some d ∧ d.atMinute = c.atMinute
      ∧ (j < tableIndex r ∨ tableIndex r < j ∧ isStaged all 10 0 j = false) := by
  rw [← sharesKey_iff hsorted ClockRec.atMinute]
  simp only [duplicate, hleaf, h, Option.map_some, Option.getD_some]

theorem duplicate_other {t : TableSet} {all : List Staged} {r : Staged} (h3 : r.leaf ≠ 3) (h4 : r.leaf ≠ 4) (h10 : r.leaf ≠ 10) :
    duplicate t all r = false := by
  unfold duplicate
  dsimp only
  split
  · rename_i h
    exact absurd h h3
  · rename_i h
    exact absurd h h4
  · rename_i h
    exact absurd h h10
  · rfl

/-! ## The set after the edition (R167) -/

section Install

variable {α : Type} {leaf : Nat} {parse : List Byte → α}

/-- One staged record in the table of its leaf. -/
def installTable (leaf : Nat) (parse : List Byte → α) (t : Tbl α) (r : Staged) : Tbl α :=
  if r.leaf = leaf then tblSet t (tableIndex r) ((liveBytes r).map parse) else t

theorem installTable_sorted {t : Tbl α} (h : tblSorted t = true) (r : Staged) : tblSorted (installTable leaf parse t r) = true := by
  unfold installTable
  split
  · exact sorted_set h _ _
  · exact h

theorem installTable_get {t : Tbl α} (h : tblSorted t = true) (r : Staged) (i : Nat) :
    tblGet (installTable leaf parse t r) i =
      if r.leaf = leaf ∧ tableIndex r = i then (liveBytes r).map parse else tblGet t i := by
  unfold installTable
  by_cases hleaf : r.leaf = leaf
  · rw [if_pos hleaf, tblGet_set h]
    by_cases hi : i = tableIndex r
    · rw [if_pos hi, if_pos ⟨hleaf, hi.symm⟩]
    · rw [if_neg hi, if_neg fun h => hi h.2.symm]
  · rw [if_neg hleaf, if_neg fun h => hleaf h.1]

/-- Two staged records stand at different places. -/
def Apart (a b : Staged) : Prop := ¬(a.leaf = b.leaf ∧ tableIndex a = tableIndex b)

theorem replaced_fold {staged : List Staged} (hapart : staged.Pairwise Apart) {t : Tbl α} (h : tblSorted t = true) :
    Replaced staged leaf parse t (staged.foldl (installTable leaf parse) t) := by
  induction staged generalizing t with
  | nil => exact fun i => ⟨fun r hr => (nomatch hr), fun _ => rfl⟩
  | cons r rest ih =>
    obtain ⟨hr, hrest⟩ := List.pairwise_cons.mp hapart
    have ih := ih hrest (installTable_sorted (leaf := leaf) (parse := parse) h r)
    intro i
    obtain ⟨hstaged, hother⟩ := ih i
    refine ⟨fun q hq hleaf hi => ?_, fun hnone => ?_⟩
    · obtain rfl | hq := List.mem_cons.mp hq
      · have hlast := hother fun a ha haleaf hai => hr a ha ⟨hleaf.trans haleaf.symm, hi.trans hai.symm⟩
        rw [installTable_get h, if_pos ⟨hleaf, hi⟩] at hlast
        exact hlast
      · exact hstaged q hq hleaf hi
    · have hkept := hother fun a ha => hnone a (List.mem_cons_of_mem r ha)
      rw [installTable_get h, if_neg fun hat => hnone r List.mem_cons_self hat.1 hat.2] at hkept
      exact hkept

end Install

/-- The Settings after one staged record (R15). -/
def installSettings (c : Settings) (r : Staged) : Settings :=
  if r.leaf = 11 then (r.bytes.map parseSettings).getD defaultSettings else c

/-- One staged record changes the table of its own leaf alone (R167). -/
theorem installStaged_eq (t : TableSet) (r : Staged) : installStaged t r =
    { nodes := installTable 1 parseNode t.nodes r, edges := installTable 2 parseEdge t.edges r
      stations := installTable 3 parseStation t.stations r, musters := installTable 4 parseMuster t.musters r
      landmarks := installTable 5 parseLandmark t.landmarks r, settings := installSettings t.settings r
      programme := installTable 6 parseProgramme t.programme r, rotations := installTable 7 parseRotation t.rotations r
      notices := installTable 8 parseNotice t.notices r, interjections := installTable 9 parseInterj t.interjections r
      clockChanges := installTable 10 parseClock t.clockChanges r } := by
  unfold installStaged
  dsimp only
  split
  case h_12 h1 h2 h3 h4 h5 h6 h7 h8 h9 h10 h11 =>
    simp only [installTable, installSettings, if_neg h1, if_neg h2, if_neg h3, if_neg h4, if_neg h5, if_neg h6, if_neg h7,
      if_neg h8, if_neg h9, if_neg h10, if_neg h11]
  case h_11 h =>
    simp only [installTable, installSettings, h, if_true, Nat.reduceEqDiff, if_false]
    cases r.bytes <;> rfl
  all_goals
    rename_i h
    simp only [installTable, installSettings, h, if_true, Nat.reduceEqDiff, if_false]

theorem postEdition_fold {β : Type} (staged : List Staged) (t : TableSet) (field : TableSet → β) (put : β → Staged → β)
    (h : ∀ u r, field (installStaged u r) = put (field u) r) : field (postEdition staged t) = staged.foldl put (field t) := by
  induction staged generalizing t with
  | nil => rfl
  | cons r rest ih => exact (ih (installStaged t r)).trans (by rw [h]; rfl)

theorem postEdition_table {α : Type} {leaf : Nat} {parse : List Byte → α} {staged : List Staged} {t : TableSet}
    (field : TableSet → Tbl α) (h : ∀ u r, field (installStaged u r) = installTable leaf parse (field u) r)
    (hapart : staged.Pairwise Apart) (hsorted : tblSorted (field t) = true) :
    Replaced staged leaf parse (field t) (field (postEdition staged t)) := by
  rw [postEdition_fold staged t field _ h]
  exact replaced_fold hapart hsorted

theorem postEdition_settings (staged : List Staged) (t : TableSet) :
    (postEdition staged t).settings = staged.foldl installSettings t.settings :=
  postEdition_fold staged t TableSet.settings installSettings fun u r => by rw [installStaged_eq]

theorem settings_fold_one {staged : List Staged} {r : Staged} (hleaf : r.leaf = 11) (hone : ∀ q ∈ staged, q.leaf = 11 → q = r)
    (c : Settings) (h : r ∈ staged ∨ c = (r.bytes.map parseSettings).getD defaultSettings) :
    staged.foldl installSettings c = (r.bytes.map parseSettings).getD defaultSettings := by
  induction staged generalizing c with
  | nil => exact h.resolve_left fun hr => nomatch hr
  | cons q rest ih =>
    refine ih (fun a ha => hone a (List.mem_cons_of_mem q ha)) _ ?_
    by_cases hq : q.leaf = 11
    · rw [hone q List.mem_cons_self hq, installSettings, if_pos hleaf]
      exact .inr rfl
    · rw [installSettings, if_neg hq]
      exact h.imp_left fun hr => (List.mem_cons.mp hr).resolve_left fun hrq => hq (by rw [← hrq]; exact hleaf)

theorem settings_fold_none {staged : List Staged} (h : ∀ r ∈ staged, r.leaf ≠ 11) (c : Settings) :
    staged.foldl installSettings c = c := by
  induction staged with
  | nil => rfl
  | cons r rest ih =>
    rw [List.foldl_cons, installSettings, if_neg (h r List.mem_cons_self)]
    exact ih fun a ha => h a (List.mem_cons_of_mem r ha)

/-! ## The settled obligation -/

/-- Settles O46. -/
theorem validationCharges : Obligations.ValidationCharges := by
  refine ⟨fun t staged all => ⟨validate_none_iff t staged all, ?_⟩, fun _ _ _ => rfl, ?_,
    fun t i f => ⟨fun _ => mem_edgeRefs t i f, fun _ => mem_stationRefs t i f, fun _ => mem_musterRefs t i f,
      fun _ => mem_landmarkRefs t i f, fun _ => mem_programmeRefs t i f, fun _ => mem_rotationRefs t i f,
      fun _ => mem_noticeRefs t i f, fun _ => mem_interjRefs t i f⟩, ?_⟩
  · rintro pre r post reason rfl hpre h
    exact validate_first hpre h
  · rintro t all r i hcanon rfl
    obtain ⟨-, -, -, hmusters, -, -, -, -, -, hclock⟩ := id hcanon
    exact ⟨dangling_iff hcanon r, fun st => duplicate_station, fun k => duplicate_muster hmusters,
      fun c => duplicate_clock hclock, duplicate_other⟩
  · rintro t u staged hcanon rfl hapart
    obtain ⟨hnodes, hedges, hstations, hmusters, hlandmarks, hprogramme, hrotations, hnotices, hinterj, hclock⟩ := hcanon
    refine ⟨postEdition_table TableSet.nodes ?_ hapart hnodes, postEdition_table TableSet.edges ?_ hapart hedges,
      postEdition_table TableSet.stations ?_ hapart hstations, postEdition_table TableSet.musters ?_ hapart hmusters,
      postEdition_table TableSet.landmarks ?_ hapart hlandmarks, postEdition_table TableSet.programme ?_ hapart hprogramme,
      postEdition_table TableSet.rotations ?_ hapart hrotations, postEdition_table TableSet.notices ?_ hapart hnotices,
      postEdition_table TableSet.interjections ?_ hapart hinterj, postEdition_table TableSet.clockChanges ?_ hapart hclock,
      fun r hr hleaf hone => ?_, fun hnone => ?_⟩
    case refine_11 => rw [postEdition_settings, settings_fold_one hleaf hone _ (.inl hr)]
    case refine_12 => rw [postEdition_settings, settings_fold_none hnone]
    all_goals exact fun u r => by rw [installStaged_eq]

end Sys2Proof.Machine

/-! PROOFS. The tests that end a commit (R66, R68, R72, R84, R142): what they may change, with the pages they compose. -/

namespace Sys2Proof.Machine

open Sys2Proof.Safety

/-! ## Compositions leave a station that is not configured alone -/

/-- From `s` to `t` the Page Composer changed composition records of configured stations alone. -/
structure Composes (s t : State) : Prop where
  sms : t.sms = s.sms
  tables : { t.pco with pages := s.pco.pages } = s.pco
  unconfigured : ∀ x, tblGet s.sms.stations x = none → pageRec t.pco x = pageRec s.pco x

theorem composes_of_same {s t : State} (hsms : t.sms = s.sms) (hpco : t.pco = s.pco) : Composes s t :=
  ⟨hsms, by rw [hpco], fun _ _ => by rw [hpco]⟩

theorem Composes.refl (s : State) : Composes s s := composes_of_same rfl rfl

theorem Composes.trans {s t u : State} (h : Composes s t) (k : Composes t u) : Composes s u where
  sms := k.sms.trans h.sms
  tables := (congrArg (fun v : PcoState => { v with pages := s.pco.pages }) k.tables).trans h.tables
  unconfigured x hx := (k.unconfigured x (by rw [h.sms]; exact hx)).trans (h.unconfigured x hx)

theorem composes_composeMarked (m : List Nat) (s : State) : Composes s (composeMarked m s) :=
  ⟨rfl, rfl, fun _ hx => composeMarked_pageRec_unconfigured m hx⟩

theorem composes_composeEach {α : Type} (l : List α) (f : State → α → List Nat) (s : State) :
    Composes s (l.foldl (fun t y => composeMarked (f t y) t) s) := by
  induction l generalizing s with
  | nil => exact Composes.refl s
  | cons y rest ih => exact (composes_composeMarked (f s y) s).trans (ih _)

theorem composes_timeNotice (g : PguState) (s : State) : Composes s (timeNotice g s) := by
  rw [timeNotice_eq]
  split
  · exact composes_composeMarked _ s
  · exact Composes.refl s

theorem composes_listNotices (g : PguState) (anew : List Nat) (s : State) : Composes s (listNotices g anew s) := by
  rw [listNotices_eq]
  exact composes_composeEach _ _ s

theorem composes_mapNotices (c : MscState) (s : State) : Composes s (mapNotices c s) := by
  rw [mapNotices_eq]
  exact composes_composeEach _ (fun _ y => [y]) s

theorem composes_announceMuster (s : State) : Composes s (announceMuster s) :=
  (composes_composeMarked (allStations s) s).trans (composes_of_same rfl rfl)

theorem composes_enterMustering (s : State) : Composes s (enterMustering s) :=
  (composes_of_same rfl rfl : Composes s { s with msc := { s.msc with state := .mustering, calledTimer := none } }).trans
    (composes_announceMuster _)

theorem composes_completeTest (s : State) : Composes s (completeTest s) := by
  rw [completeTest_eq]
  split
  · exact composes_enterMustering s
  · exact Composes.refl s

theorem composes_callMuster (k : MusterKind) (s : State) : Composes s (callMuster k s) := by
  have hbuilt (u : State) (hsms : u.sms = s.sms) (hpco : u.pco = s.pco) :
      Composes s (mapNotices s.msc (announceMuster u)) :=
    (composes_of_same hsms hpco).trans ((composes_announceMuster u).trans (composes_mapNotices _ _))
  have htold : Composes s (callTold k s) := by
    unfold callTold
    split
    · exact hbuilt (recomputeMap (claimOp { s with msc := calledMsc k s.msc })) rfl rfl
    · exact hbuilt { s with msc := calledMsc k s.msc } rfl rfl
  rw [callMuster_eq]
  refine htold.trans (Composes.trans ?_ (composes_completeTest _))
  exact composes_of_same (musterResume_sms _) (musterResume_pco _)

theorem composes_escalate (s : State) : Composes s (escalate s) := by
  rw [escalate_eq]
  refine Composes.trans ?_ (composes_completeTest _)
  exact (composes_of_same rfl rfl : Composes s { s with msc := escalatedMsc s.msc }).trans (composes_announceMuster _)

/-! ## What the tests of a commit may change -/

/-- The claims and the map stand, or a call from STANDBY has made the MUSTER claims (R35, R70, R79, R83). -/
def RoutesTested (s t : State) : Prop :=
  (t.rsv = s.rsv ∧ otherCounts t.xu = otherCounts s.xu ∧ t.msc.map = s.msc.map
      ∧ (t.msc.state = .standby ↔ s.msc.state = .standby))
    ∨ s.msc.state = .standby ∧ t.msc.state ≠ .standby ∧ t.rsv = claimRsv (musterClaims s.sms) s.rsv

/-- A line record stands, but that the reserve regime may shed a station that is not essential (R142). -/
def RecTested (s t : State) (x : Nat) : Prop :=
  lineRec t.lcs x = lineRec s.lcs x
    ∨ lineRec t.lcs x = { lineRec s.lcs x with shed := true } ∧ s.msc.reserve = true
      ∧ ∃ st, tblGet s.sms.stations x = some st ∧ st.essential = false

/-- What the tests that end a commit leave of the state they find. -/
structure TestsTaken (s t : State) : Prop where
  blocks : { t with rsv := s.rsv, msc := s.msc, pco := s.pco, lcs := s.lcs, xu := s.xu } = s
  composes : Composes s t
  shown : ∀ x, PageShown s x → PageShown t x
  reserve : t.msc.reserve = s.msc.reserve
  routes : RoutesTested s t
  txns : t.lcs.lines.map LineCtl.txn = s.lcs.lines.map LineCtl.txn
  recs : ∀ x, RecTested s t x

theorem RoutesTested.trans {s t u : State} (hsms : t.sms = s.sms) (h : RoutesTested s t) (k : RoutesTested t u) :
    RoutesTested s u := by
  obtain ⟨hrsv, hcounts, hmap, hstate⟩ | ⟨hs, ht, hrsv⟩ := h
  · obtain ⟨krsv, kcounts, kmap, kstate⟩ | ⟨ks, kt, krsv⟩ := k
    · exact .inl ⟨krsv.trans hrsv, kcounts.trans hcounts, kmap.trans hmap, kstate.trans hstate⟩
    · exact .inr ⟨hstate.1 ks, kt, by rw [krsv, hrsv, hsms]⟩
  · obtain ⟨krsv, -, -, kstate⟩ | ⟨ks, -, -⟩ := k
    · exact .inr ⟨hs, fun hu => ht (kstate.1 hu), krsv.trans hrsv⟩
    · exact absurd ks ht

theorem RecTested.trans {s t u : State} {x : Nat} (hsms : t.sms = s.sms) (hreserve : t.msc.reserve = s.msc.reserve)
    (h : RecTested s t x) (k : RecTested t u x) : RecTested s u x := by
  obtain hkept | ⟨hrec, hr, hst⟩ := h
  · obtain kkept | ⟨krec, kr, kst⟩ := k
    · exact .inl (kkept.trans hkept)
    · exact .inr ⟨by rw [krec, hkept], hreserve ▸ kr, hsms ▸ kst⟩
  · obtain kkept | ⟨krec, -, -⟩ := k
    · exact .inr ⟨kkept.trans hrec, hr, hst⟩
    · exact .inr ⟨by rw [krec, hrec], hr, hst⟩

theorem TestsTaken.refl (s : State) : TestsTaken s s where
  blocks := rfl
  composes := Composes.refl s
  shown _ h := h
  reserve := rfl
  routes := .inl ⟨rfl, rfl, rfl, Iff.rfl⟩
  txns := rfl
  recs _ := .inl rfl

theorem TestsTaken.trans {s t u : State} (h : TestsTaken s t) (k : TestsTaken t u) : TestsTaken s u where
  blocks := (congrArg (fun v : State => { v with rsv := s.rsv, msc := s.msc, pco := s.pco, lcs := s.lcs, xu := s.xu })
    k.blocks).trans h.blocks
  composes := h.composes.trans k.composes
  shown x hx := k.shown x (h.shown x hx)
  reserve := k.reserve.trans h.reserve
  routes := h.routes.trans h.composes.sms k.routes
  txns := k.txns.trans h.txns
  recs x := (h.recs x).trans h.composes.sms h.reserve (k.recs x)

/-! ## Each of the tests -/

theorem LinesKept.txns {l m : LcsState} (h : LinesKept l m) : m.lines.map LineCtl.txn = l.lines.map LineCtl.txn := by
  obtain ⟨-, hlines | hlines⟩ := h
  · rw [hlines]
  · rw [hlines, List.map_map]
    rfl

theorem testsTaken_enterMustering {s : State} (hstate : s.msc.state = .called) : TestsTaken s (enterMustering s) where
  blocks := rfl
  composes := composes_enterMustering s
  shown x _ := pagesShown_enterMustering s x
  reserve := rfl
  routes := .inl ⟨rfl, otherCounts_enterMustering s, rfl, by rw [hstate]; exact ⟨nofun, nofun⟩⟩
  txns := rfl
  recs _ := .inl rfl

theorem testsTaken_escalate {s : State} (hstate : s.msc.state = .called ∨ s.msc.state = .mustering) :
    TestsTaken s (escalate s) := by
  have hleft := escalatedFrom_escalate s
  have hmap : (escalate s).msc.map = s.msc.map := hleft.2.2.2.2.2.1
  have hmuster : (escalate s).msc.state = .called ∨ (escalate s).msc.state = .mustering :=
    escalatedFrom_mustering (t := flush (escalate s)) hleft hstate
  refine ⟨escalate_frame s, composes_escalate s, fun x _ => pagesShown_escalate s x, ?_, ?_, by rw [escalate_lcs], ?_⟩
  · by_cases h : s.msc.state = .called ∧ AllConfirmed s (nextSerial s.msc.serial)
    · rw [escalate_of_ended h.1 h.2]; rfl
    · rw [escalate_of_not_ended h]; rfl
  · refine .inl ⟨escalate_rsv s, otherCounts_escalate s, hmap, ?_, ?_⟩
    · intro h; rw [h] at hmuster; exact hmuster.elim nofun nofun
    · intro h; rw [h] at hstate; exact hstate.elim nofun nofun
  · intro x
    rw [RecTested, escalate_lcs]
    exact .inl rfl

theorem otherCounts_musterResume (s : State) : otherCounts (musterResume s).xu = otherCounts s.xu := by
  have hrun : otherCounts (enterRunning s).xu = otherCounts s.xu := by
    cases hbase : baseValid s.xu with
    | true => rw [enterRunning_of_baseValid hbase]; exact otherCounts_reloadSurvey _
    | false => rw [enterRunning_of_invalid hbase]; exact otherCounts_noBase _ _
  have hrequest : otherCounts (runRequest s).xu = otherCounts s.xu := by
    unfold runRequest
    split
    · rfl
    · exact hrun
    · split
      · exact hrun
      · exact otherCounts_noBase _ _
  unfold musterResume
  split
  · rfl
  · exact (otherCounts_latch _ _).trans hrun
  · exact (otherCounts_latch _ _).trans hrequest

/-- A call that makes no claims leaves every count but UNLISTED_EXIT (R70). -/
theorem otherCounts_callMuster {k : MusterKind} {s : State} (h : s.msc.state ≠ .standby) :
    otherCounts (callMuster k s).xu = otherCounts s.xu := by
  rw [callMuster_eq, otherCounts_completeTest, otherCounts_musterResume, callTold, if_neg h, otherCounts_mapNotices,
    otherCounts_announceMuster]

theorem callMuster_frame (k : MusterKind) (s : State) :
    { callMuster k s with rsv := s.rsv, msc := s.msc, pco := s.pco, lcs := s.lcs, xu := s.xu } = s := by
  unfold callMuster
  rfl

theorem testsTaken_callMuster {s : State} (k : MusterKind) (hstate : s.msc.state = .standby ∨ s.msc.state = .standingDown) :
    TestsTaken s (callMuster k s) := by
  have hleft := calledFrom_callMuster (k := k) (s := s)
  have hmuster : (callMuster k s).msc.state ≠ .standby := by
    have := calledFrom_mustering hleft
    intro h
    rw [show (flush (callMuster k s)).msc = (callMuster k s).msc from rfl, h] at this
    exact this.elim nofun nofun
  obtain ⟨-, -, -, -, -, -, hdown, -, hreserve⟩ := hleft
  refine ⟨callMuster_frame k s, composes_callMuster k s, fun x _ => pagesShown_callMuster (k := k) (s := s) x, hreserve, ?_,
    (callMuster_kept k s).txns, fun x => .inl ((callMuster_kept k s).lineRec x)⟩
  obtain h | h := hstate
  · refine .inr ⟨h, hmuster, ?_⟩
    rw [callMuster_rsv, if_pos h]
  · have hne : s.msc.state ≠ .standby := by rw [h]; exact nofun
    obtain ⟨hmap, hrsv⟩ := hdown h
    exact .inl ⟨hrsv, otherCounts_callMuster hne, hmap, fun hs => absurd hs hmuster, fun hs => absurd hs hne⟩

theorem testsTaken_realCall (s : State) : TestsTaken s (realCall s) := by
  obtain hcalling | ⟨hmuster, hdrill⟩ | ⟨hmuster, hreal⟩ := muster_cases s
  · rw [realCall_of_calling hcalling]
    exact testsTaken_callMuster .real hcalling
  · rw [realCall_of_drill hmuster hdrill]
    exact testsTaken_escalate hmuster
  · rw [realCall_of_real hmuster hreal]
    exact TestsTaken.refl s

theorem testsTaken_levelTest (s : State) : TestsTaken s (levelTest s) := by
  by_cases h : AlarmDemands s
  · rw [levelTest_of_demands h]
    exact testsTaken_realCall s
  · rw [levelTest_of_not h]
    exact TestsTaken.refl s

theorem testsTaken_recount (s : State) : TestsTaken s (recount s) := by
  obtain h | ⟨hcalled, h | h⟩ := recount_cases s
  · rw [h]
    exact TestsTaken.refl s
  · rw [h]
    exact testsTaken_enterMustering hcalled
  · rw [h]
    exact (testsTaken_enterMustering hcalled).trans (testsTaken_escalate (.inr rfl))

theorem shedCondition_nonEssential {s : State} {x : Nat} {r : LineRec} (h : shedCondition s x r = true) :
    s.msc.reserve = true ∧ ∃ st, tblGet s.sms.stations x = some st ∧ st.essential = false := by
  unfold shedCondition at h
  cases hst : tblGet s.sms.stations x with
  | none => rw [hst] at h; cases h
  | some st =>
    rw [hst] at h
    have hexcluded : excluded s st = true := (Bool.and_eq_true_iff.mp h).1
    unfold excluded at hexcluded
    obtain ⟨hreserve, hess⟩ := Bool.and_eq_true_iff.mp hexcluded
    exact ⟨hreserve, st, rfl, by rwa [Bool.not_eq_true'] at hess⟩

theorem testsTaken_shedTests (s : State) : TestsTaken s (shedTests s) where
  blocks := rfl
  composes := composes_of_same rfl rfl
  shown _ h := pageShown_of_same h rfl rfl rfl rfl rfl
  reserve := rfl
  routes := .inl ⟨rfl, rfl, rfl, Iff.rfl⟩
  txns := rfl
  recs x := (shedTests_lineRec s x).imp_right fun ⟨hrec, hshed⟩ => ⟨hrec, shedCondition_nonEssential hshed⟩

theorem testsTaken_reportCause (c : Cause) (s : State) : TestsTaken s (reportCause c s) where
  blocks := rfl
  composes := composes_of_same rfl rfl
  shown _ h := pageShown_of_same h rfl rfl rfl rfl rfl
  reserve := rfl
  routes := .inl ⟨rfl, otherCounts_reportCause c s, rfl, Iff.rfl⟩
  txns := rfl
  recs _ := .inl rfl

/-! ## The tests that end a commit -/

/-- The level test of a commit (R68). -/
def commitSensed (before s : State) : State :=
  if before.sms.settings.alarmSense ≠ s.sms.settings.alarmSense ∧ s.sms.settings.alarmSense = .level then levelTest s else s

theorem testsTaken_commitSensed (before s : State) : TestsTaken s (commitSensed before s) := by
  unfold commitSensed
  split
  · exact testsTaken_levelTest s
  · exact TestsTaken.refl s

theorem testsTaken_commitReported (before s : State) :
    TestsTaken s (reportCause .settled (recount (shedTests (commitSensed before s)))) :=
  (testsTaken_commitSensed before s).trans
    ((testsTaken_shedTests _).trans ((testsTaken_recount _).trans (testsTaken_reportCause .settled _)))

theorem commitTests_eq (before s : State) :
    commitTests before s = reportCause .settled (recount (shedTests (commitSensed before s))) :=
  musterBlocks_eq (testsTaken_commitReported before s).blocks

theorem testsTaken_commitTests (before s : State) : TestsTaken s (commitTests before s) := by
  rw [commitTests_eq]
  exact testsTaken_commitReported before s

theorem reportAsked_commitTests (before s : State) : ReportAsked 0 (commitTests before s).xu := by
  rw [commitTests_eq]
  exact reportAsked_reportCause .settled _

end Sys2Proof.Machine

/-! PROOFS. The notices of a commit (R39, R50, R62, R83, R94, R95): the pages that they compose. -/

namespace Sys2Proof.Machine

open Sys2Proof.Safety

/-! ## The indices at which two tables differ -/

theorem mem_insertNat {n k : Nat} {l : List Nat} : k ∈ insertNat n l ↔ k = n ∨ k ∈ l := by
  induction l with
  | nil => exact List.mem_cons
  | cons m rest ih =>
    unfold insertNat
    split
    · exact List.mem_cons
    · split
      · rename_i hnm
        subst hnm
        rw [List.mem_cons]
        exact ⟨.inr, fun h => h.elim .inl id⟩
      · rw [List.mem_cons, ih, List.mem_cons]
        exact or_left_comm

theorem mem_sortNats {k : Nat} {l : List Nat} : k ∈ sortNats l ↔ k ∈ l := by
  induction l with
  | nil => exact Iff.rfl
  | cons n rest ih => exact mem_insertNat.trans (List.mem_cons.trans (or_congr_right ih.symm)).symm

theorem mem_changedKeys {α : Type} [DecidableEq α] {a b : Tbl α} {k : Nat} :
    k ∈ changedKeys a b ↔ tblGet a k ≠ tblGet b k := by
  rw [changedKeys, List.mem_filter, decide_eq_true_eq, mem_sortNats, List.mem_append]
  refine and_iff_right_of_imp fun hne => ?_
  cases ha : tblGet a k with
  | some v => exact .inl (mem_keys_of_get ha)
  | none =>
    cases hb : tblGet b k with
    | some v => exact .inr (mem_keys_of_get hb)
    | none => exact absurd (ha.trans hb.symm) hne

/-! ## The notices of a commit, one by one (log 10) -/

/-- After the Route Solver's notices (R39). -/
def noticeSolved (before s : State) : State :=
  if graphChanged before.sms s.sms ∨ before.sms.settings.walkRate ≠ s.sms.settings.walkRate then
    pairNotices (vectorPairs before.rsv.slots) s
  else s

/-- After the notices of changed map entries too (R83). -/
def noticeMapped (before s : State) : State := mapNotices before.msc (noticeSolved before s)

/-- After the commit's own notice too (R94, R95). -/
def noticeMarked (before s : State) : State := composeMarked (commitMarks before (noticeMapped before s)) (noticeMapped before s)

/-- After the TIME notice too (R50). -/
def noticeTimed (before s : State) : State := timeNotice before.pgu (noticeMarked before s)

/-- After the LIST notices too (R62). -/
def noticeListed (before s : State) : State :=
  listNotices before.pgu (listsAnew before.sms.stations s.sms.stations) (noticeTimed before s)

/-- The stations whose rotation position a commit moves (R95). -/
def rotMarks (before : State) (started : List Nat) (s : State) : List Nat :=
  sortNats (movedStations before.pco.rots s.pco.rots ++ started ++ showingChanged before s)

section Notices

variable (before s : State) (started : List Nat)

theorem composes_noticeSolved : Composes s (noticeSolved before s) := by
  unfold noticeSolved
  split
  · exact composes_composeMarked _ s
  · exact Composes.refl s

theorem pagesOnly_noticeSolved : PagesOnly s (noticeSolved before s) := by
  unfold noticeSolved
  split
  · exact pagesOnly_composeMarked _ s
  · exact PagesOnly.refl s

theorem composes_noticeMapped : Composes s (noticeMapped before s) :=
  (composes_noticeSolved before s).trans (composes_mapNotices _ _)

theorem pagesOnly_noticeMapped : PagesOnly s (noticeMapped before s) :=
  (pagesOnly_noticeSolved before s).trans (pagesOnly_mapNotices _ _)

theorem composes_noticeListed : Composes s (noticeListed before s) :=
  (composes_noticeMapped before s).trans ((composes_composeMarked _ _).trans
    ((composes_timeNotice _ _).trans (composes_listNotices _ _ _)))

theorem pagesOnly_noticeTimed : PagesOnly s (noticeTimed before s) :=
  (pagesOnly_noticeMapped before s).trans ((pagesOnly_composeMarked _ _).trans (pagesOnly_timeNotice _ _))

theorem pagesOnly_noticeListed : PagesOnly s (noticeListed before s) :=
  (pagesOnly_noticeTimed before s).trans (pagesOnly_listNotices _ _ _)

theorem commitNotices_eq : commitNotices before started s =
    composeMarked (rotMarks before started (noticeListed before s)) (noticeListed before s) := by
  refine pageBlocks_eq (t := composeMarked (rotMarks before started (noticeListed before s)) (noticeListed before s)) ?_
  exact ((pagesOnly_noticeListed before s).trans (pagesOnly_composeMarked _ _)).blocks

theorem composes_commitNotices : Composes s (commitNotices before started s) := by
  rw [commitNotices_eq]
  exact (composes_noticeListed before s).trans (composes_composeMarked _ _)

theorem pagesOnly_commitNotices : PagesOnly s (commitNotices before started s) := by
  rw [commitNotices_eq]
  exact (pagesOnly_noticeListed before s).trans (pagesOnly_composeMarked _ _)

theorem otherCounts_commitNotices : otherCounts (commitNotices before started s).xu = otherCounts s.xu := by
  have hsolved : otherCounts (noticeSolved before s).xu = otherCounts s.xu := by
    unfold noticeSolved
    split
    · exact otherCounts_composeMarked _ s
    · rfl
  rw [commitNotices_eq, otherCounts_composeMarked, noticeListed, otherCounts_listNotices, noticeTimed,
    otherCounts_timeNotice, noticeMarked, otherCounts_composeMarked, noticeMapped, otherCounts_mapNotices, hsolved]

end Notices

/-! ## Which pages they compose -/

section Shown

variable {before s : State} {started : List Nat} {x : Nat}

theorem shownOrKept_noticeMapped : ShownOrKept s x (noticeMapped before s) := by
  refine shownOrKept_mapNotices ?_ _
  unfold noticeSolved
  split
  · exact shownOrKept_composeMarked (shownOrKept_refl s x) _
  · exact shownOrKept_refl s x

theorem shownOrKept_noticeMarked : ShownOrKept s x (noticeMarked before s) :=
  shownOrKept_composeMarked shownOrKept_noticeMapped _

theorem pageShown_of_noticeListed (h : PageShown (noticeListed before s) x) : PageShown (commitNotices before started s) x := by
  rw [commitNotices_eq]
  exact pageShown_composeMarked h _

theorem pageShown_of_noticeMarked (h : PageShown (noticeMarked before s) x) : PageShown (commitNotices before started s) x :=
  pageShown_of_noticeListed (pageShown_listNotices (pageShown_timeNotice h _) _ _)

theorem pageShown_of_noticeMapped (h : PageShown (noticeMapped before s) x) : PageShown (commitNotices before started s) x :=
  pageShown_of_noticeMarked (pageShown_composeMarked h _)

/-- A page that draws from a slot with a vector follows a change of the graph or of walk_rate (R25, R28, R39). -/
theorem pageShown_commit_drawn {st : StationRec} (hst : tblGet s.sms.stations x = some st)
    (hpage : pageRec s.pco x = pageRec before.pco x) (hdraws : DrawsVector before x)
    (hmoved : graphChanged before.sms s.sms = true ∨ before.sms.settings.walkRate ≠ s.sms.settings.walkRate) :
    PageShown (commitNotices before started s) x := by
  refine pageShown_of_noticeMapped (pageShown_mapNotices ?_ _)
  rw [noticeSolved, if_pos hmoved]
  obtain ⟨sl, hsl, hvector, hdraw⟩ := hdraws
  refine pageShown_marked (mem_drawnFrom hst (mem_vectorPairs.mpr ⟨sl, hsl, hvector, rfl⟩) ?_)
  rw [hpage]
  exact hdraw

/-- Where the own notice of a commit has a reason to mark a station, that notice or the one of its map entry composes it. -/
theorem pageShown_commit_marked {st : StationRec} (hst : tblGet s.sms.stations x = some st)
    (hreason : tblGet before.sms.stations x ≠ tblGet s.sms.stations x
      ∨ ∃ y ∈ (pageRec s.pco x).sources, y ∈ changedSources before s) :
    PageShown (commitNotices before started s) x := by
  have hmapped := pagesOnly_noticeMapped before s
  by_cases hshown : PageShown (noticeMapped before s) x
  · exact pageShown_of_noticeMapped hshown
  · have hkept := shownOrKept_noticeMapped.resolve_left hshown
    refine pageShown_of_noticeMarked (pageShown_marked (List.mem_filter.mpr ⟨mem_keys_of_get (a := st) ?_, ?_⟩))
    · rw [hmapped.sms]
      exact hst
    · refine Bool.and_eq_true_iff.mpr ⟨?_, ?_⟩
      · rw [Bool.not_eq_true', Bool.eq_false_iff]
        intro hcomposed
        refine hshown (pageShown_mapNotices_changed (s := noticeSolved before s) ?_)
        rw [(pagesOnly_noticeSolved before s).msc, ← hmapped.msc]
        exact (List.mem_filter.mp (List.contains_iff_mem.mp hcomposed)).1
      · refine Bool.or_eq_true_iff.mpr (.inl (Bool.or_eq_true_iff.mpr ?_))
        rw [hmapped.sms, hkept]
        refine hreason.imp decide_eq_true fun ⟨y, hy, hchanged⟩ => List.any_eq_true.mpr ⟨y, hy, ?_⟩
        rw [changedSources, hmapped.sms, hmapped.notices]
        exact List.contains_iff_mem.mpr hchanged

/-- The TIME notice reaches a page that shows the ship time (R50). -/
theorem pageShown_commit_time {st : StationRec} (hst : tblGet s.sms.stations x = some st)
    (hsource : Source.time ∈ (pageRec s.pco x).sources) (hmoved : before.pgu.lastTime ≠ s.pgu.lastTime) :
    PageShown (commitNotices before started s) x := by
  have hmarked := (pagesOnly_noticeMapped before s).trans (pagesOnly_composeMarked (commitMarks before (noticeMapped before s)) _)
  refine pageShown_of_noticeListed (pageShown_listNotices ?_ _ _)
  refine pageShown_timeNotice_moved (st := st) (s := s) (t := noticeMarked before s) ?_ shownOrKept_noticeMarked hsource ?_
  · rw [show (noticeMarked before s).sms = s.sms from hmarked.sms]
    exact hst
  · rw [show (noticeMarked before s).pgu = s.pgu from hmarked.pgu]
    exact hmoved

/-- A LIST notice reaches a page that shows the station's list (R62). -/
theorem pageShown_commit_list (hsource : Source.list ∈ (pageRec s.pco x).sources)
    (hsome : tblGet s.pgu.lists x ≠ none) (hmoved : tblGet before.pgu.lists x ≠ tblGet s.pgu.lists x) :
    PageShown (commitNotices before started s) x := by
  refine pageShown_of_noticeListed (pageShown_listNotices_moved (s := s) (t := noticeTimed before s)
    (shownOrKept_timeNotice shownOrKept_noticeMarked _) hsource ?_)
  rw [(pagesOnly_noticeTimed before s).pgu]
  exact mem_changedLists hsome hmoved _

theorem mem_changedSources {y : Source} (h : SourceMoved before s x y) :
    y ∈ changedSources before s ∨ y = .time ∨ y = .list := by
  simp only [changedSources, List.mem_append]
  cases y with
  | musterStation i => exact .inl (.inl (.inl (.inl (List.mem_map.mpr ⟨i, mem_changedKeys.mpr h, rfl⟩))))
  | landmark i => exact .inl (.inl (.inl (.inr (List.mem_map.mpr ⟨i, mem_changedKeys.mpr h, rfl⟩))))
  | node i => exact .inl (.inl (.inr (List.mem_map.mpr ⟨i, mem_changedKeys.mpr h, rfl⟩)))
  | notice i => exact .inl (.inr (List.mem_map.mpr ⟨i, mem_changedKeys.mpr h, rfl⟩))
  | list => exact .inr (.inr rfl)
  | time => exact .inr (.inl rfl)

/-- A page whose source the commit changed is composed (R94). -/
theorem pageShown_commit_source {st : StationRec} (hst : tblGet s.sms.stations x = some st) {y : Source}
    (hsource : y ∈ (pageRec s.pco x).sources) (hmoved : SourceMoved before s x y) :
    PageShown (commitNotices before started s) x := by
  obtain hchanged | rfl | rfl := mem_changedSources hmoved
  · exact pageShown_commit_marked hst (.inr ⟨y, hsource, hchanged⟩)
  · exact pageShown_commit_time hst hsource hmoved
  · exact pageShown_commit_list hsource hmoved.1 hmoved.2

/-- A screen whose rotation restarted, moved or shows a changed interjection is composed (R95, R110, R119). -/
theorem pageShown_commit_moved
    (h : x ∈ movedStations before.pco.rots s.pco.rots ∨ x ∈ started ∨ x ∈ showingChanged before s) :
    PageShown (commitNotices before started s) x := by
  have hlisted := pagesOnly_noticeListed before s
  rw [commitNotices_eq]
  refine pageShown_marked (mem_sortNats.mpr ?_)
  rw [showingChanged, allStations, hlisted.rots, hlisted.sms, hlisted.interjections, List.mem_append, List.mem_append]
  exact or_assoc.mpr h

end Shown

end Sys2Proof.Machine

/-! PROOFS. A commit at one instant (R16, R46, R83, R91, R159, R169): tables, numbers, clock, epoch, map and pages. -/

namespace Sys2Proof.Machine

open Sys2Proof.Safety

/-! ## The stages of a commit -/

/-- After the tables, the clock, the line records, the evaluation and the rotations. -/
def commitInstalled (g : Staging) (s : State) : State := (installEdition g s).1

/-- After the epoch, the claims and the map too. -/
def commitRouted (g : Staging) (s : State) : State := commitRoutes s (commitInstalled g s)

/-- After the notices too. -/
def commitTold (g : Staging) (s : State) : State := commitNotices s (installEdition g s).2 (commitRouted g s)

theorem commitEdition_eq (g : Staging) (s : State) : commitEdition g s = commitTests s (commitTold g s) := rfl

theorem exec_validationDone {g : Staging} {s : State} (hphase : s.phase = .operating) (hg : s.xu.stage = some g)
    (hvalidating : g.phase = .validating) : exec .validationDone s = .next (flush (finishValidation g s)) := by
  show execValidationDone s = _
  unfold execValidationDone
  rw [hg]
  exact answer_takes _ hphase (decide_eq_true hvalidating)

theorem finishValidation_rejects {g : Staging} {s : State} {f : Failure}
    (h : validate (postEdition g.staged (tablesOf s)) g.staged g.staged = some f) :
    finishValidation g s = rejectEdition g.number f s := by
  unfold finishValidation
  rw [h]

theorem finishValidation_commits {g : Staging} {s : State}
    (h : validate (postEdition g.staged (tablesOf s)) g.staged g.staged = none) :
    finishValidation g s = commitEdition g s := by
  unfold finishValidation
  rw [h]

section Commit

variable (g : Staging) (s : State)

/-! ## The blocks that the routes, the notices and the tests leave -/

theorem testsTaken_commit : TestsTaken (commitTold g s) (commitEdition g s) := testsTaken_commitTests s _

theorem pagesOnly_commitTold : PagesOnly (commitRouted g s) (commitTold g s) := pagesOnly_commitNotices s _ _

theorem commit_sms : (flush (commitEdition g s)).sms = (commitRouted g s).sms :=
  (congrArg State.sms (testsTaken_commit g s).blocks :).trans (pagesOnly_commitTold g s).sms

theorem commit_pgu : (flush (commitEdition g s)).pgu = (commitInstalled g s).pgu :=
  (congrArg State.pgu (testsTaken_commit g s).blocks :).trans (pagesOnly_commitTold g s).pgu

theorem commit_clk : (flush (commitEdition g s)).clk = commitClock g.clock s.clk :=
  (congrArg State.clk (testsTaken_commit g s).blocks :).trans (pagesOnly_commitTold g s).clk

theorem commit_pco : { (flush (commitEdition g s)).pco with pages := (commitInstalled g s).pco.pages } = (commitInstalled g s).pco :=
  (congrArg (fun v : PcoState => { v with pages := (commitInstalled g s).pco.pages })
    (testsTaken_commit g s).composes.tables).trans (pagesOnly_commitTold g s).tables

theorem commit_tables : tablesOf (flush (commitEdition g s)) = postEdition g.staged (tablesOf s) := commitEdition_tables g s

theorem commit_stations : (flush (commitEdition g s)).sms.stations = (commitInstalled g s).sms.stations :=
  (congrArg SmsState.stations (commit_sms g s) :)

/-! ## Numbers and clock (R46, R159, R169) -/

theorem commit_held : xuHeld (flush (commitEdition g s)).xu = xuHeld (commitXu g.number s.xu) :=
  (flush_held _).trans (commitEdition_held g s)

theorem commit_reported : ReportTold 0 s (flush (commitEdition g s)) :=
  reportTold_flush (reportAsked_commitTests s (commitTold g s)) (baseValid_of_held (commitEdition_held g s) :)

theorem commitClock_none (c : ClockState) : commitClock none c = c := rfl

theorem commitClock_some (v : Word32) (c : ClockState) : (commitClock (some v) c).second = v := rfl

/-! ## The epoch and the map (R16, R83) -/

theorem graphChanged_iff (a b : SmsState) :
    graphChanged a b = true ↔ ¬(b.nodes = a.nodes ∧ b.edges = a.edges ∧ b.settings.normal = a.settings.normal
      ∧ b.settings.muster = a.settings.muster) := by
  simp only [graphChanged, Bool.or_eq_true, decide_eq_true_eq, ne_eq, not_and_or, or_assoc, eq_comm (a := b.nodes),
    eq_comm (a := b.edges), eq_comm (a := b.settings.normal), eq_comm (a := b.settings.muster)]

theorem commitRouted_sms : (commitRouted g s).sms = { (commitInstalled g s).sms with
    epoch := s.sms.epoch + if graphChanged s.sms (commitInstalled g s).sms then 1 else 0 } := by
  unfold commitRouted commitRoutes
  dsimp only
  split
  · rfl
  · exact congrArg (fun e => { (commitInstalled g s).sms with epoch := e }) (add_zero s.sms.epoch).symm

/-- After the epoch alone (R16). -/
def commitRisen : State :=
  if graphChanged s.sms (commitInstalled g s).sms then raiseEpoch (commitInstalled g s) else commitInstalled g s

/-- After the epoch and the claims (R34). -/
def commitClaimed : State := claimOp (commitRisen g s)

theorem commitRouted_rsv : (commitRouted g s).rsv = (commitClaimed g s).rsv := by
  show (if _ then commitClaimed g s else recomputeMap (commitClaimed g s)).rsv = _
  split <;> rfl

theorem commitRouted_xu : (commitRouted g s).xu = (commitClaimed g s).xu := by
  show (if _ then commitClaimed g s else recomputeMap (commitClaimed g s)).xu = _
  split <;> rfl

theorem commitClaimed_msc : (commitClaimed g s).msc = s.msc := by
  show (commitRisen g s).msc = _
  unfold commitRisen
  split <;> rfl

theorem commitRouted_msc : (commitRouted g s).msc =
    if s.sms.stations = (commitInstalled g s).sms.stations ∧ s.sms.musters = (commitInstalled g s).sms.musters
    then s.msc else (recomputeMap (commitClaimed g s)).msc := by
  show (if _ then commitClaimed g s else recomputeMap (commitClaimed g s)).msc = _
  split
  · exact commitClaimed_msc g s
  · rfl

theorem commitRouted_state : (commitRouted g s).msc.state = s.msc.state := by
  rw [commitRouted_msc]
  split
  · rfl
  · exact (congrArg MscState.state (commitClaimed_msc g s) :)

theorem freshMap_commitClaimed (slots : List Slot) :
    freshMap (commitClaimed g s).sms slots = freshMap (commitRouted g s).sms slots := by
  show freshMap (commitRisen g s).sms slots = freshMap (commitInstalled g s).sms slots
  unfold commitRisen
  split <;> rfl

/-- In a muster the map is computed afresh when the stations or the muster stations changed, and stands otherwise (R83). -/
theorem commitRouted_map (hstate : s.msc.state ≠ .standby) :
    (commitRouted g s).msc.map =
      if s.sms.stations = (commitInstalled g s).sms.stations ∧ s.sms.musters = (commitInstalled g s).sms.musters then s.msc.map
      else some (freshMap (commitRouted g s).sms (commitRouted g s).rsv.slots) := by
  rw [commitRouted_msc]
  split
  · rfl
  · rw [← commitClaimed_msc g s] at hstate
    rw [commitRouted_rsv, ← freshMap_commitClaimed]
    exact if_neg hstate

/-! ## The pages of emptied stations (R91) -/

theorem dropPages_fold (l : List Nat) (pages : Tbl PageRec) (x : Nat) :
    tblGetD (l.foldl (fun acc x => tblPut acc x { emptyPageRec with serial := (tblGetD acc x emptyPageRec).serial }) pages) x
        emptyPageRec
      = if x ∈ l then { emptyPageRec with serial := (tblGetD pages x emptyPageRec).serial }
        else tblGetD pages x emptyPageRec := by
  induction l generalizing pages with
  | nil => rfl
  | cons y rest ih =>
    rw [List.foldl_cons, ih]
    by_cases hxy : x = y
    · subst hxy
      rw [tblGetD_put_self, if_pos (List.mem_cons_self ..)]
      exact ite_self _
    · rw [tblGetD_put_ne _ _ _ hxy]
      simp only [List.mem_cons, hxy, false_or]

theorem dropPages_kept {before after : Tbl StationRec} {x : Nat} (pages : Tbl PageRec) (h : tblHas after x = true) :
    tblGetD (dropPages before after pages) x emptyPageRec = tblGetD pages x emptyPageRec := by
  refine (dropPages_fold _ pages x).trans (if_neg fun hx => ?_)
  have hnot := (List.mem_filter.mp hx).2
  rw [h] at hnot
  cases hnot

theorem dropPages_dropped {before after : Tbl StationRec} {x : Nat} (pages : Tbl PageRec) (hbefore : tblHas before x = true)
    (hafter : tblHas after x = false) :
    tblGetD (dropPages before after pages) x emptyPageRec
      = { emptyPageRec with serial := (tblGetD pages x emptyPageRec).serial } := by
  obtain ⟨st, hst⟩ := Option.isSome_iff_exists.mp hbefore
  exact (dropPages_fold _ pages x).trans (if_pos (List.mem_filter.mpr ⟨mem_keys_of_get hst, by rw [hafter]; rfl⟩))

theorem commitInstalled_page_kept {x : Nat} (h : tblHas (commitInstalled g s).sms.stations x = true) :
    pageRec (commitInstalled g s).pco x = pageRec s.pco x := dropPages_kept s.pco.pages h

theorem commitInstalled_page_dropped {x : Nat} (hbefore : tblHas s.sms.stations x = true)
    (hafter : tblHas (commitInstalled g s).sms.stations x = false) :
    pageRec (commitInstalled g s).pco x = { emptyPageRec with serial := (pageRec s.pco x).serial } :=
  dropPages_dropped s.pco.pages hbefore hafter

theorem commit_page_dropped {x : Nat} (hbefore : tblHas s.sms.stations x = true)
    (hafter : tblHas (flush (commitEdition g s)).sms.stations x = false) :
    pageRec (flush (commitEdition g s)).pco x = { emptyPageRec with serial := (pageRec s.pco x).serial } := by
  rw [commit_stations] at hafter
  have hnone : tblGet (commitRouted g s).sms.stations x = none := Option.not_isSome_iff_eq_none.mp (Bool.eq_false_iff.mp hafter)
  have hcomposes : Composes (commitRouted g s) (commitEdition g s) :=
    (composes_commitNotices s (commitRouted g s) _).trans (testsTaken_commit g s).composes
  exact (hcomposes.unconfigured x hnone).trans (commitInstalled_page_dropped g s hbefore hafter)

theorem commit_shown {x : Nat} (h : PageShown (commitTold g s) x) : PageShown (flush (commitEdition g s)) x :=
  pageShown_flush ((testsTaken_commit g s).shown x h)

/-! ## What a commit leaves besides the pages -/

theorem commit_epoch : (flush (commitEdition g s)).sms.epoch =
    s.sms.epoch + if graphChanged s.sms (flush (commitEdition g s)).sms then 1 else 0 := by
  rw [commit_sms, commitRouted_sms]
  rfl

/-- The map of a muster after a commit (R83). -/
theorem commit_map (hstate : s.msc.state ≠ .standby) :
    (flush (commitEdition g s)).msc.map =
      if s.sms.stations = (flush (commitEdition g s)).sms.stations ∧ s.sms.musters = (flush (commitEdition g s)).sms.musters
      then s.msc.map
      else some (freshMap (flush (commitEdition g s)).sms (flush (commitEdition g s)).rsv.slots) := by
  have htold := pagesOnly_commitTold g s
  obtain ⟨hrsv, -, hmap, -⟩ | ⟨hstandby, -, -⟩ := (testsTaken_commit g s).routes
  · have hslots : (flush (commitEdition g s)).rsv = (commitRouted g s).rsv := hrsv.trans htold.rsv
    have hmsc : (flush (commitEdition g s)).msc.map = (commitRouted g s).msc.map := hmap.trans (congrArg MscState.map htold.msc)
    rw [hmsc, hslots, commitRouted_map g s hstate, commit_sms]
    rfl
  · rw [htold.msc, commitRouted_state] at hstandby
    exact absurd hstandby hstate

end Commit

/-! ## A rejection by validation (R168, R171) -/

/-- Validation charges a staged record, with one of its three reasons (R168). -/
theorem validate_charges {t : TableSet} {staged all : List Staged} {f : Failure} (h : validate t staged all = some f) :
    (f.reason = .badField ∨ f.reason = .dangling ∨ f.reason = .duplicate)
      ∧ ∃ r ∈ staged, f.entry = some r.entry ∧ f.record = some r.index ∧ f.leaf = some r.leaf := by
  induction staged with
  | nil => cases h
  | cons r rest ih =>
    rw [validate_cons] at h
    cases hreason : recordReason t all r with
    | none =>
      rw [hreason] at h
      obtain ⟨hthree, q, hq, hcharged⟩ := ih h
      exact ⟨hthree, q, List.mem_cons_of_mem r hq, hcharged⟩
    | some reason =>
      rw [hreason] at h
      obtain rfl := Option.some.inj h
      refine ⟨?_, r, List.mem_cons_self .., rfl, rfl, rfl⟩
      show reason = .badField ∨ reason = .dangling ∨ reason = .duplicate
      unfold recordReason at hreason
      split at hreason
      · exact .inl (Option.some.inj hreason).symm
      · split at hreason
        · exact .inr (.inl (Option.some.inj hreason).symm)
        · obtain ⟨-, hreason⟩ := Option.ite_none_right_eq_some.mp hreason
          exact .inr (.inr (Option.some.inj hreason).symm)

/-! ## The pages of a commit -/

section Pages

variable {g : Staging} {s : State} {x : Nat} {st : StationRec}

theorem commit_routed_station (h : tblGet (flush (commitEdition g s)).sms.stations x = some st) :
    tblGet (commitRouted g s).sms.stations x = some st := by
  rw [commit_sms] at h
  exact h

/-- A station whose own record changed shows the page its new record calls for (R95). -/
theorem commit_shown_changed (hbefore : tblGet s.sms.stations x ≠ some st)
    (hafter : tblGet (flush (commitEdition g s)).sms.stations x = some st) : PageShown (flush (commitEdition g s)) x := by
  have hst := commit_routed_station hafter
  exact commit_shown g s (pageShown_commit_marked hst (.inl (by rw [hst]; exact hbefore)))

theorem commitRouted_page (hafter : tblGet (flush (commitEdition g s)).sms.stations x = some st) :
    pageRec (commitRouted g s).pco x = pageRec s.pco x := by
  have hst := commit_routed_station hafter
  exact commitInstalled_page_kept g s (Option.isSome_iff_exists.mpr ⟨st, hst⟩)

/-- A page whose source the commit changed shows what the part now calls for (R94). -/
theorem commit_shown_source (hafter : tblGet (flush (commitEdition g s)).sms.stations x = some st) {y : Source}
    (hsource : y ∈ (pageRec s.pco x).sources) (hmoved : SourceMoved s (flush (commitEdition g s)) x y) :
    PageShown (flush (commitEdition g s)) x := by
  have hsms := commit_sms g s
  have hpgu := commit_pgu g s
  have hnotices : (flush (commitEdition g s)).pco.notices = (commitRouted g s).pco.notices :=
    (congrArg PcoState.notices (commit_pco g s) :)
  refine commit_shown g s (pageShown_commit_source (y := y) (commit_routed_station hafter) ?_ ?_)
  · rw [commitRouted_page hafter]
    exact hsource
  · cases y <;> simp only [SourceMoved, hsms, hpgu, hnotices] at hmoved <;> exact hmoved

/-- A page that draws from a slot with a vector follows a rise of the epoch and a change of walk_rate (R25, R28, R39). -/
theorem commit_shown_drawn (hafter : tblGet (flush (commitEdition g s)).sms.stations x = some st) (hdraws : DrawsVector s x)
    (hmoved : (flush (commitEdition g s)).sms.epoch ≠ s.sms.epoch
      ∨ (flush (commitEdition g s)).sms.settings.walkRate ≠ s.sms.settings.walkRate) :
    PageShown (flush (commitEdition g s)) x := by
  refine commit_shown g s (pageShown_commit_drawn (commit_routed_station hafter) (commitRouted_page hafter) hdraws ?_)
  rw [← commit_sms]
  refine hmoved.imp (fun hepoch => ?_) Ne.symm
  by_contra hsame
  rw [commit_epoch, if_neg hsame] at hepoch
  exact hepoch (add_zero _)

end Pages

/-- Settles O47: a rejection is `rejectEdition` with the record that validation charges; a commit goes through its stages, and
each moved page through the notice that marks it. -/
theorem validationEnds : Obligations.ValidationEnds := by
  unfold Obligations.ValidationEnds
  refine ⟨fun g f s hphase hg hvalidating hf => ?_, fun g s hphase hg hvalidating hf => ?_⟩
  · obtain ⟨hstage, hsettled, happlied, hsettle, hcounters, hfault, hreport, htold, hframe⟩ := rejectEdition_leaves g.number f s
    obtain ⟨hreason, hcharged⟩ := validate_charges hf
    refine ⟨_, ?_, hstage, hsettled, happlied, hsettle, hreason, hcharged, hcounters, hfault, hreport, htold, hframe⟩
    rw [exec_validationDone hphase hg hvalidating, finishValidation_rejects hf]
  · have hheld := commit_held g s
    have hblocks := (testsTaken_commit g s).blocks
    refine ⟨flush (commitEdition g s), ?_, commit_tables g s, (congrArg XuHeld.applied hheld :),
      (congrArg XuHeld.settled hheld :), (congrArg XuHeld.stage hheld :), (congrArg XuHeld.settle hheld :), fun hclock => ?_,
      fun v hclock => ?_, ?_, ?_, ?_, commit_reported g s, ?_, ?_, fun x => ?_, fun x hbefore hafter => ?_,
      fun x st hbefore hafter => commit_shown_changed hbefore hafter st hafter, fun _ x st _ hafter hmoved => ?_,
      fun hstate => ⟨fun hsame => ?_, fun hmoved => ?_⟩, sameRegisters_of_held hheld, ?_, ?_⟩
    · rw [exec_validationDone hphase hg hvalidating, finishValidation_commits hf]
    · rw [commit_clk, hclock, commitClock_none]
    · rw [commit_clk, hclock, commitClock_some]
    · rw [commit_epoch]
      refine congrArg (s.sms.epoch + ·) ?_
      by_cases hchanged : graphChanged s.sms (flush (commitEdition g s)).sms = true
      · rw [if_pos hchanged, if_neg ((graphChanged_iff _ _).mp hchanged)]
      · rw [if_neg hchanged, if_pos (not_not.mp (mt (graphChanged_iff _ _).mpr hchanged))]
    · rw [commit_sms, commitRouted_sms]
      rfl
    · rw [commit_sms, commitRouted_sms]
      rfl
    · rw [commit_pgu]
      rfl
    · rw [commit_pgu, commit_clk, commit_sms]
      exact evalPgu_offset_evaluated (g := { (withTables (postEdition g.staged (tablesOf s)) s).pgu with retained := false }) _ _ rfl
    · exact (commitEdition_kept g s x).1
    · have hpage := commit_page_dropped g s hbefore hafter
      exact ⟨(congrArg PageRec.page hpage :), (congrArg PageRec.serial hpage :)⟩
    · obtain ⟨y, hy, hsource⟩ | ⟨hdraws, hrate⟩ := hmoved
      · exact commit_shown_source hafter hy hsource st hafter
      · exact commit_shown_drawn hafter hdraws hrate st hafter
    · rw [commit_map g s hstate, if_pos ⟨hsame.1.symm, hsame.2.symm⟩]
    · rw [commit_map g s hstate, if_neg fun hsame => ?_]
      exact hmoved.elim (fun h => h hsame.1.symm) (fun h => h hsame.2.symm)
    · exact (congrArg State.phase hblocks :).trans (commitNotices_phase ..)
    · exact (congrArg State.pending hblocks :).trans (commitNotices_pending ..)

end Sys2Proof.Machine

/-! PROOFS. What a commit does to line records and claims, and the evaluation that goes with it (R28, R32, R34, R53, R54, R58,
R116, R138, R142, R145). -/

namespace Sys2Proof.Machine

open Sys2Proof.Safety

/-! ## Line records (R138, R142, R145) -/

theorem commitRec_twice (before after : Option StationRec) (r : LineRec) :
    commitRec before after (commitRec before after r) = commitRec before after r := by
  cases before with
  | none => cases after <;> rfl
  | some old =>
    cases after with
    | none => rfl
    | some st =>
      unfold commitRec
      dsimp only
      split
      · rfl
      · rw [Bool.and_assoc, Bool.and_self]

theorem commitLines_lineRec (before after : Tbl StationRec) (l : LcsState) (x : Nat) :
    lineRec (commitLines before after l) x =
      if x ∈ changedKeys before after then commitRec (tblGet before x) (tblGet after x) (lineRec l x) else lineRec l x := by
  unfold commitLines
  induction changedKeys before after generalizing l with
  | nil => rfl
  | cons y rest ih =>
    rw [List.foldl_cons, ih]
    by_cases hxy : x = y
    · subst hxy
      rw [lineRec_set_self, commitRec_twice, ite_self, if_pos (List.mem_cons_self ..)]
    · rw [lineRec_set_ne _ _ hxy]
      simp only [List.mem_cons, hxy, false_or]

/-- The door-service fields that a commit gives the record of a station (R145). -/
def commitDoor (after : Option StationRec) : Option DoorRec :=
  if after.map StationRec.kind = some .cabin then some freshDoor else none

theorem doorFor_eq (st : StationRec) : doorFor st.kind = commitDoor (some st) := by
  show doorFor st.kind = if some st.kind = some .cabin then some freshDoor else none
  cases st.kind <;> rfl

/-- A station that is configured, emptied or of another kind has its line record reset (R138). -/
theorem commitRec_reset {before after : Option StationRec} (h : before.map StationRec.kind ≠ after.map StationRec.kind)
    (r : LineRec) : commitRec before after r = statusReset (commitDoor after) r := by
  cases before with
  | none =>
    cases after with
    | none => exact absurd rfl h
    | some st => rw [← doorFor_eq]; rfl
  | some old =>
    cases after with
    | none => rfl
    | some st =>
      have hkind : old.kind ≠ st.kind := fun hk => h (congrArg some hk)
      unfold commitRec
      dsimp only
      rw [if_pos hkind, doorFor_eq]

/-- The line record of any other station stays, but that an essential station is no longer shed (R142). -/
theorem commitRec_stays {before after : Option StationRec} (h : before.map StationRec.kind = after.map StationRec.kind)
    (r : LineRec) : commitRec before after r = { r with shed := r.shed && !(after.map StationRec.essential).getD false } := by
  cases before with
  | none =>
    cases after with
    | none => exact congrArg (fun b => { r with shed := b }) (Bool.and_true r.shed).symm
    | some st => cases h
  | some old =>
    cases after with
    | none => cases h
    | some st =>
      unfold commitRec
      dsimp only
      exact if_neg (not_not.mpr (Option.some.inj h))

section Recs

variable (g : Staging) (s : State) (x : Nat)

/-- A line record after a commit: what the commit makes of it, and the test of R142. -/
theorem commit_lineRec :
    lineRec (flush (commitEdition g s)).lcs x = lineRec (commitInstalled g s).lcs x
      ∨ lineRec (flush (commitEdition g s)).lcs x = { lineRec (commitInstalled g s).lcs x with shed := true }
        ∧ (flush (commitEdition g s)).msc.reserve = true
        ∧ ∃ st, tblGet (flush (commitEdition g s)).sms.stations x = some st ∧ st.essential = false := by
  have hlcs : (commitTold g s).lcs = (commitInstalled g s).lcs := (pagesOnly_commitTold g s).lcs
  have htested := (testsTaken_commit g s).recs x
  rw [RecTested, hlcs] at htested
  refine htested.imp_right fun ⟨hrec, hreserve, hst⟩ => ⟨hrec, ?_, hst⟩
  exact (testsTaken_commit g s).reserve.trans hreserve

theorem commitInstalled_lineRec : lineRec (commitInstalled g s).lcs x =
    if tblGet s.sms.stations x ≠ tblGet (flush (commitEdition g s)).sms.stations x then
      commitRec (tblGet s.sms.stations x) (tblGet (flush (commitEdition g s)).sms.stations x) (lineRec s.lcs x)
    else lineRec s.lcs x := by
  rw [commit_stations]
  refine (commitLines_lineRec s.sms.stations (commitInstalled g s).sms.stations s.lcs x).trans ?_
  simp only [mem_changedKeys]

theorem commitInstalled_lineRec_reset (h : KindChanged s (flush (commitEdition g s)) x) :
    lineRec (commitInstalled g s).lcs x
      = statusReset (commitDoor (tblGet (flush (commitEdition g s)).sms.stations x)) (lineRec s.lcs x) := by
  rw [commitInstalled_lineRec, if_pos fun hsame => h (congrArg (Option.map StationRec.kind) hsame)]
  exact commitRec_reset h _

theorem commitInstalled_lineRec_stays (h : ¬KindChanged s (flush (commitEdition g s)) x) :
    lineRec (commitInstalled g s).lcs x = { lineRec s.lcs x with
      shed := (lineRec s.lcs x).shed && (decide (tblGet s.sms.stations x = tblGet (flush (commitEdition g s)).sms.stations x)
        || !((tblGet (flush (commitEdition g s)).sms.stations x).map StationRec.essential).getD false) } := by
  rw [commitInstalled_lineRec]
  by_cases hsame : tblGet s.sms.stations x = tblGet (flush (commitEdition g s)).sms.stations x
  · rw [if_neg (not_not.mpr hsame), decide_eq_true hsame, Bool.true_or, Bool.and_true]
  · rw [if_pos hsame, decide_eq_false hsame, Bool.false_or]
    exact commitRec_stays (not_not.mp h) _

/-- But for the shed mark a line record is the one that the commit makes of it (R142). -/
theorem commit_lineRec_but_shed : lineRec (flush (commitEdition g s)).lcs x
    = { lineRec (commitInstalled g s).lcs x with shed := (lineRec (flush (commitEdition g s)).lcs x).shed } := by
  obtain h | ⟨h, -, -⟩ := commit_lineRec g s x
  · rw [h]
  · rw [h]

theorem commit_lineRec_reset (h : KindChanged s (flush (commitEdition g s)) x) :
    lineRec (flush (commitEdition g s)).lcs x = { statusReset
      (commitDoor (tblGet (flush (commitEdition g s)).sms.stations x)) (lineRec s.lcs x) with
        shed := (lineRec (flush (commitEdition g s)).lcs x).shed } :=
  (commit_lineRec_but_shed g s x).trans (by rw [commitInstalled_lineRec_reset g s x h])

theorem commit_lineRec_stays (h : ¬KindChanged s (flush (commitEdition g s)) x) :
    lineRec (flush (commitEdition g s)).lcs x
      = { lineRec s.lcs x with shed := (lineRec (flush (commitEdition g s)).lcs x).shed } :=
  (commit_lineRec_but_shed g s x).trans (by rw [commitInstalled_lineRec_stays g s x h])

/-- A station is shed after a commit by the regime, or as it was (R142). -/
theorem commit_shed (h : (lineRec (flush (commitEdition g s)).lcs x).shed = true) :
    ((flush (commitEdition g s)).msc.reserve = true
        ∧ ∃ st, tblGet (flush (commitEdition g s)).sms.stations x = some st ∧ st.essential = false)
      ∨ ¬KindChanged s (flush (commitEdition g s)) x ∧ (lineRec s.lcs x).shed = true
        ∧ (tblGet (flush (commitEdition g s)).sms.stations x = tblGet s.sms.stations x
          ∨ ∃ st, tblGet (flush (commitEdition g s)).sms.stations x = some st ∧ st.essential = false) := by
  obtain hrec | ⟨-, hreserve, hst⟩ := commit_lineRec g s x
  · refine .inr ?_
    rw [hrec] at h
    have hkind : ¬KindChanged s (flush (commitEdition g s)) x := fun hk => by
      rw [commitInstalled_lineRec_reset g s x hk] at h
      cases h
    rw [commitInstalled_lineRec_stays g s x hkind] at h
    obtain ⟨hshed, hwhy⟩ := Bool.and_eq_true_iff.mp h
    refine ⟨hkind, hshed, ?_⟩
    cases hst : tblGet (flush (commitEdition g s)).sms.stations x with
    | none =>
      have hnone := (not_not.mp hkind).trans (congrArg (Option.map StationRec.kind) hst)
      exact .inl (Option.map_eq_none_iff.mp hnone).symm
    | some st =>
      rw [hst] at hwhy
      refine (Bool.or_eq_true_iff.mp hwhy).imp (fun hsame => (of_decide_eq_true hsame).symm) fun hess => ⟨st, rfl, ?_⟩
      exact (Bool.not_eq_true' st.essential).mp hess
  · exact .inl ⟨hreserve, hst⟩

/-- A shed station that stays configured as it was, and is not essential, stays shed (R142). -/
theorem commit_stays_shed (hkind : ¬KindChanged s (flush (commitEdition g s)) x) (hshed : (lineRec s.lcs x).shed = true)
    (hess : ∀ st, tblGet (flush (commitEdition g s)).sms.stations x = some st → st.essential = false) :
    (lineRec (flush (commitEdition g s)).lcs x).shed = true := by
  obtain hrec | ⟨hrec, -, -⟩ := commit_lineRec g s x
  · rw [hrec, commitInstalled_lineRec_stays g s x hkind, hshed, Bool.true_and]
    cases hst : tblGet (flush (commitEdition g s)).sms.stations x with
    | none => exact Bool.or_true _
    | some st =>
      show (_ || !st.essential) = true
      rw [hess st hst]
      exact Bool.or_true _
  · rw [hrec]

/-- The transactions in flight go on (log 34). -/
theorem commit_txns : (flush (commitEdition g s)).lcs.lines.map LineCtl.txn = s.lcs.lines.map LineCtl.txn := by
  have hlines : (commitTold g s).lcs.lines = s.lcs.lines :=
    (congrArg LcsState.lines (pagesOnly_commitTold g s).lcs).trans (commitLines_lines s.sms.stations _ s.lcs)
  exact (testsTaken_commit g s).txns.trans (congrArg (List.map LineCtl.txn) hlines)

end Recs

/-! ## Claims (R28, R32, R34) -/

theorem desiredClaims_congr {s t : State} (hstate : t.msc.state = .standby ↔ s.msc.state = .standby)
    (hstations : t.sms.stations = s.sms.stations) (hmusters : t.sms.musters = s.sms.musters)
    (hlandmarks : t.sms.landmarks = s.sms.landmarks) (hpgu : t.pgu = s.pgu)
    (hpco : { t.pco with pages := s.pco.pages } = s.pco) : desiredClaims t = desiredClaims s := by
  have hactive : t.pco.active = s.pco.active := (congrArg PcoState.active hpco :)
  have hinterj : t.pco.interjections = s.pco.interjections := (congrArg PcoState.interjections hpco :)
  have hnotices : t.pco.notices = s.pco.notices := (congrArg PcoState.notices hpco :)
  have hclaims : interjClaims t.pco = interjClaims s.pco := by
    rw [interjClaims, interjClaims, hactive, hinterj, hnotices]
  simp only [desiredClaims, hstate, landmarkClaims, musterClaims, hstations, hmusters, hlandmarks, hpgu, hclaims]

theorem slotsFit_stale {slots : List Slot} (h : SlotsFit slots) : SlotsFit (solverSelect (slots.map staleSlot)) := by
  refine (solverSelect_spec _).2.2.2 fun sl hsl => ?_
  obtain ⟨q, hq, rfl⟩ := List.mem_map.mp hsl
  obtain ⟨-, hempty, hholders⟩ := staleSlot_state q
  rw [hempty, hholders]
  exact h q hq

theorem staleSlot_eq (sl : Slot) :
    staleSlot sl = if sl.state = .ready ∨ sl.state = .solving then { sl with state := .queued } else sl := by
  unfold staleSlot
  cases hstate : sl.state <;> rfl

section Claims

variable (g : Staging) (s : State)

/-- The solver's slots and waiting list as a commit's claims find them (R16, R28). -/
theorem commitRisen_rsv : (commitRisen g s).rsv =
    if graphChanged s.sms (commitInstalled g s).sms then { s.rsv with slots := solverSelect (s.rsv.slots.map staleSlot) }
    else s.rsv := by
  unfold commitRisen
  split <;> rfl

theorem slotsFit_commitRisen (h : SlotsFit s.rsv.slots) : SlotsFit (commitRisen g s).rsv.slots := by
  rw [commitRisen_rsv]
  split
  · exact slotsFit_stale h
  · exact h

theorem commitClaimed_rsv : (commitClaimed g s).rsv = claimRsv (desiredClaims (commitRisen g s)) (commitRisen g s).rsv := rfl

/-- Without a call from STANDBY the claims a commit takes are those that should be held after it (R29). -/
theorem desiredClaims_commit (hstate : (flush (commitEdition g s)).msc.state = .standby ↔ s.msc.state = .standby) :
    desiredClaims (flush (commitEdition g s)) = desiredClaims (commitRisen g s) := by
  have hsms (f : SmsState → Tbl StationRec × Tbl MusterRec × Tbl LandmarkRec)
      (hf : ∀ e, f { (commitInstalled g s).sms with epoch := e } = f (commitInstalled g s).sms) :
      f (flush (commitEdition g s)).sms = f (commitRisen g s).sms := by
    rw [commit_sms, commitRouted_sms, hf]
    unfold commitRisen
    split
    · exact (hf _).symm
    · rfl
  have htables := hsms (fun m => (m.stations, m.musters, m.landmarks)) fun _ => rfl
  simp only [Prod.mk.injEq] at htables
  obtain ⟨hstations, hmusters, hlandmarks⟩ := htables
  have hpco : (commitRisen g s).pco = (commitInstalled g s).pco := by
    unfold commitRisen
    split <;> rfl
  have hpgu : (commitRisen g s).pgu = (commitInstalled g s).pgu := by
    unfold commitRisen
    split <;> rfl
  refine desiredClaims_congr ?_ hstations hmusters hlandmarks ((commit_pgu g s).trans hpgu.symm)
    (by rw [hpco]; exact commit_pco g s)
  rw [hstate, show (commitRisen g s).msc = s.msc from commitClaimed_msc g s]

/-- A commit's claims: taken on the slots as the epoch leaves them, or made anew by a call from STANDBY (R34, R79). -/
theorem commit_rsv :
    ((flush (commitEdition g s)).msc.state = .standby ↔ s.msc.state = .standby)
        ∧ (flush (commitEdition g s)).rsv = claimRsv (desiredClaims (flush (commitEdition g s))) (commitRisen g s).rsv
        ∧ otherCounts (flush (commitEdition g s)).xu = otherCounts (commitClaimed g s).xu
      ∨ s.msc.state = .standby ∧ (flush (commitEdition g s)).msc.state ≠ .standby
        ∧ (flush (commitEdition g s)).rsv
          = claimRsv (desiredClaims (flush (commitEdition g s))) (commitClaimed g s).rsv := by
  have htold := pagesOnly_commitTold g s
  have hrouted : (commitTold g s).rsv = (commitClaimed g s).rsv := htold.rsv.trans (commitRouted_rsv g s)
  have hfound : (commitTold g s).msc.state = s.msc.state := (congrArg MscState.state htold.msc).trans (commitRouted_state g s)
  obtain ⟨hrsv, hcounts, -, hstate⟩ | ⟨hstandby, hcalled, hrsv⟩ := (testsTaken_commit g s).routes
  · rw [hfound] at hstate
    refine .inl ⟨hstate, ?_, ?_⟩
    · rw [desiredClaims_commit g s hstate, ← commitClaimed_rsv]
      exact hrsv.trans hrouted
    · rw [otherCounts_flush, hcounts, commitTold, otherCounts_commitNotices, commitRouted_xu]
  · refine .inr ⟨hfound.symm.trans hstandby, hcalled, ?_⟩
    have hdesired : desiredClaims (flush (commitEdition g s)) = musterClaims (commitTold g s).sms := by
      rw [desiredClaims, if_neg (show (flush (commitEdition g s)).msc.state ≠ .standby from hcalled), commit_sms, htold.sms]
    rw [hdesired]
    exact hrsv.trans (congrArg (claimRsv (musterClaims (commitTold g s).sms)) hrouted)

variable {g s}

theorem commit_onlyClaims (h : SlotsHeld s) :
    OnlyClaims (flush (commitEdition g s)) (desiredClaims (flush (commitEdition g s)))
      ∧ ClaimsPlaced (flush (commitEdition g s)) (desiredClaims (flush (commitEdition g s))) := by
  have hfit := slotsFit_commitRisen g s (slotsFit_of_held h)
  obtain ⟨-, hrsv, -⟩ | ⟨-, -, hrsv⟩ := commit_rsv g s
  · exact ⟨onlyClaims_of (s := commitRisen g s) hrsv hfit, claimsPlaced_of (s := commitRisen g s) hrsv hfit⟩
  · obtain ⟨-, -, -, hfit', -⟩ := claimRsv_spec (desiredClaims (commitRisen g s)) (commitRisen g s).rsv hfit
    exact ⟨onlyClaims_of (s := commitClaimed g s) hrsv hfit', claimsPlaced_of (s := commitClaimed g s) hrsv hfit'⟩

/-- The claims of a commit that calls no muster are one operation on the slots as the epoch leaves them (R28, R34). -/
theorem commit_claimsServed (h : s.msc.state = .standby → (flush (commitEdition g s)).msc.state = .standby) :
    ClaimsServed (desiredClaims (flush (commitEdition g s))) { s with rsv := (commitRisen g s).rsv }
      (flush (commitEdition g s)) := by
  obtain ⟨hstate, hrsv, hcounts⟩ | ⟨hstandby, hcalled, -⟩ := commit_rsv g s
  · refine claimsServed_of hrsv ?_
    rw [claimWait_of_counts hcounts, desiredClaims_commit g s hstate]
    have hxu : (commitRisen g s).xu.counters = s.xu.counters := by
      unfold commitRisen
      split <;> rfl
    rw [commitClaimed, claimOp_claimWait, hxu]
  · exact absurd (h hstandby) hcalled

theorem commit_epoch_same (h : (flush (commitEdition g s)).sms.epoch = s.sms.epoch) : (commitRisen g s).rsv = s.rsv := by
  rw [commitRisen_rsv]
  refine if_neg fun hchanged => ?_
  rw [commit_sms, commitRouted_sms, if_pos hchanged] at h
  exact absurd h (by bv_omega)

theorem commit_epoch_moved (h : (flush (commitEdition g s)).sms.epoch ≠ s.sms.epoch) :
    (commitRisen g s).rsv = { s.rsv with slots := solverSelect (s.rsv.slots.map staleSlot) } := by
  rw [commitRisen_rsv]
  refine if_pos (by_contra fun hsame => h ?_)
  rw [commit_sms, commitRouted_sms, if_neg hsame]
  exact add_zero _

/-- The claims of a commit, in the terms of the graph epoch (R28, R34, log 10). -/
theorem commit_claims (h : s.msc.state = .standby → (flush (commitEdition g s)).msc.state = .standby) :
    ((flush (commitEdition g s)).sms.epoch = s.sms.epoch →
        ClaimsServed (desiredClaims (flush (commitEdition g s))) s (flush (commitEdition g s)))
      ∧ ((flush (commitEdition g s)).sms.epoch ≠ s.sms.epoch → ∀ risen,
          risen = (s.rsv.slots.map fun sl =>
            if sl.state = .ready ∨ sl.state = .solving then { sl with state := .queued } else sl) →
          ClaimsServed (desiredClaims (flush (commitEdition g s))) { s with rsv := { s.rsv with slots := solverSelect risen } }
            (flush (commitEdition g s))) := by
  have hserved := commit_claimsServed h
  refine ⟨fun hsame => ?_, fun hmoved risen hrisen => ?_⟩
  · rwa [commit_epoch_same hsame] at hserved
  · have hstale : s.rsv.slots.map staleSlot = risen := by
      rw [hrisen]
      exact List.map_congr_left fun sl _ => staleSlot_eq sl
    rwa [commit_epoch_moved hmoved, hstale] at hserved

/-- The waiting list after a commit is in its order (R32). -/
theorem commit_waiting (hcanon : TablesCanonical (flush (commitEdition g s))) :
    (flush (commitEdition g s)).rsv.waiting.Pairwise
      (fun a b => ClaimBefore (flush (commitEdition g s)).pgu.programme a.who b.who) := by
  have hactive : (flush (commitEdition g s)).pco.active = (commitInstalled g s).pco.active :=
    (congrArg PcoState.active (commit_pco g s) :)
  have hinterj : (flush (commitEdition g s)).pco.interjections = (commitInstalled g s).pco.interjections :=
    (congrArg PcoState.interjections (commit_pco g s) :)
  have hview : (flush (commitEdition g s)).pgu.view = orderedView (flush (commitEdition g s)).pgu.programme := by
    rw [commit_pgu]
    rfl
  have hordered := desiredClaims_ordered hcanon hview (by
    obtain ⟨-, -, -, -, -, -, -, -, -, hsorted⟩ := hcanon
    rw [hactive]
    rw [hinterj] at hsorted
    exact sorted_keys_filter hsorted _)
  obtain ⟨-, hrsv, -⟩ | ⟨-, -, hrsv⟩ := commit_rsv g s
  · rw [hrsv]
    exact hordered.sublist (claimRsv_waiting_sublist _ _)
  · rw [hrsv]
    exact hordered.sublist (claimRsv_waiting_sublist _ _)

end Claims

end Sys2Proof.Machine

/-! PROOFS. Rotations and interjections at a commit (R110 to R119, R121): starts, showings that end, and what is due. -/

namespace Sys2Proof.Machine

open Sys2Proof.Safety

/-! ## The start of a rotation (R112, R113) -/

section Start

variable {rotations : Tbl RotationRec} {rotation : Nat} {r : RotState}

theorem startRot_zero_interj (hzero : rotation = 0) {i : Nat} (hpos : r.position = .interj i) :
    startRot rotations rotation r
      = { r with rotation, loops := fullLoops (rotSteps rotations rotation), resume := none } := by
  rw [startRot, if_pos hzero]
  simp only [hpos]

theorem startRot_zero_elsewhere (hzero : rotation = 0) (hpos : ∀ i, r.position ≠ .interj i) :
    startRot rotations rotation r = { r with
      rotation, loops := fullLoops (rotSteps rotations rotation), position := .default, countdown := none, resume := none } := by
  rw [startRot, if_pos hzero]
  split
  · rename_i i hi
    exact absurd hi (hpos i)
  · rfl

theorem startRot_walk_interj (hzero : rotation ≠ 0) {i : Nat} (hpos : r.position = .interj i) :
    startRot rotations rotation r = { r with
      rotation, loops := (startWalk (rotSteps rotations rotation)).2
      resume := some ((startWalk (rotSteps rotations rotation)).1,
        dwellOf (rotSteps rotations rotation) (startWalk (rotSteps rotations rotation)).1) } := by
  rw [startRot, if_neg hzero]
  simp only [hpos]

theorem startRot_walk_elsewhere (hzero : rotation ≠ 0) (hpos : ∀ i, r.position ≠ .interj i) :
    startRot rotations rotation r = { r with
      rotation, loops := (startWalk (rotSteps rotations rotation)).2
      position := .step (startWalk (rotSteps rotations rotation)).1
      countdown := some (dwellOf (rotSteps rotations rotation) (startWalk (rotSteps rotations rotation)).1), resume := none } := by
  rw [startRot, if_neg hzero]
  split
  · rename_i i hi
    exact absurd hi (hpos i)
  · rfl

end Start

theorem fullLoops_loop {steps : List RotStep} {k target count : Nat} (hk : k < 8) (h : steps.getD k .empty = .loop target count) :
    (fullLoops steps).getD k 0 = count := by
  unfold fullLoops
  rw [List.getD_eq_getElem _ _ (by simpa using hk), List.getElem_map]
  simp only [List.getElem_range, h]

theorem fullLoops_other {steps : List RotStep} {k : Nat} (hk : k < 8)
    (h : ∀ target count, steps.getD k .empty ≠ .loop target count) : (fullLoops steps).getD k 0 = 0 := by
  unfold fullLoops
  rw [List.getD_eq_getElem _ _ (by simpa using hk), List.getElem_map]
  simp only [List.getElem_range]

theorem fullCounters_fullLoops (steps : List RotStep) : FullCounters steps (fullLoops steps) := by
  refine ⟨by simp [fullLoops], fun k hk => ?_⟩
  split
  · rename_i hloop
    exact fullLoops_loop hk hloop
  · rename_i hother
    exact fullLoops_other hk hother

theorem fullCounters_eq {steps : List RotStep} {full : List Nat} (h : FullCounters steps full) : full = fullLoops steps := by
  obtain ⟨hlen, hget⟩ := h
  obtain ⟨hlen', hget'⟩ := fullCounters_fullLoops steps
  refine List.ext_getElem (hlen.trans hlen'.symm) fun k hk hk' => ?_
  have hcount := (hget k (hlen ▸ hk)).trans (hget' k (hlen ▸ hk)).symm
  rwa [List.getD_eq_getElem _ _ hk, List.getD_eq_getElem _ _ hk'] at hcount

theorem startWalk_eq {steps : List RotStep} {full loops : List Nat} {m : Nat} (h : FullCounters steps full)
    (hwalk : walk steps walkFuel 0 full = (m, loops)) : startWalk steps = (m, loops) := by
  rw [startWalk, ← fullCounters_eq h]
  exact hwalk

/-! ## What is due and what goes on at a commit (R116, R117, R119) -/

section Commit

variable {s t : State} {st old : StationRec} {r b : RotState}

/-- What a commit does to the set of active interjections (R116). -/
def commitActivity (s t : State) : Activity :=
  { before := s.pco.active, after := activeAt t.pco.interjections (voyageMinute t.clk)
    changed := changedKeys s.pco.interjections t.pco.interjections }

theorem commitActivity_after (hsorted : tblSorted t.pco.interjections = true) {i : Nat} {j : InterjRec}
    (hj : tblGet t.pco.interjections i = some j) :
    (commitActivity s t).after.contains i = true ↔ j.start ≤ t.clk.second.toNat / 60 ∧ t.clk.second.toNat / 60 < j.stop := by
  rw [List.contains_iff_mem]
  exact mem_activeAt_of_get hsorted hj

theorem commitActivity_changed {i : Nat} :
    (commitActivity s t).changed.contains i = true ↔ tblGet s.pco.interjections i ≠ tblGet t.pco.interjections i := by
  rw [List.contains_iff_mem]
  exact mem_changedKeys

theorem commitActivity_before {i : Nat} : (commitActivity s t).before.contains i = true ↔ i ∈ s.pco.active :=
  List.contains_iff_mem

theorem activeOn_iff (hsorted : tblSorted t.pco.interjections = true) {i : Nat} {j : InterjRec}
    (hj : tblGet t.pco.interjections i = some j) :
    ActiveOn t st i ↔ (commitActivity s t).after.contains i = true ∧ tagSelects j st = true := by
  rw [commitActivity_after hsorted hj, tagSelects_iff, and_assoc]
  exact ⟨fun ⟨k, hk, hon⟩ => by rwa [Option.some.inj (hj.symm.trans hk)], fun hon => ⟨j, hj, hon⟩⟩

/-- An activation ends or begins where the record changed, or where the window is left or entered (R116). -/
theorem actEnds_commit {i : Nat} (h : (commitActivity s t).after.contains i = true) :
    actEnds (commitActivity s t) i = true
      ↔ i ∈ s.pco.active ∧ tblGet s.pco.interjections i ≠ tblGet t.pco.interjections i := by
  rw [actEnds, h, Bool.not_true, Bool.false_or, Bool.and_eq_true, commitActivity_before, commitActivity_changed]

theorem actBegins_commit {i : Nat} (h : (commitActivity s t).after.contains i = true) :
    actBegins (commitActivity s t) i = true
      ↔ i ∉ s.pco.active ∨ tblGet s.pco.interjections i ≠ tblGet t.pco.interjections i := by
  rw [actBegins, h, Bool.true_and, Bool.or_eq_true, Bool.not_eq_true', ← Bool.not_eq_true, commitActivity_before,
    commitActivity_changed]

/-- A showing ends where its interjection is not active at the station any more, or begins a new activation (R119). -/
theorem showingEnds_commit (hsorted : tblSorted t.pco.interjections = true) {i : Nat} (hpos : b.position = .interj i) :
    showingEnds t.pco.interjections (commitActivity s t) st b = true
      ↔ ¬ActiveOn t st i ∨ i ∈ s.pco.active ∧ tblGet s.pco.interjections i ≠ tblGet t.pco.interjections i := by
  unfold showingEnds
  simp only [hpos]
  cases hj : tblGet t.pco.interjections i with
  | none =>
    have hnot : ¬ActiveOn t st i := fun ⟨j, hj', _⟩ => nomatch hj.symm.trans hj'
    exact ⟨fun _ => .inl hnot, fun _ => rfl⟩
  | some j =>
    dsimp only
    rw [activeOn_iff (s := s) hsorted hj, ← hj]
    cases hafter : (commitActivity s t).after.contains i with
    | false => simp
    | true =>
      rw [← actEnds_commit hafter, Bool.not_true, Bool.or_false, Bool.or_eq_true, Bool.not_eq_true', eq_self_iff_true, true_and,
        Bool.not_eq_true, or_comm]

/-- A rotation state `b` that a restart makes of `r`, or `r` itself, as far as dueness goes (R113, R117). -/
structure SameShowing (r b : RotState) : Prop where
  due : b.due = r.due
  lastShown : b.lastShown = r.lastShown
  position : ∀ i, b.position = .interj i ↔ r.position = .interj i
  countdown : ∀ i, r.position = .interj i → b.countdown = r.countdown

theorem SameShowing.refl (r : RotState) : SameShowing r r := ⟨rfl, rfl, fun _ => Iff.rfl, fun _ _ => rfl⟩

theorem sameShowing_startRot (rotations : Tbl RotationRec) (rotation : Nat) (r : RotState) :
    SameShowing r (startRot rotations rotation r) := by
  by_cases hpos : ∃ i, r.position = .interj i
  · obtain ⟨i, hpos⟩ := hpos
    by_cases hzero : rotation = 0
    · rw [startRot_zero_interj hzero hpos]
      exact ⟨rfl, rfl, fun _ => Iff.rfl, fun _ _ => rfl⟩
    · rw [startRot_walk_interj hzero hpos]
      exact ⟨rfl, rfl, fun _ => Iff.rfl, fun _ _ => rfl⟩
  · have hnot (i : Nat) : r.position ≠ .interj i := fun hi => hpos ⟨i, hi⟩
    by_cases hzero : rotation = 0
    · rw [startRot_zero_elsewhere hzero hnot]
      exact ⟨rfl, rfl, fun i => ⟨nofun, fun h => absurd h (hnot i)⟩, fun i h => absurd h (hnot i)⟩
    · rw [startRot_walk_elsewhere hzero hnot]
      exact ⟨rfl, rfl, fun i => ⟨nofun, fun h => absurd h (hnot i)⟩, fun i h => absurd h (hnot i)⟩

/-- Only an interjection that is active and selects the station is due there (R117). -/
theorem activeOn_of_dueAfter (hsorted : tblSorted t.pco.interjections = true) {w : Nat → Bool} {i : Nat}
    (h : dueAfter t.pco.interjections (commitActivity s t) (voyageMinute t.clk) st w b i = true) : ActiveOn t st i := by
  unfold dueAfter at h
  cases hj : tblGet t.pco.interjections i with
  | none => rw [hj] at h; cases h
  | some j =>
    rw [hj] at h
    obtain ⟨hon, -⟩ := Bool.and_eq_true_iff.mp h
    exact (activeOn_iff hsorted hj).mpr (Bool.and_eq_true_iff.mp hon)

/-- The due flags of a screen after a commit (R117). -/
def commitDue (s t : State) (old st : StationRec) (b : RotState) : RotState :=
  dueTaken t.pco.interjections (commitActivity s t) (voyageMinute t.clk) st (selectedBefore s.pco.interjections old) b

theorem commitDue_iff (hsorted : tblSorted t.pco.interjections = true) (hsame : SameShowing r b) {i : Nat} (hi : i < 16) :
    (commitDue s t old st b).due.getD i false = true ↔ DueAtCommit s t old st r i := by
  rw [commitDue, dueTaken, getD_range_map _ hi]
  unfold dueAfter DueAtCommit
  cases hj : tblGet t.pco.interjections i with
  | none =>
    have hnot : ¬ActiveOn t st i := fun ⟨j, hj', _⟩ => nomatch hj.symm.trans hj'
    exact ⟨nofun, fun h => absurd h.1 hnot⟩
  | some j =>
    dsimp only
    rw [activeOn_iff (s := s) hsorted hj, hsame.due, hsame.lastShown, Bool.and_eq_true, Bool.and_eq_true]
    refine and_congr_right fun hon => ?_
    have hafter := hon.1
    have hselected (heq : tblGet s.pco.interjections i = some j) :
        selectedBefore s.pco.interjections old i = true
          ↔ old.kind ≠ .cabin ∧ old.tag &&& j.tagMask = j.tagValue &&& j.tagMask := by
      rw [selectedBefore, heq, tagSelects_iff]
    simp only [Bool.or_eq_true, Bool.and_eq_true, Bool.not_eq_true', ← Bool.not_eq_true, decide_eq_true_eq,
      actBegins_commit hafter, actEnds_commit hafter, periodDue_iff, ne_eq, hsame.position, Option.some.injEq,
      exists_eq_left', hj]
    by_cases heq : tblGet s.pco.interjections i = some j
    · rw [hselected heq]
      simp only [heq, not_true_eq_false, and_false, not_false_eq_true, and_true, or_false, false_or, or_assoc]
      rfl
    · simp only [heq, not_false_eq_true, true_or, or_true]

/-! ## The rotation state of a screen after a commit -/

theorem restarts_iff : restarts (fun i => (changedKeys s.pco.rotations t.pco.rotations).contains i) old st = true
    ↔ Restarts s t old st := by
  simp only [restarts, Restarts, Bool.or_eq_true, decide_eq_true_eq, List.contains_iff_mem, mem_changedKeys, or_assoc]

/-- The rotation state of a screen that stays one, before its activity is taken: restarted or as it was (R113). -/
def commitBase (s t : State) (old st : StationRec) (r : RotState) : RotState :=
  if restarts (fun i => (changedKeys s.pco.rotations t.pco.rotations).contains i) old st then
    startRot t.pco.rotations st.rotation r
  else r

theorem commitBase_restarts (h : Restarts s t old st) : commitBase s t old st r = startRot t.pco.rotations st.rotation r :=
  if_pos (restarts_iff.mpr h)

theorem commitBase_goes_on (h : ¬Restarts s t old st) : commitBase s t old st r = r := if_neg (mt restarts_iff.mp h)

theorem sameShowing_commitBase : SameShowing r (commitBase s t old st r) := by
  unfold commitBase
  split
  · exact sameShowing_startRot _ _ r
  · exact SameShowing.refl r

/-- The rotation state of a screen that stays one, after a commit (R113, R117 to R119, R121). -/
def commitTaken (s t : State) (old st : StationRec) (r : RotState) : RotState :=
  takeActivity t.pco.interjections (commitActivity s t) (voyageMinute t.clk) (decide (s.msc.state = .standby)) st
    (selectedBefore s.pco.interjections old) (commitBase s t old st r)

/-- The rotation state of a screen that a commit configures (R110, R112, R118). -/
def commitFresh (s t : State) (st : StationRec) : RotState :=
  takeActivity t.pco.interjections (commitActivity s t) (voyageMinute t.clk) (decide (s.msc.state = .standby)) st
    (fun _ => false) (startRot t.pco.rotations st.rotation (freshRot st.rotation))

theorem lowestDue_some {i : Nat} (h : lowestDue b = some i) : i < 16 ∧ b.due.getD i false = true := by
  unfold lowestDue at h
  rw [List.find?_range_eq_some] at h
  exact ⟨List.mem_range.mp h.2.1, h.1⟩

/-- At its default page a screen stays there, or shows the lowest due interjection at once (R118). -/
theorem takeActivity_at_default (T : Tbl InterjRec) (a : Activity) (now : Nat) (standby : Bool) (w : Nat → Bool)
    (hpos : b.position = .default) :
    takeActivity T a now standby st w b = dueTaken T a now st w b ∧ (standby = false ∨ lowestDue (dueTaken T a now st w b) = none)
      ∨ standby = true ∧ ∃ i, lowestDue (dueTaken T a now st w b) = some i
        ∧ takeActivity T a now standby st w b = showInterj T now i (dueTaken T a now st w b) := by
  have helse : ∀ i, b.position ≠ .interj i := fun i h => nomatch hpos.symm.trans h
  rw [takeActivity_elsewhere _ _ _ _ _ helse]
  cases standby with
  | false => exact .inl ⟨rfl, .inl rfl⟩
  | true =>
    rw [if_pos rfl]
    cases hdue : lowestDue (dueTaken T a now st w b) with
    | none => exact .inl ⟨defaultShow_none _ _ hdue, .inr rfl⟩
    | some i => exact .inr ⟨rfl, i, rfl, defaultShow_due _ _ hpos hdue⟩

/-- A screen that shows no interjection starts its rotation, at its first page or with an interjection shown at once (R111,
R112, R118). -/
theorem rotStarted_taken (hsorted : tblSorted t.pco.interjections = true) (standby : Bool) (w : Nat → Bool)
    (hpos : ∀ i, r.position ≠ .interj i) :
    RotStarted t st (rotSteps t.pco.rotations st.rotation)
      (takeActivity t.pco.interjections (commitActivity s t) (voyageMinute t.clk) standby st w
        (startRot t.pco.rotations st.rotation r)) := by
  by_cases hzero : st.rotation = 0
  · have hstart := startRot_zero_elsewhere (rotations := t.pco.rotations) hzero hpos
    generalize startRot t.pco.rotations st.rotation r = b at hstart
    have hdefault : b.position = .default := congrArg RotState.position hstart
    have hnone : b.countdown = none := congrArg RotState.countdown hstart
    have hresume : b.resume = none := congrArg RotState.resume hstart
    have hrotation : b.rotation = st.rotation := congrArg RotState.rotation hstart
    have hkept := (takeActivity_frame t.pco.interjections (commitActivity s t) (voyageMinute t.clk) standby w st b).1
    refine ⟨hkept.trans hrotation, ?_, fun _ => ?_, fun hne => absurd hzero hne⟩
    all_goals obtain ⟨hstays, -⟩ | ⟨-, i, hdue, hshown⟩ :=
      takeActivity_at_default (st := st) t.pco.interjections (commitActivity s t) (voyageMinute t.clk) standby w hdefault
    · rw [hstays]
      exact hresume
    · rw [hshown]
      exact hresume
    · rw [hstays]
      exact .inl ⟨hdefault, hnone⟩
    · rw [hshown]
      obtain ⟨hi, hflag⟩ := lowestDue_some hdue
      rw [dueTaken, getD_range_map _ hi] at hflag
      exact .inr ⟨i, rfl, activeOn_of_dueAfter hsorted hflag⟩
  · rw [takeActivity_at_step _ _ _ _ _ (congrArg RotState.position (startRot_walk_elsewhere hzero hpos)),
      startRot_walk_elsewhere hzero hpos]
    refine ⟨rfl, rfl, fun h => absurd h hzero, fun _ full m loops hfull hwalk => ?_⟩
    rw [startWalk_eq hfull hwalk]
    exact ⟨rfl, rfl, rfl⟩

/-! ## What the statement says of a screen that stays one -/

/-- The resume step that a restart or the rotation as it was gives a screen on an interjection (R113, R118). -/
theorem commitBase_resume {i : Nat} (hpos : r.position = .interj i) {resume : Option (Nat × Nat)}
    (hstays : ¬Restarts s t old st → resume = r.resume)
    (hrestarts : Restarts s t old st → (st.rotation = 0 → resume = none)
      ∧ (st.rotation ≠ 0 → ∀ full m loops, FullCounters (rotSteps t.pco.rotations st.rotation) full →
          walk (rotSteps t.pco.rotations st.rotation) walkFuel 0 full = (m, loops) →
          resume = some (m, dwellOf (rotSteps t.pco.rotations st.rotation) m))) :
    (commitBase s t old st r).resume = resume := by
  by_cases h : Restarts s t old st
  · rw [commitBase_restarts h]
    obtain ⟨hnone, hwalk⟩ := hrestarts h
    by_cases hzero : st.rotation = 0
    · rw [startRot_zero_interj hzero hpos, hnone hzero]
    · rw [startRot_walk_interj hzero hpos]
      exact (hwalk hzero _ _ _ (fullCounters_fullLoops _) rfl).symm
  · rw [commitBase_goes_on h, hstays h]

section Stays

variable (hsorted : tblSorted t.pco.interjections = true)

include hsorted

theorem lowestDue_commit {k : Nat} (hk : k < 16) (hdue : DueAtCommit s t old st r k)
    (hfirst : ∀ j, j < k → ¬DueAtCommit s t old st r j) :
    lowestDue (commitDue s t old st (commitBase s t old st r)) = some k :=
  lowestDue_of_first hk ((commitDue_iff hsorted sameShowing_commitBase hk).mpr hdue) fun j hj =>
    Bool.not_eq_true _ ▸ mt (commitDue_iff hsorted sameShowing_commitBase (Nat.lt_trans hj hk)).mp (hfirst j hj)

theorem lowestDue_commit_none (h : ∀ k, k < 16 → ¬DueAtCommit s t old st r k) :
    lowestDue (commitDue s t old st (commitBase s t old st r)) = none :=
  lowestDue_of_none fun k hk => Bool.not_eq_true _ ▸ mt (commitDue_iff hsorted sameShowing_commitBase hk).mp (h k hk)

theorem commitTaken_due
    (h : s.msc.state ≠ .standby ∨ (∃ n, r.position = .step n) ∧ (¬Restarts s t old st ∨ st.rotation ≠ 0)) {i : Nat} (hi : i < 16) :
    (commitTaken s t old st r).due.getD i false = true ↔ DueAtCommit s t old st r i := by
  rw [← commitDue_iff hsorted (sameShowing_commitBase (s := s) (old := old) (st := st)) hi, commitTaken, takeActivity_due]
  · rfl
  · refine h.imp (fun hstate => decide_eq_false hstate) fun ⟨⟨n, hpos⟩, hstep⟩ => ?_
    have helse : ∀ k, r.position ≠ .interj k := fun k hk => nomatch hpos.symm.trans hk
    by_cases hrestarts : Restarts s t old st
    · rw [commitBase_restarts hrestarts, startRot_walk_elsewhere (hstep.resolve_left (not_not.mpr hrestarts)) helse]
      exact ⟨_, rfl⟩
    · rw [commitBase_goes_on hrestarts]
      exact ⟨n, hpos⟩

theorem commitTaken_default (hdefault : (commitBase s t old st r).position = .default) :
    (∀ k, k < 16 → s.msc.state = .standby → DueAtCommit s t old st r k →
        (∀ j, j < k → ¬DueAtCommit s t old st r j) → ShownAfresh t r (commitTaken s t old st r) k)
      ∧ (s.msc.state ≠ .standby ∨ (∀ k, k < 16 → ¬DueAtCommit s t old st r k) → (commitTaken s t old st r).position = .default) := by
  have hlast := (sameShowing_commitBase (s := s) (t := t) (old := old) (st := st) (r := r)).lastShown
  obtain ⟨hstays, hwhy⟩ | ⟨hstandby, i, hdue, hshown⟩ := takeActivity_at_default (st := st) t.pco.interjections (commitActivity s t)
    (voyageMinute t.clk) (decide (s.msc.state = .standby)) (selectedBefore s.pco.interjections old) hdefault
  · refine ⟨fun k hk hstate hdue hfirst => ?_, fun _ => ?_⟩
    · obtain hnot | hnone := hwhy
      · exact absurd hstate (of_decide_eq_false hnot)
      · exact nomatch hnone.symm.trans (lowestDue_commit hsorted hk hdue hfirst)
    · rw [commitTaken, hstays]
      exact hdefault
  · refine ⟨fun k hk _ hduek hfirst => ?_, fun h => ?_⟩
    · obtain rfl : i = k := Option.some.inj (hdue.symm.trans (lowestDue_commit hsorted hk hduek hfirst))
      rw [commitTaken, hshown]
      exact shownAfresh_showInterj t (p := commitDue s t old st (commitBase s t old st r)) hlast i
    · obtain hnot | hnone := h
      · exact absurd (of_decide_eq_true hstandby) hnot
      · exact nomatch hdue.symm.trans (lowestDue_commit_none hsorted hnone)

theorem commitTaken_ends {i : Nat} (hpos : r.position = .interj i)
    (hends : ¬ActiveOn t st i ∨ i ∈ s.pco.active ∧ tblGet s.pco.interjections i ≠ tblGet t.pco.interjections i) :
    commitTaken s t old st r
      = if s.msc.state = .standby then interjBoundary t.pco.interjections (voyageMinute t.clk)
          (commitDue s t old st (commitBase s t old st r))
        else leaveInterj (commitDue s t old st (commitBase s t old st r)) := by
  have hbase : (commitBase s t old st r).position = .interj i := (sameShowing_commitBase.position i).mpr hpos
  rw [commitTaken, takeActivity_ends _ _ _ _ _ ((showingEnds_commit hsorted hbase).mpr hends)]
  simp only [decide_eq_true_eq]
  rfl

theorem commitTaken_interj_ends {i : Nat} (hpos : r.position = .interj i)
    (hends : ¬ActiveOn t st i ∨ i ∈ s.pco.active ∧ tblGet s.pco.interjections i ≠ tblGet t.pco.interjections i) :
    (∀ k, k < 16 → s.msc.state = .standby → DueAtCommit s t old st r k → (∀ j, j < k → ¬DueAtCommit s t old st r j) →
        ShownAfresh t r (commitTaken s t old st r) k ∧ (commitTaken s t old st r).resume = (commitBase s t old st r).resume)
      ∧ (s.msc.state ≠ .standby ∨ (∀ k, k < 16 → ¬DueAtCommit s t old st r k) →
          Returned (commitBase s t old st r).resume (commitTaken s t old st r)) := by
  have hlast := (sameShowing_commitBase (s := s) (t := t) (old := old) (st := st) (r := r)).lastShown
  rw [commitTaken_ends hsorted hpos hends]
  refine ⟨fun k hk hstate hdue hfirst => ?_, fun h => ?_⟩
  · rw [if_pos hstate, interjBoundary_due _ _ (lowestDue_commit hsorted hk hdue hfirst)]
    exact ⟨shownAfresh_showInterj t (p := commitDue s t old st (commitBase s t old st r)) hlast k, rfl⟩
  · have hback : Returned (commitBase s t old st r).resume (leaveInterj (commitDue s t old st (commitBase s t old st r))) :=
      returned_leaveInterj (commitDue s t old st (commitBase s t old st r))
    split
    · rename_i hstate
      obtain hnot | hnone := h
      · exact absurd hstate hnot
      · rwa [interjBoundary_none _ _ (lowestDue_commit_none hsorted hnone)]
    · exact hback

/-- Where a showing ends, the screen leaves its position, or shows the changed interjection afresh (R119). -/
theorem commitTaken_moves {i : Nat} (hpos : r.position = .interj i)
    (hends : ¬ActiveOn t st i ∨ i ∈ s.pco.active ∧ tblGet s.pco.interjections i ≠ tblGet t.pco.interjections i) :
    (commitTaken s t old st r).position ≠ r.position
      ∨ tblGet s.pco.interjections i ≠ tblGet t.pco.interjections i ∧ (commitTaken s t old st r).position = .interj i := by
  have hleave : (leaveInterj (commitDue s t old st (commitBase s t old st r))).position ≠ .interj i := by
    unfold leaveInterj
    split <;> exact nofun
  rw [commitTaken_ends hsorted hpos hends, hpos]
  split
  · cases hdue : lowestDue (commitDue s t old st (commitBase s t old st r)) with
    | none => rw [interjBoundary_none _ _ hdue]; exact .inl hleave
    | some k =>
      rw [interjBoundary_due _ _ hdue]
      by_cases hki : k = i
      · subst hki
        obtain ⟨hk, hflag⟩ := lowestDue_some hdue
        have hactive := ((commitDue_iff hsorted sameShowing_commitBase hk).mp hflag).1
        exact .inr ⟨(hends.resolve_left (not_not.mpr hactive)).2, rfl⟩
      · exact .inl fun h => hki (Position.interj.inj h)
  · exact .inl hleave

theorem commitTaken_goes_on {i : Nat} (hpos : r.position = .interj i) (hactive : ActiveOn t st i)
    (hsame : tblGet s.pco.interjections i = tblGet t.pco.interjections i) :
    commitTaken s t old st r = commitDue s t old st (commitBase s t old st r) := by
  have hbase : (commitBase s t old st r).position = .interj i := (sameShowing_commitBase.position i).mpr hpos
  refine takeActivity_goes_on _ _ _ _ _ hbase (Bool.eq_false_iff.mpr fun hends => ?_)
  obtain hnot | ⟨-, hne⟩ := (showingEnds_commit hsorted hbase).mp hends
  · exact hnot hactive
  · exact hne hsame

end Stays

end Commit

end Sys2Proof.Machine

/-! PROOFS. What else a commit does (chapter 9.6): the rotation states of the part after it, and the settled obligation. -/

namespace Sys2Proof.Machine

open Sys2Proof.Safety

/-! ## The rotation states of the part (R110, R113) -/

theorem tblKeys_mem {α : Type} {t : Tbl α} {k : Nat} {a : α} (h : (k, a) ∈ t) : k ∈ tblKeys t := List.mem_map.mpr ⟨_, h, rfl⟩

/-- What a commit makes of the rotation state of one screen number, and whether it restarted. -/
def commitRotAt (s u : State) (x : Nat) (st : StationRec) : RotState × Bool :=
  commitRot s.pco u.pco (commitActivity s u) (voyageMinute u.clk) (decide (u.msc.state = .standby))
    (tblGet s.sms.stations x) st (tblGet s.pco.rots x)

/-- The screens of a table of stations, each with what the commit makes of it. -/
def commitRotTable (s u : State) : Tbl (RotState × Bool) :=
  tblMap (commitRotAt s u) (u.sms.stations.filter fun e => hasList e.2)

theorem commitRots_fst (s u : State) : (commitRots s u).1
    = { u.pco with active := activeAt u.pco.interjections (voyageMinute u.clk)
                   rots := tblMap (fun _ e => e.1) (commitRotTable s u) } := rfl

theorem commitRots_snd (s u : State) : (commitRots s u).2 = tblKeys ((commitRotTable s u).filter fun e => e.2.2) := rfl

section RotTable

variable {s u : State} {x : Nat} {st : StationRec} (hsorted : tblSorted u.sms.stations = true)

include hsorted

theorem commitRotTable_screen (hst : tblGet u.sms.stations x = some st) (hkind : st.kind ≠ .cabin) :
    tblGet (commitRotTable s u) x = some (commitRotAt s u x st) := by
  rw [commitRotTable, tblGet_map, tblGet_filter hsorted, hst]
  simp only [Option.filter, hasList, decide_eq_true hkind, if_true, Option.map_some]

theorem commitRotTable_none (h : ∀ st, tblGet u.sms.stations x = some st → st.kind = .cabin) :
    tblGet (commitRotTable s u) x = none := by
  rw [commitRotTable, tblGet_map, tblGet_filter hsorted]
  cases hst : tblGet u.sms.stations x with
  | none => rfl
  | some st => simp only [Option.filter, hasList, h st hst, ne_eq, not_true_eq_false, decide_false, Bool.false_eq_true, if_false,
      Option.map_none]

theorem mem_commitStarted (hst : tblGet u.sms.stations x = some st) (hkind : st.kind ≠ .cabin)
    (hstarted : (commitRotAt s u x st).2 = true) : x ∈ (commitRots s u).2 := by
  rw [commitRots_snd]
  exact tblKeys_mem (List.mem_filter.mpr ⟨get_mem (commitRotTable_screen hsorted hst hkind), hstarted⟩)

end RotTable

/-! ## The rotation states after a commit -/

section Commit

variable (g : Staging) (s : State)

/-- After the tables, the clock, the line records and the evaluation, before the rotations. -/
def commitEvaluated : State :=
  let t := withTables (postEdition g.staged (tablesOf s))
    { s with clk := commitClock g.clock s.clk, xu := commitXu g.number s.xu }
  { t with
    lcs := commitLines s.sms.stations t.sms.stations t.lcs
    pgu := evalPgu t.sms (voyageMinute t.clk) { t.pgu with retained := false } }

theorem installEdition_eq : installEdition g s =
    ({ commitEvaluated g s with pco := { (commitRots s (commitEvaluated g s)).1 with
        pages := dropPages s.sms.stations (commitEvaluated g s).sms.stations (commitRots s (commitEvaluated g s)).1.pages } },
      (commitRots s (commitEvaluated g s)).2) := rfl

theorem commitInstalled_rots : (commitInstalled g s).pco.rots = tblMap (fun _ e => e.1) (commitRotTable s (commitEvaluated g s)) := rfl

theorem commit_rots : (flush (commitEdition g s)).pco.rots = tblMap (fun _ e => e.1) (commitRotTable s (commitEvaluated g s)) :=
  (congrArg PcoState.rots (commit_pco g s) :)

theorem commit_interjections : (flush (commitEdition g s)).pco.interjections = (commitEvaluated g s).pco.interjections :=
  (congrArg PcoState.interjections (commit_pco g s) :)

theorem commit_rotations : (flush (commitEdition g s)).pco.rotations = (commitEvaluated g s).pco.rotations :=
  (congrArg PcoState.rotations (commit_pco g s) :)

theorem commitEvaluated_stations : (commitEvaluated g s).sms.stations = (flush (commitEdition g s)).sms.stations :=
  (commit_stations g s).symm

theorem commitEvaluated_activity : commitActivity s (commitEvaluated g s) = commitActivity s (flush (commitEdition g s)) := by
  rw [commitActivity, commitActivity, commit_interjections, commit_clk]
  rfl

/-- A screen that stays one takes the activity of the commit, restarted or not; `started` says which (R113). -/
theorem commitRotAt_stays {x : Nat} {st old : StationRec} {r : RotState} (hold : tblGet s.sms.stations x = some old)
    (hr : tblGet s.pco.rots x = some r) :
    (commitRotAt s (commitEvaluated g s) x st).1 = commitTaken s (flush (commitEdition g s)) old st r
      ∧ ((commitRotAt s (commitEvaluated g s) x st).2 = true ↔ Restarts s (flush (commitEdition g s)) old st) := by
  rw [commitRotAt, commitEvaluated_activity, hold, hr, ← restarts_iff, commitTaken, commitBase, commit_interjections,
    commit_rotations, commit_clk]
  exact ⟨rfl, Iff.rfl⟩

theorem commitRotAt_fresh {x : Nat} {st : StationRec} (h : tblGet s.sms.stations x = none ∨ tblGet s.pco.rots x = none) :
    (commitRotAt s (commitEvaluated g s) x st).1 = commitFresh s (flush (commitEdition g s)) st := by
  rw [commitRotAt, commitEvaluated_activity, commitFresh, commit_interjections, commit_rotations, commit_clk]
  unfold commitRot
  dsimp only
  split
  · rename_i o q ho hq
    obtain hnone | hnone := h
    · exact nomatch ho.symm.trans hnone
    · exact nomatch hq.symm.trans hnone
  · rfl

variable {g s}

theorem commit_rot {x : Nat} {st : StationRec} (hcanon : TablesCanonical (flush (commitEdition g s)))
    (hst : tblGet (flush (commitEdition g s)).sms.stations x = some st) (hkind : st.kind ≠ .cabin) :
    tblGet (flush (commitEdition g s)).pco.rots x = some (commitRotAt s (commitEvaluated g s) x st).1 := by
  obtain ⟨-, -, hstations, -⟩ := hcanon
  rw [← commitEvaluated_stations] at hst hstations
  rw [commit_rots, tblGet_map, commitRotTable_screen hstations hst hkind]
  rfl

theorem commit_rot_none {x : Nat} (hcanon : TablesCanonical (flush (commitEdition g s)))
    (h : ∀ st, tblGet (flush (commitEdition g s)).sms.stations x = some st → st.kind = .cabin) :
    tblGet (flush (commitEdition g s)).pco.rots x = none := by
  obtain ⟨-, -, hstations, -⟩ := hcanon
  rw [← commitEvaluated_stations] at h hstations
  rw [commit_rots, tblGet_map, commitRotTable_none hstations h]
  rfl

/-! ### The pages that follow (R95, R119) -/

theorem commit_shown_restarted {x : Nat} {st old : StationRec} {r : RotState} (hcanon : TablesCanonical (flush (commitEdition g s)))
    (hst : tblGet (flush (commitEdition g s)).sms.stations x = some st) (hkind : st.kind ≠ .cabin)
    (hold : tblGet s.sms.stations x = some old) (hr : tblGet s.pco.rots x = some r)
    (h : Restarts s (flush (commitEdition g s)) old st) : PageShown (flush (commitEdition g s)) x := by
  obtain ⟨-, -, hstations, -⟩ := hcanon
  rw [← commitEvaluated_stations] at hst hstations
  exact commit_shown g s (pageShown_commit_moved (.inr (.inl
    (mem_commitStarted hstations hst hkind ((commitRotAt_stays g s hold hr).2.mpr h)))))

theorem commit_shown_moved {x : Nat} {st : StationRec} {r q : RotState} {i : Nat}
    (hst : tblGet (flush (commitEdition g s)).sms.stations x = some st) (hr : tblGet s.pco.rots x = some r)
    (hq : tblGet (flush (commitEdition g s)).pco.rots x = some q)
    (h : q.position ≠ r.position
      ∨ tblGet s.pco.interjections i ≠ tblGet (flush (commitEdition g s)).pco.interjections i ∧ q.position = .interj i) :
    PageShown (flush (commitEdition g s)) x := by
  rw [commit_rots, ← commitInstalled_rots] at hq
  have hq' : tblGet (commitRouted g s).pco.rots x = some q := hq
  refine commit_shown g s (pageShown_commit_moved ?_)
  obtain hmoved | ⟨hchanged, hshown⟩ := h
  · refine .inl (List.mem_filter.mpr ⟨mem_keys_of_get hq', ?_⟩)
    simp only [hr, hq']
    rw [decide_eq_true (Ne.symm hmoved), Bool.true_or]
  · refine .inr (.inr (List.mem_filter.mpr ⟨mem_keys_of_get (commit_routed_station hst), ?_⟩))
    rw [commit_interjections] at hchanged
    simp only [hq', Option.map_some, hshown]
    exact List.contains_iff_mem.mpr (mem_changedKeys.mpr hchanged)

end Commit

/-! ## The evaluation of a commit (R53, R54, R58) -/

/-- The Programme Controller as a commit finds it to evaluate: with the new tables, and no offset retained (R49, R54). -/
def commitProgramme (g : Staging) (s : State) : PguState :=
  { (withTables (postEdition g.staged (tablesOf s)) s).pgu with retained := false }

theorem commit_evaluated (g : Staging) (s : State) : (flush (commitEdition g s)).pgu =
    evalPgu (flush (commitEdition g s)).sms (voyageMinute (flush (commitEdition g s)).clk) (commitProgramme g s) := by
  rw [commit_pgu, commit_sms, commitRouted_sms, commit_clk]
  rfl

theorem commit_active (g : Staging) (s : State) : (flush (commitEdition g s)).pco.active =
    activeAt (flush (commitEdition g s)).pco.interjections (voyageMinute (flush (commitEdition g s)).clk) := by
  rw [commit_interjections, commit_clk]
  exact (congrArg PcoState.active (commit_pco g s) :)

/-! ## A screen that stays one (R113, R117 to R119) -/

section Stays

variable {s t : State} {st old : StationRec} {r : RotState}

theorem commitTaken_frame : (commitTaken s t old st r).rotation = (commitBase s t old st r).rotation
    ∧ (commitTaken s t old st r).loops = (commitBase s t old st r).loops := takeActivity_frame _ _ _ _ _ st _

/-- A screen on a step that goes on keeps all but its due flags. -/
theorem commitTaken_step {n : Nat} (h : ¬Restarts s t old st) (hpos : r.position = .step n) :
    commitTaken s t old st r = { r with due := (commitTaken s t old st r).due } := by
  rw [commitTaken, commitBase_goes_on h, takeActivity_at_step _ _ _ _ _ hpos]
  rfl

theorem commitBase_default (h : r.position = .default ∧ ¬Restarts s t old st
    ∨ Restarts s t old st ∧ st.rotation = 0 ∧ (∀ i, r.position ≠ .interj i)) :
    (commitBase s t old st r).position = .default := by
  obtain ⟨hpos, hstays⟩ | ⟨hrestarts, hzero, hpos⟩ := h
  · rw [commitBase_goes_on hstays]
    exact hpos
  · rw [commitBase_restarts hrestarts, startRot_zero_elsewhere hzero hpos]

/-- A showing that goes on through a commit (R113, R119). -/
theorem commitTaken_showing (hsorted : tblSorted t.pco.interjections = true) {i : Nat} (hpos : r.position = .interj i)
    (hactive : ActiveOn t st i) (hsame : tblGet s.pco.interjections i = tblGet t.pco.interjections i) :
    (commitTaken s t old st r).position = r.position ∧ (commitTaken s t old st r).countdown = r.countdown
      ∧ (commitTaken s t old st r).lastShown = r.lastShown
      ∧ (¬Restarts s t old st → commitTaken s t old st r = { r with due := (commitTaken s t old st r).due })
      ∧ (Restarts s t old st → (commitTaken s t old st r).rotation = st.rotation
        ∧ (st.rotation = 0 → (commitTaken s t old st r).resume = none)
        ∧ (st.rotation ≠ 0 → ∀ full m loops, FullCounters (rotSteps t.pco.rotations st.rotation) full →
            walk (rotSteps t.pco.rotations st.rotation) walkFuel 0 full = (m, loops) →
            (commitTaken s t old st r).resume = some (m, dwellOf (rotSteps t.pco.rotations st.rotation) m)
              ∧ (commitTaken s t old st r).loops = loops)) := by
  have hbase := sameShowing_commitBase (s := s) (t := t) (old := old) (st := st) (r := r)
  rw [commitTaken_goes_on hsorted hpos hactive hsame]
  refine ⟨((hbase.position i).mpr hpos).trans hpos.symm, hbase.countdown i hpos, hbase.lastShown, fun h => ?_, fun h => ?_⟩
  · rw [commitBase_goes_on h]
    rfl
  · by_cases hzero : st.rotation = 0
    · rw [commitBase_restarts h, startRot_zero_interj hzero hpos]
      exact ⟨rfl, fun _ => rfl, fun hne => absurd hzero hne⟩
    · rw [commitBase_restarts h, startRot_walk_interj hzero hpos]
      refine ⟨rfl, fun hz => absurd hz hzero, fun _ full m loops hfull hwalk => ?_⟩
      rw [startWalk_eq hfull hwalk]
      exact ⟨rfl, rfl⟩

end Stays

/-! ## The settled obligation -/

/-- Settles O48: each block by the lemmas about what the commit makes of it, a screen's rotation by where it stood. -/
theorem commitTells : Obligations.CommitTells := by
  intro g s hphase hg hvalidating hvalid hheld hcanon
  have hcanon' : TablesCanonical (flush (commitEdition g s)) := by
    rw [tablesCanonical_iff, commit_tables]
    exact postEdition_canonical g.staged (tablesCanonical_iff.mp hcanon)
  obtain ⟨-, -, hstations, -, -, -, -, -, -, hinterj⟩ := id hcanon'
  obtain ⟨honly, hplaced⟩ := commit_onlyClaims (g := g) hheld
  have hpgu := commit_evaluated g s
  refine ⟨flush (commitEdition g s), _, ?_, rfl, commit_lineRec_reset g s, commit_lineRec_stays g s, commit_shed g s,
    commit_stays_shed g s, commit_txns g s, fun x hcabin => commit_rot_none hcanon' hcabin, fun x st steps hst hkind hsteps => ?_,
    honly, hplaced, by rw [hpgu]; rfl, fun i e he => ?_, fun x st hst => ?_, commit_waiting hcanon', commit_claims, ?_,
    fun i => ?_⟩
  · rw [exec_validationDone hphase hg hvalidating, finishValidation_commits hvalid]
  · subst hsteps
    have hq := commit_rot hcanon' hst hkind
    refine ⟨_, hq, fun hfresh => ?_, fun old r hold hr => ?_⟩
    · rw [commitRotAt_fresh g s hfresh]
      exact rotStarted_taken hinterj _ _ fun i => nofun
    · rw [(commitRotAt_stays g s hold hr).1] at hq ⊢
      refine ⟨fun h => commit_shown_restarted hcanon' hst hkind hold hr h st hst, fun h hpos => ?_,
        fun h ⟨n, hpos⟩ => commitTaken_step h hpos, fun h i hi => commitTaken_due hinterj h hi, fun hpos h => ?_,
        fun h => commitTaken_default hinterj (commitBase_default h), fun i resume hpos hends hstays hrestarts => ?_,
        fun i hpos hactive hsame => commitTaken_showing hinterj hpos hactive hsame⟩
      · rw [commitTaken, commitBase_restarts h]
        exact rotStarted_taken hinterj _ _ hpos
      · obtain ⟨hrotation, hloops⟩ := commitTaken_frame (s := s) (t := flush (commitEdition g s)) (st := st) (old := old) (r := r)
        rw [hrotation, hloops, commitBase_goes_on h]
        exact ⟨rfl, rfl⟩
      · rw [← commitBase_resume hpos hstays hrestarts]
        obtain ⟨hafresh, hreturned⟩ := commitTaken_interj_ends (old := old) hinterj hpos hends
        exact ⟨commit_shown_moved hst hr hq (commitTaken_moves hinterj hpos hends) st hst, hafresh, hreturned⟩
  · rw [hpgu] at he ⊢
    exact evalPgu_states _ _ _ he
  · rw [hpgu]
    exact evalPgu_lists _ (commitProgramme g s) hstations hst
  · rw [hpgu]
    rfl
  · rw [commit_active]
    exact mem_activeAt

end Sys2Proof.Machine
